-- ==== Sys2Proof/Word.lean ====
section
/-! DEFINITION. Word and byte types of the P16 model (R1: little-endian, bit 0 least significant). -/
namespace Sys2Proof

/-- One byte of a memory, a packet or a record. -/
abbrev Byte := BitVec 8
/-- A 32-bit lane, accumulator element or completion counter. -/
abbrev W32 := BitVec 32
/-- A 64-bit register. -/
abbrev W64 := BitVec 64
/-- A 256-bit unit: one bundle, one codebook register, one 32 B tile-store unit. -/
abbrev W256 := BitVec 256
/-- A 2,048-bit vector register. -/
abbrev VReg := BitVec 2048

end Sys2Proof
end

