-- ==== Sys2Proof/Syntax.lean ====
section
/-! DEFINITION. The commands of the block: one constructor per row of the spec's table of
operations and events, with the row's operands. A command carries what the outside decides: the
place and the cycle, a written value, a measured value, an arriving frame. -/
namespace Sys2Proof

/-- A master ID (Table 0-4); the reserved values 0x0C to 0x3F name no requester (R3, R8). -/
abbrev Master := Fin 12

/-- Where and when a tile command happens: the Headland die, the logical tile (row × 16 + column)
and the cycle of the tile's clock region, counted from reset. -/
structure At where
  die : Fin 24
  tile : Fin 256
  cyc : Nat
deriving DecidableEq, Repr

/-- Scalar format SR (Table 4-5). -/
structure SR where
  sd : BitVec 5
  sa : BitVec 5
  sb : BitVec 5
deriving DecidableEq, Repr
/-- Scalar format SI. -/
structure SI where
  sd : BitVec 5
  sa : BitVec 5
  imm : BitVec 30
deriving DecidableEq, Repr
/-- Scalar format SL. -/
structure SL where
  sd : BitVec 5
  imm : BitVec 32
deriving DecidableEq, Repr
/-- Scalar format SC. -/
structure SC where
  sd : BitVec 5
  sa : BitVec 5
  cr : BitVec 5
deriving DecidableEq, Repr
/-- Vector format VR (Table 4-6). -/
structure VR where
  vd : BitVec 5
  pr : BitVec 3
  va : BitVec 5
  vb : BitVec 5
  vc : BitVec 5
  fmt : BitVec 4
  rm : BitVec 3
  mod : BitVec 8
deriving DecidableEq, Repr
/-- Vector format VS: a scalar operand broadcast to every lane. -/
structure VS where
  vd : BitVec 5
  pr : BitVec 3
  va : BitVec 5
  sb : BitVec 5
  vc : BitVec 5
  fmt : BitVec 4
  rm : BitVec 3
  mod : BitVec 8
deriving DecidableEq, Repr
/-- Vector format VP: the destination is a predicate register. -/
structure VP where
  pd : BitVec 3
  pr : BitVec 3
  va : BitVec 5
  vb : BitVec 5
  vc : BitVec 5
  fmt : BitVec 4
  rm : BitVec 3
  mod : BitVec 8
deriving DecidableEq, Repr
/-- Vector format VI. -/
structure VI where
  vd : BitVec 5
  pr : BitVec 3
  va : BitVec 5
  fmt : BitVec 4
  imm : BitVec 32
deriving DecidableEq, Repr
/-- Vector format VM. -/
structure VM where
  vd : BitVec 5
  pr : BitVec 3
  sa : BitVec 5
  off : BitVec 15
deriving DecidableEq, Repr
/-- Matrix format MA (Table 4-7). -/
structure MA where
  ad : BitVec 2
  bc : BitVec 2
  wf : BitVec 4
  xf : BitVec 4
  sx : BitVec 5
  sw : BitVec 5
  sk : BitVec 5
  sm : BitVec 5
  acc : Bool
  spr : Bool
  wsc : Bool
  xsc : Bool
  cmp : Bool
deriving DecidableEq, Repr
/-- Matrix format MR. -/
structure MR where
  ad : BitVec 2
  vd : BitVec 5
  rp : BitVec 4
  tf : BitVec 4
  rm : BitVec 3
  cmp : Bool
deriving DecidableEq, Repr
/-- Matrix format MB. -/
structure MB where
  ad : BitVec 2
  sa : BitVec 5
deriving DecidableEq, Repr
/-- The move-slot layout (Table 4-9); `osf` is slot bits [63:39]. -/
structure MV where
  k : BitVec 4
  sa : BitVec 5
  sb : BitVec 5
  sc : BitVec 5
  len : BitVec 12
  osf : BitVec 25
deriving DecidableEq, Repr
/-- BRC (Table 4-3). -/
structure CBrc where
  cond : BitVec 3
  sa : BitVec 5
  tgt : BitVec 12
deriving DecidableEq, Repr
/-- LOOP. -/
structure CLoop where
  sa : BitVec 5
  fin : BitVec 12
deriving DecidableEq, Repr
/-- LOOPI. -/
structure CLoopi where
  cnt : BitVec 14
  fin : BitVec 12
deriving DecidableEq, Repr
/-- WAITC; with `src` the low five bits of `val` are SA and the rest are reserved. -/
structure CWaitc where
  k : BitVec 4
  src : Bool
  val : BitVec 20
deriving DecidableEq, Repr
/-- TIDEW. -/
structure CTidew where
  sa : BitVec 5
  off : BitVec 20
deriving DecidableEq, Repr
/-- FENCE. -/
structure CFence where
  k : BitVec 4
  fset : BitVec 8
deriving DecidableEq, Repr
/-- BARR. -/
structure CBarr where
  k : BitVec 4
  bset : BitVec 4
deriving DecidableEq, Repr
/-- EPCHK. -/
structure CEpchk where
  sa : BitVec 5
  tgt : BitVec 12
deriving DecidableEq, Repr

/-- How a swell is received: every check passes; some lane's code or the CRC fails; it passes with other contents than
were sent; or with these symbol errors (lane, codeword symbol, difference), which the receiver decodes (R224, R227). -/
inductive Rx where
  | good
  | fec
  | other (payload : List (BitVec 8))
  | errors (e : List (Fin 16 × Fin 76 × BitVec 8))
deriving DecidableEq, Repr

/-- Where a fault event comes from: the oldest one the block has raised itself; an event that a unit's own
hardware detects; or an upset of stored or transferred data, which later accesses meet. -/
inductive FaultSrc where
  | raised
  | event (kind : BitVec 8) (station : Fin 41) (unit : BitVec 16)
  /-- A bit error, or two, in an 8 B word of a tile store. -/
  | tileUpset (die : Fin 24) (tile : Fin 256) (word : Fin 131072) (dbl : Bool)
  | ibufUpset (die : Fin 24) (tile : Fin 256) (word : Fin 16384) (dbl : Bool)
  /-- A stored 64 B HBM block: an error that the on-die code corrects, and symbols of the Shingle code that change (64
  data, then 8 check bytes), by place and difference. -/
  | hbmUpset (block : Nat) (onDie : Bool) (syms : List (Fin 72 × BitVec 8))
  /-- A Tidepool line: 1 single-bit, 2 uncorrectable. -/
  | poolUpset (die : Fin 24) (line : BitVec 32) (e : BitVec 2)
  /-- A lane group (down groups from 1,024) that fails a number of attempts; 0 is a corrected error. -/
  | laneUpset (die : Fin 24) (lane : Fin 2048) (tries : Nat)
deriving DecidableEq, Repr

/-- A container with what the Harbour die's cryptography makes of it (R514): the signature verifies, the GCM tag
matches, the plaintext has the digest M_PLAIN; and that plaintext. -/
structure Crypto where
  sig : Bool
  gcm : Bool
  digest : Bool
  plain : List (BitVec 8)
deriving DecidableEq, Repr
/-- A container file of a service card. -/
structure CardFile where
  bytes : List (BitVec 8)
  crypto : Crypto
deriving DecidableEq, Repr
/-- What the Boot ROM and power-on self-test find (R418, R490 to R492). -/
structure Post where
  /-- S0 fails its reset self-test. -/
  s0Bad : Bool
  /-- Dies, by fuse index, that do not answer the fuse read. -/
  silent : List (Fin 66)
  /-- Failed physical tiles: row instance and position. -/
  tiles : List (Fin 384 × Fin 18)
  /-- Failed lane groups (down groups from 1,024), and measured tap offsets. -/
  lanes : List (Fin 24 × Fin 2048)
  taps : List (Fin 24 × Fin 2048 × BitVec 6)
  /-- Failed physical waveguides by bundle, and whether they fail in Calm too. -/
  wgs : List (Fin 131 × Fin 16 × Bool)
  /-- Corrected and received symbols of each bundle's Brisk pattern test. -/
  margin : List (Fin 131 × Nat × Nat)
  badStacks : List (Fin 16)
  /-- Sources that fail to lock. -/
  srcs : List (Fin 26)
  /-- Full-output power of each source's lines, measured when a cartridge is commissioned (R254). -/
  levels : List (Fin 26 × List (BitVec 16))
  /-- A factory token presented at this boot (R516). -/
  token : Option CardFile
  /-- Duration in ms. -/
  ms : Nat
deriving DecidableEq, Repr

/-- What a write reaches: a BAR0 register, or what configuration space and the MSI-X table hold of a port (R374,
R379): bus mastering, MSI-X Enable and Function Mask, a vector's mask bit, the BAR2 size. -/
inductive WrTarget where
  | bar0 (addr : BitVec 26) (size : Nat) (data : W64)
  | busMaster (on : Bool)
  | msix (enable funcMask : Bool)
  | msixMask (vector : BitVec 8) (masked : Bool)
  | bar2Size (log : Nat)
deriving DecidableEq, Repr
/-- The header of an arriving twin frame (Table 22-1); `good` when its CRC checks. -/
structure TwinHdr where
  port : Fin 2
  good : Bool
  state : BitVec 3
  pairId : BitVec 16
  dseq : BitVec 32
  ackSeq : BitVec 32
deriving DecidableEq, Repr
/-- What the payload of a DELTA, BULK, CONTROL or HEALTH frame says (R500 to R502, R508, Table 22-3); the spec does
not lay its bytes out. -/
inductive TwinItem where
  /-- Committed entries of a region, at their address; poison of each 32 B unit. -/
  | entries (addr : Nat) (data : List (BitVec 8)) (bad : List Bool)
  /-- A region's header. -/
  | header (base : Nat) (data : List (BitVec 8))
  /-- POS, SEQ, STEP, STATE and CODE after a close. -/
  | regs (stream : Fin 64) (pos seq : W64) (step : W32) (state : BitVec 2) (code : BitVec 8)
  /-- All of a stream's registers (Table 13-8). -/
  | stream (stream : Fin 64) (words : List W64)
  /-- Tokens of the history buffer from a position on. -/
  | history (stream : Fin 64) (pos : Nat) (tokens : List Nat)
  /-- Token records (Table 13-6). -/
  | records (stream : Fin 64) (recs : List (List (BitVec 8)))
  /-- The first SEQ the host has not consumed. -/
  | acked (stream : Fin 64) (seq : Nat)
  /-- The stream's bulk copy is complete. -/
  | copied (stream : Fin 64)
  /-- A delta of the stream was sealed short. -/
  | broken (stream : Fin 64)
  | handback
  /-- Worst class, BIST row, percent of the HBM and Tidepool scrub passes. -/
  | health (worst : BitVec 2) (row : Fin 384) (hbm tpl : BitVec 7)
deriving DecidableEq, Repr
/-- The input of a tile whose buffer moves on (R71): of a link, with the sender's cycle, or of one of the deliveries. -/
inductive InPort where
  | link (n : Fin 8) (scyc : Nat)
  | tidepool
  | hbm
  | optical
deriving DecidableEq, Repr
/-- How the return of a careened position goes (R232): its ring lock was lost before 16 tide cycles, or the stations that miss the
announcement. -/
structure CareenEnd where
  lockLost : Bool
  missed : List (Fin 41)
deriving DecidableEq, Repr

/-- One constructor per row of the spec's table of operations and events, with the row's operands. -/
inductive Instr where
  /-- READ_CLEAR (R4): A read of a register holding an RC field returns its value and clears the field, with any event of the same cycle recorded after the clear. -/
  | readClear (master : Master) (bar4 : Bool) (addr : BitVec 26) (size : Nat)
  /-- REGISTER_WRITE (R377): A BAR0 or internal write to a register that has no row of its own, checked for owner permission and applied by access code, including W1C clears. -/
  | registerWrite (master : Master) (target : WrTarget)
  /-- BUNDLE_ISSUE (R97): A tile issues its next bundle in the first cycle in which its WAITC, TIDEW and matrix-slot conditions hold, choosing the next bundle under the loop stack. -/
  | bundleIssue (pt : At)
  /-- RESULT_WRITE (R55): An operation's result is written to its destination register at the end of the cycle in which its latency expires. -/
  | resultWrite (pt : At)
  /-- DELAYED_VECTOR_ACCESS (R71): A vector access held off by matrix bank reads is performed in the first cycle its banks are free. -/
  | delayedVectorAccess (pt : At)
  /-- NOP (R84): Opcode 0 in a slot does nothing. -/
  | nop (pt : At)
  /-- BRC (R88): Conditional branch on S[SA] to bundle TGT, taken with a two-cycle penalty. -/
  | brc (pt : At) (o : CBrc)
  /-- LOOP (R101): Push a loop with its count from S[SA] onto the loop stack, or skip to END + 1 when the count is 0. -/
  | loop (pt : At) (o : CLoop)
  /-- LOOPI (R101): Push a loop with immediate count CNT onto the loop stack, or skip it when the count is 0. -/
  | loopi (pt : At) (o : CLoopi)
  /-- WAITC (R155): Holds issue of its bundle until a completion counter's COUNT reaches the given value. -/
  | waitc (pt : At) (o : CWaitc)
  /-- TIDEW (R156): Holds issue until the target tide tick, issuing at once with a NOTE when the target has passed. -/
  | tidew (pt : At) (o : CTidew)
  /-- FENCE (R157): Registers a fence over the selected classes of this tile's earlier move commands, reporting to counter K. -/
  | fence (pt : At) (o : CFence)
  /-- FENCE_RECORD (R158): Once every fenced command has completed, the fence records one completion with the first code under R7. -/
  | fenceRecord (pt : At)
  /-- BARR (R159): Records an arrival at a barrier set, or CAPACITY or PERM at once. -/
  | barr (pt : At) (o : CBarr)
  /-- BARRIER_RELEASE (R159): When every member of a barrier set has arrived g times, each member records OK in its named counter. -/
  | barrierRelease (die : Fin 24) (set : Fin 16) (cyc : Nat)
  /-- EPCHK (R161): Branches when the die's role epoch differs from S[SA][15:0]. -/
  | epchk (pt : At) (o : CEpchk)
  /-- END (R100): Stops issue on the tile; the die counts as finished when every active tile has issued END. -/
  | endIssue (pt : At)
  /-- ADD (R133): Scalar add of two registers. -/
  | add (pt : At) (o : SR)
  /-- SUB (R133): Scalar subtract of two registers. -/
  | sub (pt : At) (o : SR)
  /-- AND (R133): Scalar bitwise AND. -/
  | and (pt : At) (o : SR)
  /-- OR (R133): Scalar bitwise OR. -/
  | or (pt : At) (o : SR)
  /-- XOR (R133): Scalar bitwise XOR. -/
  | xor (pt : At) (o : SR)
  /-- SLL (R133): Scalar logical shift left by SB[5:0]. -/
  | sll (pt : At) (o : SR)
  /-- SRL (R133): Scalar logical shift right by SB[5:0]. -/
  | srl (pt : At) (o : SR)
  /-- SRA (R133): Scalar arithmetic shift right by SB[5:0]. -/
  | sra (pt : At) (o : SR)
  /-- SLT (R133): Scalar signed less-than compare. -/
  | slt (pt : At) (o : SR)
  /-- SLTU (R133): Scalar unsigned less-than compare. -/
  | sltu (pt : At) (o : SR)
  /-- MIN (R133): Scalar signed minimum. -/
  | min (pt : At) (o : SR)
  /-- MAX (R133): Scalar signed maximum. -/
  | max (pt : At) (o : SR)
  /-- MINU (R133): Scalar unsigned minimum. -/
  | minu (pt : At) (o : SR)
  /-- MAXU (R133): Scalar unsigned maximum. -/
  | maxu (pt : At) (o : SR)
  /-- MUL (R133): Low 64 bits of a scalar product. -/
  | mul (pt : At) (o : SR)
  /-- MULH (R133): High 64 bits of a signed scalar product. -/
  | mulh (pt : At) (o : SR)
  /-- MULHU (R133): High 64 bits of an unsigned scalar product. -/
  | mulhu (pt : At) (o : SR)
  /-- DIV (R134): Signed scalar quotient toward zero, with defined results for zero divisor and overflow. -/
  | div (pt : At) (o : SR)
  /-- DIVU (R57): Unsigned scalar quotient. -/
  | divu (pt : At) (o : SR)
  /-- REM (R134): Signed scalar remainder with the sign of the dividend. -/
  | rem (pt : At) (o : SR)
  /-- REMU (R57): Unsigned scalar remainder. -/
  | remu (pt : At) (o : SR)
  /-- LANE (R133): Copies one lane of a vector register, zero-extended, into a scalar register. -/
  | lane (pt : At) (o : SR)
  /-- ADDI (R133): Scalar add of a sign-extended 30-bit immediate. -/
  | addi (pt : At) (o : SI)
  /-- ANDI (R133): Scalar AND with an immediate. -/
  | andi (pt : At) (o : SI)
  /-- ORI (R133): Scalar OR with an immediate. -/
  | ori (pt : At) (o : SI)
  /-- XORI (R133): Scalar XOR with an immediate. -/
  | xori (pt : At) (o : SI)
  /-- SLLI (R133): Scalar shift left by an immediate. -/
  | slli (pt : At) (o : SI)
  /-- SRLI (R133): Scalar logical shift right by an immediate. -/
  | srli (pt : At) (o : SI)
  /-- SRAI (R133): Scalar arithmetic shift right by an immediate. -/
  | srai (pt : At) (o : SI)
  /-- SLTI (R133): Scalar signed compare with an immediate. -/
  | slti (pt : At) (o : SI)
  /-- SLTIU (R133): Scalar unsigned compare with an immediate. -/
  | sltiu (pt : At) (o : SI)
  /-- LI (R133): Loads a sign-extended 32-bit immediate. -/
  | li (pt : At) (o : SL)
  /-- LIH (R134): Writes the upper 32 bits of a scalar register, keeping the lower half. -/
  | lih (pt : At) (o : SL)
  /-- CRR (R135): Reads a tile control register or completion counter into a scalar register. -/
  | crr (pt : At) (o : SC)
  /-- CRW (R135): Writes a tile control register or completion counter from a scalar register. -/
  | crw (pt : At) (o : SC)
  /-- VLD (R132): Loads 256 B from the tile store into the enabled lanes of a vector register. -/
  | vld (pt : At) (o : VM)
  /-- VST (R132): Stores the enabled lanes of a vector register to the tile store. -/
  | vst (pt : At) (o : VM)
  /-- VMOVI (R121): Writes an immediate to every enabled lane. -/
  | vmovi (pt : At) (o : VI)
  /-- VIDX (R121): Writes the immediate plus the lane index to each enabled lane. -/
  | vidx (pt : At) (o : VI)
  /-- VADD (R124): Correctly rounded element-wise floating-point add. -/
  | vadd (pt : At) (o : VR)
  /-- VSUB (R124): Correctly rounded element-wise floating-point subtract. -/
  | vsub (pt : At) (o : VR)
  /-- VMUL (R124): Correctly rounded element-wise floating-point multiply. -/
  | vmul (pt : At) (o : VR)
  /-- VFMA (R124): Fused multiply-add with one rounding. -/
  | vfma (pt : At) (o : VR)
  /-- VMIN (R121): Element-wise floating-point minimum under the NaN rules. -/
  | vmin (pt : At) (o : VR)
  /-- VMAX (R121): Element-wise floating-point maximum under the NaN rules. -/
  | vmax (pt : At) (o : VR)
  /-- VABS (R121): Clears the sign of each element. -/
  | vabs (pt : At) (o : VR)
  /-- VNEG (R121): Inverts the sign of each element. -/
  | vneg (pt : At) (o : VR)
  /-- VRCP (R124): Correctly rounded reciprocal. -/
  | vrcp (pt : At) (o : VR)
  /-- VSQRT (R124): Correctly rounded square root. -/
  | vsqrt (pt : At) (o : VR)
  /-- VRSQ (R124): Faithful reciprocal square root. -/
  | vrsq (pt : At) (o : VR)
  /-- VEXP2 (R124): Faithful base-2 exponential. -/
  | vexp2 (pt : At) (o : VR)
  /-- VLOG2 (R124): Faithful base-2 logarithm. -/
  | vlog2 (pt : At) (o : VR)
  /-- VEXD (R124): Faithful 2 to the power of an exact difference. -/
  | vexd (pt : At) (o : VR)
  /-- VADDS (R123): Adds a broadcast scalar to each element. -/
  | vadds (pt : At) (o : VS)
  /-- VMULS (R123): Multiplies each element by a broadcast scalar. -/
  | vmuls (pt : At) (o : VS)
  /-- VFMAS (R123): Fused multiply-add with a broadcast scalar multiplier. -/
  | vfmas (pt : At) (o : VS)
  /-- VMAXS (R123): Maximum of each element and a broadcast scalar. -/
  | vmaxs (pt : At) (o : VS)
  /-- VIADDS (R121): Integer add of a broadcast scalar modulo 2^32. -/
  | viadds (pt : At) (o : VS)
  /-- VIADD (R121): Integer lane add modulo 2^32. -/
  | viadd (pt : At) (o : VR)
  /-- VISUB (R121): Integer lane subtract modulo 2^32. -/
  | visub (pt : At) (o : VR)
  /-- VIMUL (R121): Low 32 bits of an integer lane product. -/
  | vimul (pt : At) (o : VR)
  /-- VAND (R121): Lane-wise AND. -/
  | vand (pt : At) (o : VR)
  /-- VOR (R121): Lane-wise OR. -/
  | vor (pt : At) (o : VR)
  /-- VXOR (R121): Lane-wise XOR. -/
  | vxor (pt : At) (o : VR)
  /-- VSHL (R121): Lane-wise shift left. -/
  | vshl (pt : At) (o : VR)
  /-- VSHR (R121): Lane-wise logical shift right. -/
  | vshr (pt : At) (o : VR)
  /-- VSRA (R121): Lane-wise arithmetic shift right. -/
  | vsra (pt : At) (o : VR)
  /-- VIMIN (R121): Lane-wise signed integer minimum. -/
  | vimin (pt : At) (o : VR)
  /-- VIMAX (R121): Lane-wise signed integer maximum. -/
  | vimax (pt : At) (o : VR)
  /-- VSEL (R121): Selects each lane from VA or VB by a predicate. -/
  | vsel (pt : At) (o : VR)
  /-- VPERM (R121): Permutes lanes of VA by indices in VB. -/
  | vperm (pt : At) (o : VR)
  /-- VCMPR (R130): Compresses predicated lanes to the low lanes and zeroes the rest. -/
  | vcmpr (pt : At) (o : VR)
  /-- PCNT (R130): Writes the count of set predicate bits to every enabled lane. -/
  | pcnt (pt : At) (o : VR)
  /-- VCVT (R125): Converts elements between formats with rounding, saturation and flags. -/
  | vcvt (pt : At) (o : VR)
  /-- VCVTX (R126): Converts to an MX format, computing and writing block scales. -/
  | vcvtx (pt : At) (o : VR)
  /-- VRSUM (R127): Tree sum of enabled elements written to every enabled element. -/
  | vrsum (pt : At) (o : VR)
  /-- VRMAX (R128): Largest enabled element or its index. -/
  | vrmax (pt : At) (o : VR)
  /-- VRMIN (R128): Smallest enabled element or its index. -/
  | vrmin (pt : At) (o : VR)
  /-- VBMRG (R129): One bitonic compare-exchange step on keys and payloads. -/
  | vbmrg (pt : At) (o : VR)
  /-- VCMP (R131): Sets predicate bits from a floating-point or integer comparison. -/
  | vcmp (pt : At) (o : VP)
  /-- PAND (R121): Predicate AND. -/
  | pand (pt : At) (o : VP)
  /-- POR (R121): Predicate OR. -/
  | por (pt : At) (o : VP)
  /-- PXOR (R121): Predicate XOR. -/
  | pxor (pt : At) (o : VP)
  /-- MMA (R108): Matrix multiply-accumulate with W stored column by column, entering the pending position. -/
  | mma (pt : At) (o : MA)
  /-- MMAR (R109): Matrix multiply-accumulate with W stored row by row. -/
  | mmar (pt : At) (o : MA)
  /-- MATRIX_ENGINE_START (R112): A pending matrix operation moves to the executing position in its first engine cycle F. -/
  | matrixEngineStart (pt : At)
  /-- MATRIX_ENGINE_DONE (R113): Fourteen cycles after its last engine cycle a matrix operation's flags reach TSTAT and its accumulator busy bits clear. -/
  | matrixEngineDone (pt : At)
  /-- MRD (R118): Reads accumulator rows, converts them and writes a vector register. -/
  | mrd (pt : At) (o : MR)
  /-- MWR (R119): Writes vector lanes raw into two accumulator rows. -/
  | mwr (pt : At) (o : MR)
  /-- MSET (R119): Sets every accumulator element to a scalar value. -/
  | mset (pt : At) (o : MB)
  /-- CBLD (R117): Loads a codebook register from 32 B of the tile store. -/
  | cbld (pt : At) (o : MB)
  /-- CBLD_DELAYED_READ (R117): A CBLD whose bank the engine holds reads in the first cycle the bank is free. -/
  | cbldDelayedRead (pt : At)
  /-- TPLD (R139): Loads tile store from the Tidepool, filling misses and applying moor hints. -/
  | tpld (pt : At) (o : MV)
  /-- TPST (R139): Writes tile store data into the Tidepool, write-allocating lines. -/
  | tpst (pt : At) (o : MV)
  /-- MSEND (R142): Sends a tile-store range over a mesh or express link. -/
  | msend (pt : At) (o : MV)
  /-- OTXA (R143): Arms a transmit slot and hands the swell payload to the optical port. -/
  | otxa (pt : At) (o : MV)
  /-- ORXA (R144): Arms a drop port slot to receive a swell payload. -/
  | orxa (pt : At) (o : MV)
  /-- HBRD (R140): Reads HBM into the tile store through memory-channel slots. -/
  | hbrd (pt : At) (o : MV)
  /-- HBWR (R140): Writes the tile store to HBM through memory-channel slots. -/
  | hbwr (pt : At) (o : MV)
  /-- IBLD (R141): Copies tile-store units into the tile's instruction buffer. -/
  | ibld (pt : At) (o : MV)
  /-- KVAPP (R301): Appends entries to a stream's KV swash. -/
  | kvapp (pt : At) (o : MV)
  /-- KVGTH (R302): Gathers accepted swash entries behind the berm and advances it. -/
  | kvgth (pt : At) (o : MV)
  /-- KVBWS (R303): Discards the swash by setting TOP to BERM. -/
  | kvbws (pt : At) (o : MV)
  /-- NOTE (R148): Queues a note of 32–128 B to a tile of another die or to firmware. -/
  | note (pt : At) (o : MV)
  /-- FLD (R151): Loads remote HBM over the fabric into the tile store. -/
  | fld (pt : At) (o : MV)
  /-- FST (R151): Stores the tile store into remote HBM over the fabric. -/
  | fst (pt : At) (o : MV)
  /-- FATM (R153): Performs an atomic on remote HBM over the fabric. -/
  | fatm (pt : At) (o : MV)
  /-- MOVE_COMMAND_START (R74): The move engine starts the next queued command in issue order. -/
  | moveCommandStart (pt : At)
  /-- MOVE_COMMAND_COMPLETE (R137): A move command finishes and records one completion with its code. -/
  | moveCommandComplete (pt : At) (id : Nat)
  /-- LINK_DELIVERY (R142): A mesh or express transfer's last unit is written at the receiver and its counter RK records OK. -/
  | linkDelivery (pt : At) (link : BitVec 3) (rcyc : Nat)
  /-- INBOUND_BUFFER_DRAIN (R71): An inbound source buffer frees an entry and link credits release the held sender. -/
  | inboundBufferDrain (pt : At) (source : InPort)
  /-- REFERENCE_TICK (R189): Each 10 ns reference tick edge raises the master tide counter and the wall count. -/
  | referenceTick
  /-- REGION_TICK_EDGE (R190): A clock region's first edge after a reference edge raises its tide counter copy and resets its cycle number. -/
  | regionTickEdge (die : Fin 24) (region : Fin 4) (cyc : Nat)
  /-- BEACON_LOAD (R191): At its tick edge for tick 0 a region loads the beacon value, reporting a tide slip on difference. -/
  | beaconLoad (die : Fin 24) (region : Fin 4)
  /-- TABLE_TICK (R198): In each tick 0–1,007 each port sends per its VALID transmit entries and ring sets drop per drop records. -/
  | tableTick (q : Fin 41)
  /-- TX_CUTOFF (R195): At cycle 0 of tick T − 1 the port marks an incomplete arm MISSED or an unarmed slot idle. -/
  | txCutoff (die : Fin 24)
  /-- DATA_SWELL (R227): A data swell is decoded, checked and written to the armed tile range, or discarded with a SEVERE fault. -/
  | dataSwell (q : Fin 41) (dport : Fin 60) (cyc : Nat) (rx : Rx)
  /-- NULL_SWELL (R226): A null swell with MISSED sets MISS at the receiving counter and enters the report. -/
  | nullSwell (q : Fin 41) (dport : Fin 60) (rx : Rx)
  /-- IDLE_SWELL (R226): An idle swell in a table slot makes an armed receiver record TIMEOUT. -/
  | idleSwell (q : Fin 41) (dport : Fin 60) (rx : Rx)
  /-- MAKEUP_SWELL (R206): A makeup swell writes the original slot's payload and adds one to the receiving counter. -/
  | makeupSwell (q : Fin 41) (dport : Fin 60) (cyc : Nat) (rx : Rx)
  /-- REPORT_SWELL (R204): A report swell delivers a station's list of failed slots for the makeup assignment. -/
  | reportSwell (q : Fin 41) (src : Fin 41) (rx : Rx)
  /-- NOTE_SWELL (R208): A note swell delivers up to seven notes to a station. -/
  | noteSwell (q : Fin 41) (src : Fin 41) (second : Bool) (cycs : List Nat) (rx : Rx)
  /-- BEACON (R209): A station takes the first good beacon copy, announcing swaps, idle cycle and modes, and runs deferred arm checks. -/
  | beacon (q : Fin 41) (rx : Rx)
  /-- SETTLE_TICK (R196): Tick 1,008 decodes tick 1,007 outcomes and runs the slack-water evaluations. -/
  | settleTick
  /-- COUPLER_SWEEP_DONE (R186): The coupler sweep ends and new offsets are set for the taps. -/
  | couplerSweepDone (die : Fin 24) (offs : List (Fin 2048 × BitVec 6))
  /-- REPORT_TICK (R204): In its report tick each station sends its failure report to every other station. -/
  | reportTick (q : Fin 41)
  /-- RESOLVE_TICK (R205): Every station computes the same makeup assignment from the reports. -/
  | resolveTick
  /-- MAKEUP_TICK (R206): A port resends an assigned slot's payload as a makeup swell; unassigned failures complete with TIMEOUT. -/
  | makeupTick (q : Fin 41)
  /-- NOTE_TICK (R208): Each station sends queued notes, resends and ROLE_MOVED replies in note swells. -/
  | noteTick (q : Fin 41)
  /-- BEACON_TICK (R209): The Harbour station sends a beacon copy to every other station. -/
  | beaconTick
  /-- QUIET_TICK (R196): Ticks 1,022–1,023 carry no swells and host laser, careen, ring bias and table swap actions. -/
  | quietTick
  /-- IDLE_CYCLE (R210): An inserted idle tide cycle holds tide counters, stops issue and sends only beacons. -/
  | idleCycle
  /-- TIDE_TABLE_LOAD (R200): A TID_LOAD GO copies an image into an inactive tide table buffer. -/
  | tideTableLoad (station : BitVec 8) (buf : Bool) (addr : BitVec 41)
  /-- TIDE_TABLE_CHECK (R200): After copying, the Harbour die checks the loaded image and marks the buffer valid or invalid. -/
  | tideTableCheck
  /-- SWAP_REQUEST (R201): A TID_SWAP GO requests a swap, latched at the next tick 1,008. -/
  | swapRequest (hdl : BitVec 24) (shg : BitVec 16) (hrb : Bool) (turn : Bool)
  /-- MODULE_ROLE_REQUEST (R293): A TID_MROLE_NEXT GO requests a module role change. -/
  | moduleRoleRequest (mrole : BitVec 3) (fwd : BitVec 8)
  /-- CAREEN_RETURN (R232): After 16 tide cycles a careened position returns to its waveguide by a second switchover. -/
  | careenReturn (bundle : Fin 131) (effect : Nat) (how : CareenEnd)
  /-- HARENE_RECAL_DONE (R251): A Harene recalibration ends and the 4 °C test is applied again. -/
  | hareneRecalDone
  /-- BUNDLE_MAP_WRITE (R231): The Harbour die writes a new bundle map to stations with its EFFECT tick. -/
  | bundleMapWrite (bundle : Fin 131) (effect : Nat) (missed : List (Fin 41))
  /-- DECODER_TOTALS (R236): Stations send corrected-symbol totals to the Harbour die every 1 ms. -/
  | decoderTotals (bundle : Fin 131) (corrected : Nat) (received : Nat)
  /-- RING_LOCK_LOST (R249): A ring lock loop exceeds 60 pm error for 1 µs and declares lock lost. -/
  | ringLockLost (q : Fin 41) (src : Fin 41) (wg : Fin 60)
  /-- RING_LOCK_REACQUIRED (R249): A ring lock loop reacquires lock by sweep. -/
  | ringLockReacquired (q : Fin 41) (src : Fin 41) (wg : Fin 60)
  /-- RATE_DETECTOR_TRIP (R252): A station's ring-derived temperature moves over 5 °C in 100 µs, switching to fast sampling and requesting recalibration. -/
  | rateDetectorTrip (q : Fin 41)
  /-- FADE_SAMPLE (R242): Every 1 ms the Harbour die samples each LIT source's monitor lines and updates fade. -/
  | fadeSample (n : Fin 26) (lines : List Int)
  /-- SPARE_RESERVATION (R244): Every 1 s the spare reservation among WARN sources is evaluated again. -/
  | spareReservation
  /-- SPARE_WARMED (R240): A WARMING spare reaches operating temperature and starts locking. -/
  | spareWarmed (n : Fin 26)
  /-- SPARE_LOCKED (R240): A LOCKING spare locks to the grid and becomes READY. -/
  | spareLocked (n : Fin 26)
  /-- SPARE_LOCK_TIMEOUT (R243): A spare not locked within 200 ms becomes FAILED and the other spare starts warming. -/
  | spareLockTimeout (n : Fin 26)
  /-- SOURCE_FAILED (R246): A source fails in service, darkening its position and swapping in a READY spare. -/
  | sourceFailed (n : Fin 26)
  /-- PREHEAT_NOW (R258): A write starts the lowest-numbered COLD spare warming. -/
  | preheatNow
  /-- CARTRIDGE_INTERLOCK_OPEN (R253): Opening the cartridge latch turns sources off and trips Breakwater. -/
  | cartridgeInterlockOpen (value : BitVec 16)
  /-- FIBRE_PORT_OPEN (R256): An opened fibre port's transmitters change to probe mode within 50 µs. -/
  | fibrePortOpen (port : Fin 10)
  /-- PROBE_BURST (R256): An open port sends a 1 ms probe burst every 100 ms. -/
  | probeBurst (port : Fin 10)
  /-- FIBRE_PORT_RESTORED (R256): After 100 ms of received light a port returns to full power and trains. -/
  | fibrePortRestored (port : Fin 10)
  /-- CLEAN (R170): TPL_MAINT operation writing back every dirty sector in range. -/
  | clean (die : Fin 24) (all : Bool) (incl : Bool)
  /-- INVAL (R170): TPL_MAINT operation discarding lines in range. -/
  | inval (die : Fin 24) (all : Bool) (incl : Bool)
  /-- CLEAN_INVAL (R170): TPL_MAINT operation writing back then discarding lines in range. -/
  | cleanInval (die : Fin 24) (all : Bool) (incl : Bool)
  /-- UNMOOR (R170): TPL_MAINT operation clearing MOOR on lines in range. -/
  | unmoor (die : Fin 24) (all : Bool) (incl : Bool)
  /-- TPL_MAINT_DONE (R170): A maintenance operation finishes and reports its code. -/
  | tplMaintDone (die : Fin 24)
  /-- TIDEPOOL_FILL (R168): Missing sectors return from HBM, are installed and delivered. -/
  | tidepoolFill (die : Fin 24) (line : BitVec 32)
  /-- COUPLER_QUICK_SCAN (R183): After a Headland-only reset the Headland scans the coupler and builds a candidate map. -/
  | couplerQuickScan (die : Fin 24) (up : List (Fin 544)) (dn : List (Fin 544))
  /-- COUPLER_FULL_LANE_TEST (R183): A full lane test drives every lane, centres taps and builds the map. -/
  | couplerFullLaneTest (die : Fin 24) (up : List (Fin 544)) (dn : List (Fin 544)) (offs : List (Fin 2048 × BitVec 6))
  /-- RD (R263): A memory-channel read request arrives at a Shingle station. -/
  | rd (k : Fin 16)
  /-- WR (R263): A memory-channel write segment arrives and is written to the stack. -/
  | wr (k : Fin 16)
  /-- RDATA (R263): A read data segment arrives and is written to its requester's destination. -/
  | rdata (q : Fin 41)
  /-- WACK (R263): A write acknowledgement ends its request. -/
  | wack (q : Fin 41)
  /-- KVCMD (R270): A KV command message arrives at the owning Shingle and is queued per region. -/
  | kvcmd (k : Fin 16)
  /-- KV_EXECUTE (R270): The Shingle executes a KV command on its region in arrival order, writing the header last. -/
  | kvExecute (k : Fin 16) (q : Fin 24) (rid : BitVec 12)
  /-- KVDONE (R263): A KV completion message ends its request at the requester. -/
  | kvdone (q : Fin 24)
  /-- READ_RETURN_START (R264): A Shingle starts returning a read in its first slot 400 ns or more after arrival. -/
  | readReturnStart (k : Fin 16) (q : Fin 41) (rid : BitVec 12)
  /-- MEMORY_REQUEST_TIMEOUT (R265): A request not ended within 327.68 µs of wall time completes with TIMEOUT. -/
  | memoryRequestTimeout (q : Fin 41) (k : Fin 16) (rid : BitVec 12)
  /-- SCRUB_READ (R274): The Shingle scrubs the next block in spare DRAM time, correcting or poisoning it. -/
  | scrubRead (k : Fin 16)
  /-- DIE_REQUEST (R476): A GLB_RESET DIE request resets a Headland or Shingle die or is refused. -/
  | dieRequest (master : Master) (station : BitVec 8) (hold : Bool) (lines : List (BitVec 32))
  /-- HEADLAND_DIE_RELEASE (R485): A released Headland die relocks, checks fuses, zeroes tiles, trains the coupler and resynchronises. -/
  | headlandDieRelease (die : Fin 24) (fuses : Bool)
  /-- SHINGLE_DIE_RELEASE (R276): A released Shingle reloads PHY training, leaves self-refresh and uses the service schedule. -/
  | shingleDieRelease (k : Fin 16)
  /-- DIE_HOLD_CLEAR (R477): Clearing HOLD releases a die held in reset. -/
  | dieHoldClear (master : Master)
  /-- SLICE (R309): A slice record enters the sampler intake and its candidates are merged into the node. -/
  | slice
  /-- TREE (R309): A tree record is accepted and opens the stream's step. -/
  | tree
  /-- SAMPLER_STEP_CLOSE (R310): A step whose nodes are complete closes with a code, sampling and walking the tree. -/
  | samplerStepClose (n : Fin 64)
  /-- SAMPLER_STEP_TIMEOUT (R310): After TIMEOUT_CYC active cycles an open step closes with TIMEOUT. -/
  | samplerStepTimeout (n : Fin 64)
  /-- TOKEN_RECORD_WRITE (R317): Waiting token records are written to the output ring when space allows. -/
  | tokenRecordWrite (n : Fin 64)
  /-- STREAM_ENABLE (R318): Setting ENABLE validates the stream parameters and starts the stream or refuses it. -/
  | streamEnable (master : Master) (n : Fin 64)
  /-- STREAM_DISABLE (R318): Writing ENABLE = 0 discards any open step and sets the stream IDLE. -/
  | streamDisable (master : Master) (n : Fin 64)
  /-- LD (R348): A fabric load request is checked and read from the target's HBM. -/
  | ld (plane : Fin 8) (pkt : List (BitVec 8))
  /-- ST (R349): A fabric store request is checked, applied once and answered after commit. -/
  | st (plane : Fin 8) (pkt : List (BitVec 8))
  /-- ATOM (R359): A fabric atomic is answered from the reply cache, refused as stale, or performed once. -/
  | atom (plane : Fin 8) (pkt : List (BitVec 8))
  /-- LDR (R352): A load response is counted by MIDX and its first copy written to the tile store. -/
  | ldr (plane : Fin 8) (pkt : List (BitVec 8))
  /-- STA (R352): A store acknowledgement is counted once for its sequence. -/
  | sta (plane : Fin 8) (pkt : List (BitVec 8))
  /-- ATOMR (R360): An atomic response writes the old value on OK and completes the FATM. -/
  | atomr (plane : Fin 8) (pkt : List (BitVec 8))
  /-- PLANE_STATE (R341): A management packet from the fabric manager sets a plane down or up. -/
  | planeState (plane : Fin 8) (pkt : List (BitVec 8))
  /-- NODE_STATE (R364): A management packet sets a node's state, completing outstanding packets on LOST. -/
  | nodeState (plane : Fin 8) (pkt : List (BitVec 8))
  /-- TEARDOWN (R366): A TEARDOWN aborts the named job, closes its flows and opens a 2 ms QUIET window. -/
  | teardown (plane : Fin 8) (pkt : List (BitVec 8))
  /-- FLOW_CLOSE (R341): A FLOW_CLOSE packet releases the sender's inbound context. -/
  | flowClose (plane : Fin 8) (pkt : List (BitVec 8))
  /-- FABRIC_PACKET_SEND (R326): A packet is sent once its VC has credits, its flow window has room and its REQ_ID is free. -/
  | fabricPacketSend (plane : Fin 8)
  /-- CREDIT_RETURN (R326): A freed receive buffer unit returns a credit to the sender. -/
  | creditReturn (plane : Fin 8) (vc : Fin 4) (inward : Bool)
  /-- FABRIC_PORT_DOWN (R322): A fabric port loses lane lock or opens and its plane enters DOWN. -/
  | fabricPortDown (plane : Fin 8) (opened : Bool)
  /-- FABRIC_PORT_UP (R322): A retrained port with credits exchanged brings its plane UP. -/
  | fabricPortUp (plane : Fin 8) (credits : List Nat)
  /-- DETOUR (R337): A flow whose oldest packet waited DETOUR_TO, or whose plane went DOWN, moves plane and resends in VC3. -/
  | detour (flow : Fin 4096)
  /-- ATTEMPT_TIMEOUT (R338): Attempt 4 timing out completes the flow's commands with TIMEOUT and sets FAILED. -/
  | attemptTimeout (flow : Fin 4096)
  /-- FLOW_RETURN (R339): A detoured flow returns to HOME when it has nothing outstanding and HOME is usable. -/
  | flowReturn (flow : Fin 4096)
  /-- FLOW_OPEN (R332): Writing OPEN = 1 binds a flow to a rank and home plane. -/
  | flowOpen (flow : Fin 4096) (master : Master) (rank : BitVec 8) (home : Fin 8)
  /-- FLOW_CLOSE_REQUEST (R332): Writing OPEN = 0 closes an idle flow and sends FLOW_CLOSE. -/
  | flowCloseRequest (flow : Fin 4096) (master : Master)
  /-- RETURN (R339): Writing RETURN permits a detoured flow to return home. -/
  | returnHome (flow : Fin 4096) (master : Master)
  /-- PLANE_DISABLE (R336): Writing DISABLE holds a plane DISABLED or releases it. -/
  | planeDisable (plane : Fin 8) (master : Master) (disable : Bool)
  /-- FAB_DIRECT_LOAD (R331): A FAB_DIRECT load moves up to 256 B from a node into HBM. -/
  | fabDirectLoad (master : Master) (node : Fin 64) (len : BitVec 9) (off : BitVec 46) (buf : BitVec 41)
  /-- FAB_DIRECT_STORE (R331): A FAB_DIRECT store moves up to 256 B from HBM to a node. -/
  | fabDirectStore (master : Master) (node : Fin 64) (len : BitVec 9) (off : BitVec 46) (buf : BitVec 41)
  /-- FAB_DIRECT_ATOMIC (R331): A FAB_DIRECT atomic on a node's memory. -/
  | fabDirectAtomic (master : Master) (node : Fin 64) (aop : BitVec 3) (w64 : Bool) (off : BitVec 46) (buf : BitVec 41)
  /-- QUIET_END (R366): The 2 ms QUIET window after a TEARDOWN ends. -/
  | quietEnd
  /-- SQUALL_START (R342): The owning host starts a Squall drill on its target. -/
  | squallStart (master : Master) (target : BitVec 2) (ports : BitVec 8) (duration : BitVec 16)
  /-- SQUALL_END (R344): A drill ends on EN cleared, DURATION_MS, a PORT reset or a job abort. -/
  | squallEnd (master : Option Master)
  /-- SQUALL_REORDER_RELEASE (R343): A held packet is released after DELAY packets or 10 µs. -/
  | squallReorderRelease (plane : Fin 10)
  /-- PORT_RESET (R379): A PORT event resets one port's function, aborts its Ferry work and expires its rings' heartbeats. -/
  | portReset (port : Fin 2) (down : Bool)
  /-- BAR2_READ (R372): A host read of HBM through BAR2 bypassing the Tidepools. -/
  | bar2Read (port : Fin 2) (off : BitVec 41) (len : Nat)
  /-- BAR2_WRITE (R372): A host write to HBM through BAR2, poisoned when EP is set. -/
  | bar2Write (port : Fin 2) (off : BitVec 41) (data : List (BitVec 8)) (ep : Bool)
  /-- MSIX_UNMASK (R374): A pended MSI-X message is sent once its mask clears. -/
  | msixUnmask (port : Fin 2) (vector : Option (BitVec 8))
  /-- CLAIM (R376): A host becomes the owning host while none exists. -/
  | claim (port : Fin 2)
  /-- RELEASE (R376): The owning host gives up ownership. -/
  | release (port : Fin 2)
  /-- TAKEOVER (R376): The other host takes ownership when the owner's link is down or its rings are orphaned. -/
  | takeover (port : Fin 2)
  /-- FERRY_ENABLE (R381): Setting a Ferry channel's ENABLE clears its indices or fails on bad configuration. -/
  | ferryEnable (ch : Fin 32) (master : Master)
  /-- FERRY_DISABLE (R390): Writing ENABLE = 0 lets bursts finish and completes the current descriptor with ABORTED. -/
  | ferryDisable (ch : Fin 32) (master : Master)
  /-- FERRY_OWNER_WRITE (R380): The owning host or supervisor changes a disabled channel's OWNER. -/
  | ferryOwnerWrite (ch : Fin 32) (master : Master) (owner : BitVec 6)
  /-- FERRY_DOORBELL (R384): A doorbell or TAIL write sets TAIL for a doorbell channel. -/
  | ferryDoorbell (ch : Fin 32) (master : Master) (bar4 : Bool) (tail : BitVec 16)
  /-- FERRY_TIMER (R384): When the tide counter reaches NEXT a timer channel gains a credit. -/
  | ferryTimer (ch : Fin 32)
  /-- DESCRIPTOR_START (R385): A ready channel fetches and checks the descriptor at HEAD. -/
  | descriptorStart (ch : Fin 32)
  /-- BURST_START (R386): The engine starts a burst for the chosen channel by priority and round-robin. -/
  | burstStart
  /-- BURST_DONE (R387): A burst's reads and writes finish. -/
  | burstDone (ch : Fin 32) (second : Bool) (data : List (BitVec 8)) (ep : Bool)
  /-- FERRY_READ_TIMEOUT (R387): A host read unanswered for 10 ms ends the descriptor with TIMEOUT. -/
  | ferryReadTimeout (ch : Fin 32) (second : Bool)
  /-- DESCRIPTOR_COMPLETE (R388): After the read-back returns, the channel writes a completion record and signals its vector. -/
  | descriptorComplete (ch : Fin 32)
  /-- FERRY_RECORD_RELEASE (R388): A record held by a full queue is written once CQ_HEAD advances. -/
  | ferryRecordRelease (ch : Fin 32)
  /-- RING_ENABLE (R394): Setting a ring pair's ENABLE checks its region and activates it. -/
  | ringEnable (h : Fin 2) (n : Fin 64)
  /-- RING_DISABLE (R407): Writing ENABLE = 0 disables an idle ring, ignored for running or orphaned rings. -/
  | ringDisable (h : Fin 2) (n : Fin 64)
  /-- RING_DOORBELL (R402): A doorbell write sets SQ_TAIL and CQ_HEAD within bounds. -/
  | ringDoorbell (h : Fin 2) (n : Fin 64) (whole : Bool) (data : W64)
  /-- SUBMISSION_TAKE (R397): Runtime firmware takes the next submission entry and starts its work. -/
  | submissionTake (ring : Fin 128)
  /-- RING_NOP (R397): Submission NOP, completing after every earlier entry. -/
  | ringNop (ring : Fin 128)
  /-- LAUNCH (R400): Checks a launch image, loads its sections and requests the launch swap. -/
  | launch (ring : Fin 128)
  /-- JOB_COMPLETE (R100): When every launched die has finished the LAUNCH completes. -/
  | jobComplete (n : Nat)
  /-- STREAM_START (R398): Writes a stream's registers from a parameter block and sets ENABLE. -/
  | streamStart (ring : Fin 128)
  /-- STREAM_STOP (R398): Clears a stream's ENABLE. -/
  | streamStop (ring : Fin 128)
  /-- COMPLETION_POST (R403): A job completion entry is written at CQ_TAIL when the completion ring has room. -/
  | completionPost (ring : Fin 128)
  /-- SNAPSHOT_WRITE (R395): The P16 rewrites the ring header snapshot after its indices change. -/
  | snapshotWrite (ring : Fin 128)
  /-- HEARTBEAT_READ (R405): Every 10 ms the P16 reads each ACTIVE ring's heartbeat and ages HB_AGE. -/
  | heartbeatRead (ring : Fin 128)
  /-- RECLAIM (R407): A re-attaching driver returns an orphaned ring to ACTIVE. -/
  | reclaim (ring : Fin 128)
  /-- DISCARD (R407): Aborts an orphaned ring's jobs and streams and disables it. -/
  | discard (ring : Fin 128)
  /-- DOLDRUMS_AUTO_ENTRY (R408): After 60 s with no active ring and no job the module enters Doldrums. -/
  | doldrumsAutoEntry
  /-- MAILBOX_SEND (R410): A write of a mailbox data word is accepted while FULL is 0. -/
  | mailboxSend (c : Fin 64) (master : Master) (whole : Bool) (data : W64)
  /-- MAILBOX_TAKE (R410): A write of TAKE clears FULL. -/
  | mailboxTake (c : Fin 64) (master : Master) (whole : Bool)
  /-- MAILBOX_LOCK (R412): The supervisor sets LOCK, fixing the binding table and DUAL. -/
  | mailboxLock (master : Master)
  /-- BOOT_ROM (R418): The Boot ROM decrypts and verifies a supervisor slot and starts it, falling back to the other slot. -/
  | bootRom (a : Bool) (b : Bool) (post : Post)
  /-- RUNTIME_LOAD (R420): A GLB_RTLOAD GO starts verifying and decrypting a runtime bundle. -/
  | runtimeLoad (master : Master)
  /-- RUNTIME_LOAD_COMPLETE (R421): A verified runtime image is installed, rewritten or refused by digest and held work. -/
  | runtimeLoadComplete (c : Crypto)
  /-- WATCHDOG_FIRE (R424): A core's watchdog expires without a kick and the core stops. -/
  | watchdogFire (core : Fin 8)
  /-- CORE_FATAL_STOP (R424): A core stops on an uncorrectable memory error or fatal trap. -/
  | coreFatalStop (core : Fin 8) (mem : Bool)
  /-- WORKER_RESTART (R425): The supervisor resets, checks and restarts a stopped worker or marks it FAILED. -/
  | workerRestart (image : Bool)
  /-- WORKER_CATCH_UP (R426): A restarted worker posts missed completions, takes waiting entries and resumes heartbeats. -/
  | workerCatchUp (worker : Fin 6)
  /-- SUPERVISOR_RESTART (R427): Breakwater resets the supervisor core and the restarted supervisor rebuilds its state. -/
  | supervisorRestart
  /-- JOB_PARK (R428): 500 ms into an unfinished supervisor restart every tide cycle becomes idle. -/
  | jobPark
  /-- CORE_PLL_UNLOCK (R433): A die's core PLL loses lock and the die is held in DIE reset until relock. -/
  | corePllUnlock (q : Fin 41) (lines : List (BitVec 32))
  /-- SERIALIZER_PLL_UNLOCK (R433): A serializer or HBM PLL loses lock and the station stops sending. -/
  | serializerPllUnlock (q : Fin 41) (hbm : Bool)
  /-- PLL_RELOCK (R433): A PLL relocks and its die or station resumes. -/
  | pllRelock (q : Fin 41)
  /-- DROOP_STRETCH (R436): A region cycle beginning under droop is stretched to 1.5 periods. -/
  | droopStretch (die : Fin 24) (region : Fin 4)
  /-- POWER_SAMPLE (R438): Every 10 µs bus voltage and input current are measured and averaged. -/
  | powerSample (volts : BitVec 16) (amps : BitVec 16)
  /-- BUS_VOLTAGE_EXCURSION (R440): The bus voltage leaves its normal band, raising a fault, refusing launches or tripping. -/
  | busVoltageExcursion (volts : BitVec 16) (us : Nat)
  /-- DOLDRUMS_REQUEST (R443): REQ = 1 requests Doldrums entry, refused while work runs. -/
  | doldrumsRequest (master : Master)
  /-- BECALMED_REQUEST (R443): REQ = 2 requests Becalmed entry. -/
  | becalmedRequest (master : Master)
  /-- WAKE_REQUEST (R443): REQ = 3 starts an exit from a low-power state. -/
  | wakeRequest (master : Master)
  /-- LOW_POWER_ENTRY (R442): The module runs its ordered entry into Doldrums or Becalmed. -/
  | lowPowerEntry
  /-- LOW_POWER_EXIT (R442): An exit event runs the entry steps in reverse and dies resynchronise. -/
  | lowPowerExit
  /-- SENSOR_SAMPLE (R448): A die samples its temperature sensors at 1 kHz or 20 kHz and updates its requests. -/
  | sensorSample (die : Fin 66) (temps : List Nat) (ring : Nat)
  /-- STATUS_WORD (R453): SMBus command 0x00 returns the module status word. -/
  | statusWord (pec : Bool)
  /-- BUS_VOLTAGE_READ (R453): SMBus command 0x01 returns bus voltage. -/
  | busVoltageRead (pec : Bool)
  /-- INPUT_CURRENT_READ (R453): SMBus command 0x02 returns input current. -/
  | inputCurrentRead (pec : Bool)
  /-- INPUT_POWER_READ (R453): SMBus command 0x03 returns input power. -/
  | inputPowerRead (pec : Bool)
  /-- HEADLAND_TEMPERATURE_READ (R453): SMBus command 0x04 returns the hottest Headland governing temperature. -/
  | headlandTemperatureRead (pec : Bool)
  /-- STACK_TEMPERATURE_READ (R453): SMBus command 0x05 returns the hottest stack temperature. -/
  | stackTemperatureRead (pec : Bool)
  /-- HARBOUR_TEMPERATURE_READ (R453): SMBus command 0x06 returns the Harbour die temperature. -/
  | harbourTemperatureRead (pec : Bool)
  /-- LASER_TEMPERATURE_READ (R453): SMBus command 0x07 returns the cartridge temperature. -/
  | laserTemperatureRead (pec : Bool)
  /-- STATION_TEMPERATURES_READ (R453): SMBus command 0x10 returns every station's governing temperature. -/
  | stationTemperaturesRead (pec : Bool)
  /-- THROTTLE_READ (R453): SMBus command 0x11 returns PWR_THROTTLE. -/
  | throttleRead (pec : Bool)
  /-- MODULE_ID_READ (R453): SMBus command 0x20 returns GLB_MODULE_ID. -/
  | moduleIdRead (pec : Bool)
  /-- WAKE (R443): SMBus command 0x40 starts an exit from a low-power state. -/
  | smbusWake
  /-- STRANDLINE_SUMMARY (R528): SMBus command 0x80 returns the Strandline summary. -/
  | strandlineSummary (pec : Bool)
  /-- ENTRY_POINTER (R528): SMBus command 0x81 sets the entry pointer and restarts the signature pointer. -/
  | entryPointer (seq : BitVec 32)
  /-- ENTRY_READ (R528): SMBus command 0x82 returns the entry at the pointer and advances it. -/
  | entryRead (pec : Bool)
  /-- SIGNATURE_READ (R528): SMBus command 0x83 returns the next 32 B of the current signature block. -/
  | signatureRead (pec : Bool)
  /-- FAULT_EVENT (R458): A source instance counts an event, escalates its class past N and applies its reactions. -/
  | faultEvent (src : FaultSrc)
  /-- FAULT_WINDOW_CLOSE (R458): A counting window closes and an instance above base falls one class. -/
  | faultWindowClose (kind : BitVec 8) (station : Fin 41) (unit : BitVec 16)
  /-- RECORD_FORWARD (R457): A collector forwards one buffered record per cycle to the next level or record queue. -/
  | recordForward (level : Fin 5) (station : Fin 41) (child : Fin 256)
  /-- BREAKWATER_TRIP (R469): A 2-of-3 voted Breakwater trip records BWT_TRIP and enters safe state. -/
  | breakwaterTrip (cause : BitVec 4) (votes : BitVec 3) (station : BitVec 8) (value : BitVec 16) (us : Nat)
  /-- BREAKWATER_DISAGREEMENT (R467): A channel disagreeing twice in 1 s is failed and votes trip thereafter. -/
  | breakwaterDisagreement (ch : Fin 3) (value : BitVec 16)
  /-- BWT_TIGHTEN (R468): A first write tightens Breakwater limits and locks the register until POR. -/
  | bwtTighten (master : Master) (hdl : BitVec 8) (hbm : BitVec 8) (hrb : BitVec 8) (cur : BitVec 8)
  /-- TRIP_ACKNOWLEDGE (R471): The owning host clears PENDING in BWT_TRIP, releasing HOLD. -/
  | tripAcknowledge (master : Master)
  /-- FAULT_INJECT (R472): In factory mode FLT_INJ injects a fault event or forces Breakwater votes. -/
  | faultInject (master : Master) (kind : BitVec 8) (station : BitVec 8) (unit : BitVec 16) (cls : BitVec 2) (ch : BitVec 3) (go : Bool)
  /-- MODULE_RESET (R479): A MOD asserts, stopping clocks, putting stacks in self-refresh and resetting logic. -/
  | moduleReset
  /-- MOD_REQUEST (R476): A GLB_RESET write with KEY 0x5A requests a module reset. -/
  | modRequest (master : Master) (key : BitVec 8)
  /-- MODULE_RESET_RELEASE (R479): On release PLLs lock, dividers align, stacks leave self-refresh and the Boot ROM starts. -/
  | moduleResetRelease (a : Bool) (b : Bool) (post : Post)
  /-- POWER_ON (R480): The bus rises above 50 V, starting the standby domain, rails and power-on sequence. -/
  | powerOn (addrSel : Bool)
  /-- POWER_LOSS (R481): The bus falls below 45 V and every domain not kept by POR is lost. -/
  | powerLoss (torn : Bool)
  /-- HEARTBEAT_SEND (R504): Every 5 µs a module sends a twin HEARTBEAT on each twin port. -/
  | heartbeatSend
  /-- HEARTBEAT (R504): A twin HEARTBEAT frame arrives and refreshes the port's liveness and pairing. -/
  | heartbeat (h : TwinHdr) (want : BitVec 2) (ready : Bool)
  /-- WANT_WRITE (R497): The owning host writes WANT, returning to SOLO on 0. -/
  | wantWrite (master : Master) (want : BitVec 2)
  /-- DELTA (R501): A DELTA frame is applied at the lee in DSEQ order. -/
  | delta (h : TwinHdr) (item : TwinItem)
  /-- BULK (R500): A BULK frame of a stream's bulk copy is applied at the lee. -/
  | bulk (h : TwinHdr) (item : TwinItem)
  /-- ACK (R496): An ACK frame advances ACKSEQ at the windward. -/
  | ack (h : TwinHdr)
  /-- TRIP (R504): A twin TRIP frame declares the peer failed at once. -/
  | trip (h : TwinHdr)
  /-- HEALTH (R508): A HEALTH frame updates TWN_PEER at the windward. -/
  | health (h : TwinHdr) (worst : BitVec 2) (row : Fin 384) (hbm : BitVec 7) (tpl : BitVec 7)
  /-- CONTROL (R502): A CONTROL frame carries acknowledged SEQ or the handback. -/
  | control (h : TwinHdr) (item : TwinItem)
  /-- ACKED_SEQ_SEND (R502): The windward sends each stream's acknowledged SEQ at least every 100 µs. -/
  | ackedSeqSend
  /-- FRAME_RESEND (R496): A DELTA or BULK frame unacknowledged after 10 µs is resent under its DSEQ. -/
  | frameResend (port : Fin 2) (dseq : BitVec 32)
  /-- TWIN_PORT_DOWN (R504): A twin port without a valid frame for 20 µs is down. -/
  | twinPortDown (port : Fin 2)
  /-- LINK_DOWN_DECLARATION (R505): Silence on both ports declares the link down with the effects of Table 22-4. -/
  | linkDownDeclaration
  /-- ARM (R498): Writing ARM loads the launch image into buffer A and the tiles without starting. -/
  | arm (master : Master)
  /-- ARMING_COMPLETE (R498): Arming ends with INVAL of registered regions and ARMED set. -/
  | armingComplete
  /-- TAKE (R505): The owning host makes a lee in LEE take over. -/
  | take (master : Master)
  /-- RESUME (R505): A FENCED module resumes serving as EXPOSED. -/
  | resume (master : Master)
  /-- TWIN_SWITCHOVER (R506): A lee replays records, latches the swap to buffer A and becomes WINDWARD. -/
  | twinSwitchover
  /-- HANDBACK (R507): After 10 s healthy the windward holds steps, hands back and the lee takes control. -/
  | handback (peerHold : Bool)
  /-- STANDBY_BIST (R508): Every 100 ms a lee tests one tile row and sends a HEALTH frame. -/
  | standbyBist (failed : List (Fin 16)) (tpl : BitVec 7)
  /-- ATTEST_REQUEST (R517): A SEC_ATTEST GO starts an attestation report over the given nonce. -/
  | attestRequest (master : Master) (addr : BitVec 41)
  /-- ATTEST_COMPLETE (R518): The signing engine finishes and the report is written with vector 101. -/
  | attestComplete
  /-- CARD_INSERTION (R519): A service card insertion runs updates, depot scripts and writes logs. -/
  | cardInsertion (cid : Nat) (image : Option CardFile) (scripts : List CardFile)
  /-- CARD_REMOVAL (R521): Removing the card aborts a file copy and resets the agent. -/
  | cardRemoval (copying : Bool)
  /-- SCRIPT_READ (R520): Depot command reading and logging a BAR0 register. -/
  | scriptRead
  /-- SCRIPT_WRITE (R520): Depot command writing a BAR0 register while no host owns the module. -/
  | scriptWrite
  /-- SCRIPT_ATTEST (R520): Depot command writing an attestation report to the card. -/
  | scriptAttest
  /-- SCRIPT_WIPE (R520): Depot command running a handover wipe. -/
  | scriptWipe
  /-- STLDUMP (R520): Depot command writing every Strandline entry and signature block to the card. -/
  | stldump
  /-- SCRIPT_WAIT (R520): Depot command waiting a number of milliseconds. -/
  | scriptWait
  /-- MODRESET (R520): Depot command requesting a module reset. -/
  | modreset
  /-- SCRIPT_END (R520): Depot command ending the script. -/
  | scriptEnd
  /-- UPDATE_REQUEST (R522): A supervisor update container is submitted and checked and written to the inactive slot. -/
  | updateRequest (master : Master) (c : Crypto)
  /-- UPDATE_READY (R523): The standby core's new image reports ready after its checks. -/
  | updateReady
  /-- UPDATE_CONFIRM (R524): The new supervisor confirms, making its slot active and raising the minimum SVN. -/
  | updateConfirm
  /-- UPDATE_ROLLBACK (R524): Without confirmation in 600 s control returns to the previous core and the slot is rejected. -/
  | updateRollback
  /-- SEAL (R526): Every 86,400 power-on seconds the record is sealed with a signed chain digest. -/
  | seal
  /-- STL_SEAL (R534): An STL_SEAL GO requests an immediate seal. -/
  | stlSeal (master : Master)
  /-- WIPE_REQUEST (R529): SEC_WIPE with GO and KEY 0xA5 starts a handover wipe or is refused. -/
  | wipeRequest (master : Master) (key : BitVec 8)
  /-- HANDOVER_WIPE (R530): Keys are regenerated, stacks zero-filled, the attestation signed and a MOD requested. -/
  | handoverWipe
  /-- PORT_LINK_UP (R378): A PCIe port's link finishes training (after PERST# deassertion or a link-down), sets LINK_UP and begins serving its host, as a guest with refused mailboxes if it trains after LOCK while DUAL is 0. -/
  | portLinkUp (port : Fin 2) (speed : BitVec 3) (width : BitVec 5) (flit : Bool)
  /-- CARTRIDGE_INSERTION (R253): A laser cartridge is seated and its interlock loop closes, setting PRESENT and INTERLOCK, while it emits no light until the next module reset. -/
  | cartridgeInsertion (serial : BitVec 32) (rev : BitVec 8)
  /-- SUPERVISOR_RESTART_COMPLETE (R427): The restarted supervisor finishes rebuilding its state: parked jobs are released through the next beacon's IDLE_NEXT = 0, unlatched LAUNCHes complete ABORTED and Strandline entries from the gap are written. -/
  | supervisorRestartComplete
  /-- SEAL_SIGNATURE_DONE (R526): The signing engine finishes a seal's signature, which is then written into the older signature block and SEALING clears. -/
  | sealSignatureDone
  /-- TIDEPOOL_LINE_SCRUB (R508): A module in LEE scrubs the next Tidepool line, correcting single-bit errors and handling uncorrectable ones under R171, one pass every 4 h. -/
  | tidepoolLineScrub (die : Fin 24) (line : BitVec 32)
  /-- HEARTBEAT_INTERVAL_MISSED (R510): A 5 µs twin heartbeat interval passes on a port without a valid frame from the peer, raising fault kind 0x80. -/
  | heartbeatIntervalMissed (port : Fin 2)
deriving DecidableEq, Repr

end Sys2Proof
end

