-- ==== Sys2Proof/WellFormed.lean ====
section
/-! DEFINITION. Which slot operations decode without a bundle fault (R84, R85, R93, R103, R105,
R109, R119, R121, R122, R125 to R131, R133, R135, R136): the lowest cause code of Table 4-12 that the
encoding alone meets, 0 when it meets none. `caps` is ENABLED of GLB_CAPS (Table 21-6). -/
namespace Sys2Proof

/-- The first cause whose condition holds; the list is in ascending order of cause (R105). -/
def firstCause : List (Nat × Bool) → Nat
  | [] => 0
  | (c, b) :: r => if b then c else firstCause r

def isFp3 (f : Nat) : Bool := decide (f ≤ 2)
def isNarrow (f : Nat) : Bool := decide (3 ≤ f) && decide (f ≤ 9)
def isWeight (f : Nat) : Bool := decide (1 ≤ f) && decide (f ≤ 11)
def isAct (f : Nat) : Bool := decide (1 ≤ f) && decide (f ≤ 9)
def isMx (f : Nat) : Bool := decide (3 ≤ f) && decide (f ≤ 7)
def isIntFmt (f : Nat) : Bool := f == 8 || f == 9
def mustScale (f : Nat) : Bool := decide (5 ≤ f) && decide (f ≤ 9)
def noScale (f : Nat) : Bool := f == 1 || f == 2 || f == 10 || f == 11
/-- Formats never a conversion source or target: E8M0 and the reserved codes (Table 2-1). -/
def noConv (f : Nat) : Bool := decide (12 ≤ f)
/-- Bits per element as the conversion rules count them. -/
def convBits (f : Nat) : Nat :=
  if f = 0 then 32 else if f ≤ 2 then 16 else if f ≤ 4 then 8 else if f ≤ 6 then 6 else if f = 7 then 4
  else if f = 8 then 8 else 4

/-! ### Capability bits (Table 21-6) -/
def capCove3 (caps : Nat) : Bool := caps.testBit 0
def capSparseCove (caps : Nat) : Bool := caps.testBit 1
def capCmpSum (caps : Nat) : Bool := caps.testBit 2

/-! ### Scalar slot -/
def causeShiftImm (o : SI) : Nat := firstCause [(3, o.imm.toNat / 64 != 0)]
def causeCrr (o : SC) : Nat :=
  firstCause [(3, o.sa != 0), (7, decide (4 ≤ o.cr.toNat) && decide (o.cr.toNat ≤ 15))]
def causeCrw (o : SC) : Nat :=
  firstCause [(3, o.sd != 0), (7, decide (4 ≤ o.cr.toNat) && decide (o.cr.toNat ≤ 15))]

/-! ### Vector slot. `useB`, `useC` say which register fields the operation uses, `rounds` whether
RM names a rounding mode. -/
def causeVr (fp useB useC rounds : Bool) (o : VR) : Nat :=
  firstCause [(3, (!useB && o.vb != 0) || (!useC && o.vc != 0) || o.mod != 0 || (!rounds && o.rm != 0)),
    (4, if fp then !isFp3 o.fmt.toNat else o.fmt != 0),
    (6, o.rm == 5 || o.rm == 6)]
def causeVs (fp useC rounds : Bool) (o : VS) : Nat :=
  firstCause [(3, (!useC && o.vc != 0) || o.mod != 0 || (!rounds && o.rm != 0)),
    (4, if fp then !isFp3 o.fmt.toNat else o.fmt != 0),
    (6, o.rm == 5 || o.rm == 6)]
def causeVi (o : VI) : Nat := firstCause [(3, o.va != 0), (4, o.fmt != 0)]
def causeVcmpr (o : VR) : Nat :=
  firstCause [(3, o.vb != 0 || o.mod != 0 || o.rm != 0 || o.pr != 0), (4, o.fmt != 0)]
def causePcnt (o : VR) : Nat :=
  firstCause [(3, o.vb != 0 || o.vc != 0 || o.mod != 0 || o.rm != 0 || o.pr != 0 || decide (8 ≤ o.va.toNat)), (4, o.fmt != 0)]
def causeVrsum (o : VR) : Nat :=
  firstCause [(3, o.vb != 0 || o.vc != 0 || o.mod != 0), (4, !isFp3 o.fmt.toNat), (6, o.rm == 5 || o.rm == 6), (8, o.rm == 4)]
def causeVrmax (o : VR) : Nat :=
  firstCause [(3, o.vb != 0 || o.vc != 0 || decide (2 ≤ o.mod.toNat) || o.rm != 0), (4, !isFp3 o.fmt.toNat)]
def causeVbmrg (o : VR) : Nat :=
  firstCause [(3, o.rm != 0 || o.pr != 0 || decide (64 ≤ o.mod.toNat)), (4, o.fmt != 0),
    (8, decide (6 ≤ o.mod.toNat % 8) || o.mod.toNat / 8 % 8 == 0 || o.mod.toNat / 8 % 8 == 7 || o.vd == o.vc)]

/-- Target format and part number of a conversion's MOD (R125). -/
def convTf (o : VR) : Nat := o.mod.toNat % 16
def convPt (o : VR) : Nat := o.mod.toNat / 16 % 8
/-- Element count of a conversion: 2,048 ÷ the wider width. -/
def convN (o : VR) : Nat := 2048 / max (convBits o.fmt.toNat) (convBits (convTf o))
def convPairOk (f t : Nat) : Bool :=
  (isFp3 f && isFp3 t && f != t) || (isFp3 f && isNarrow t) || (isFp3 t && isNarrow f)
  || (f == 3 && t == 4) || (f == 4 && t == 3)
def convFits (o : VR) : Bool :=
  decide ((convPt o + 1) * convN o * min (convBits o.fmt.toNat) (convBits (convTf o)) ≤ 2048)
def causeVcvt (o : VR) : Nat :=
  let f := o.fmt.toNat
  let t := convTf o
  firstCause [(3, o.vb != 0 || o.vc != 0 || decide (128 ≤ o.mod.toNat)),
    (4, noConv f || noConv t || t == 10 || t == 11),
    (6, o.rm == 5 || o.rm == 6),
    (8, !convPairOk f t || !convFits o)]
def causeVcvtx (o : VR) : Nat :=
  let f := o.fmt.toNat
  let t := convTf o
  firstCause [(3, o.vb != 0 || o.pr != 0 || decide (128 ≤ o.mod.toNat)),
    (4, noConv f || noConv t || t == 10 || t == 11),
    (6, o.rm == 5 || o.rm == 6),
    (8, !(isFp3 f && isMx t) || !convFits o)]
def causeVcmp (o : VP) : Nat :=
  firstCause [(3, o.vc != 0 || o.rm != 0 || decide (16 ≤ o.mod.toNat)), (4, o.fmt != 0), (8, o.mod.toNat % 8 == 7)]
def causePlogic (o : VP) : Nat :=
  firstCause [(3, o.vc != 0 || o.rm != 0 || o.mod != 0 || o.pr != 0 || decide (8 ≤ o.va.toNat) || decide (8 ≤ o.vb.toNat)), (4, o.fmt != 0)]

/-! ### Matrix slot -/
def causeMa (caps : Nat) (rowW : Bool) (o : MA) : Nat :=
  let w := o.wf.toNat
  let x := o.xf.toNat
  firstCause [
    (4, !isWeight w || !isAct x || (w == 11 && !capCove3 caps)),
    (5, isIntFmt w != isIntFmt x),
    (8, (o.spr && !(w == 7 || w == 3 || w == 4 || w == 10)) || (o.spr && w == 10 && !capSparseCove caps)
      || (mustScale w && !o.wsc) || (noScale w && o.wsc) || (mustScale x && !o.xsc) || (noScale x && o.xsc)
      || (o.bc != 0 && !(w == 10 || w == 11))
      || (o.cmp && !(o.ad == 0 || o.ad == 2)) || (o.cmp && !capCmpSum caps)
      || (o.sm != 0 && !o.wsc && !o.spr)
      || (rowW && (w == 10 || w == 11 || o.spr)))]
def causeMrd (caps : Nat) (o : MR) : Nat :=
  firstCause [(4, !isFp3 o.tf.toNat), (6, o.rm == 5 || o.rm == 6),
    (8, ((o.tf == 1 || o.tf == 2) && decide (8 ≤ o.rp.toNat)) || (o.cmp && !(o.ad == 0 || o.ad == 2)) || (o.cmp && !capCmpSum caps))]
def causeMwr (o : MR) : Nat := firstCause [(3, o.tf != 0 || o.rm != 0 || o.cmp)]

/-! ### Move slot: `osf` bit j is slot bit 39 + j. -/
def osfAbove (o : MV) (n : Nat) : Bool := o.osf.toNat / 2 ^ n != 0
def causeTp (o : MV) : Nat := firstCause [(3, osfAbove o 2 || o.osf.toNat % 4 == 3)]
def causeMsend (o : MV) : Nat := firstCause [(3, osfAbove o 8 || decide (8 ≤ o.osf.toNat % 16))]
def causeArm (o : MV) : Nat := firstCause [(3, osfAbove o 6), (8, o.sb != 0 || o.len == 0)]
def causePlainMv (o : MV) : Nat := firstCause [(3, osfAbove o 0)]
def causeKv (o : MV) : Nat := firstCause [(3, osfAbove o 7)]
def causeKvbws (o : MV) : Nat := firstCause [(3, osfAbove o 7), (8, o.sc != 0 || o.len != 0)]
def causeNote (o : MV) : Nat :=
  firstCause [(3, osfAbove o 11), (8, o.len == 0 || decide (5 ≤ o.len.toNat) || decide (5 ≤ o.osf.toNat / 256 % 8))]
def causeFl (o : MV) : Nat := firstCause [(3, osfAbove o 20), (8, o.len == 0)]
def causeFatm (o : MV) : Nat :=
  firstCause [(3, osfAbove o 24), (8, o.len != 1 || decide (5 ≤ o.osf.toNat / 2 ^ 20 % 8))]

/-! ### Control slot -/
def causeBrc (o : CBrc) : Nat := firstCause [(3, o.cond == 0 && o.sa != 0), (6, o.cond == 7)]
def causeWaitc (o : CWaitc) : Nat := firstCause [(3, o.src && decide (32 ≤ o.val.toNat))]
def causeFence (o : CFence) : Nat := firstCause [(3, decide (64 ≤ o.fset.toNat))]
/-- Cause 0x9: END below pc + 1 (R102). -/
def causeLoopEnd (pc : Nat) (fin : BitVec 12) : Nat := firstCause [(9, decide (fin.toNat < pc + 1))]

/-- The cause a slot operation's encoding meets on its own; 0 for every other command. -/
def Instr.cause (caps : Nat) : Instr → Nat
  | .brc _ o => causeBrc o
  | .waitc _ o => causeWaitc o
  | .fence _ o => causeFence o
  | .slli _ o | .srli _ o | .srai _ o => causeShiftImm o
  | .crr _ o => causeCrr o
  | .crw _ o => causeCrw o
  | .vmovi _ o | .vidx _ o => causeVi o
  | .vadd _ o | .vsub _ o | .vmul _ o => causeVr true true false true o
  | .vfma _ o => causeVr true true true true o
  | .vmin _ o | .vmax _ o | .vexd _ o => causeVr true true false false o
  | .vabs _ o | .vneg _ o | .vrsq _ o | .vexp2 _ o | .vlog2 _ o => causeVr true false false false o
  | .vrcp _ o | .vsqrt _ o => causeVr true false false true o
  | .vadds _ o | .vmuls _ o => causeVs true false true o
  | .vfmas _ o => causeVs true true true o
  | .vmaxs _ o => causeVs true false false o
  | .viadds _ o => causeVs false false false o
  | .viadd _ o | .visub _ o | .vimul _ o | .vand _ o | .vor _ o | .vxor _ o | .vshl _ o | .vshr _ o
  | .vsra _ o | .vimin _ o | .vimax _ o | .vperm _ o => causeVr false true false false o
  | .vsel _ o => causeVr false true true false o
  | .vcmpr _ o => causeVcmpr o
  | .pcnt _ o => causePcnt o
  | .vcvt _ o => causeVcvt o
  | .vcvtx _ o => causeVcvtx o
  | .vrsum _ o => causeVrsum o
  | .vrmax _ o | .vrmin _ o => causeVrmax o
  | .vbmrg _ o => causeVbmrg o
  | .vcmp _ o => causeVcmp o
  | .pand _ o | .por _ o | .pxor _ o => causePlogic o
  | .mma _ o => causeMa caps false o
  | .mmar _ o => causeMa caps true o
  | .mrd _ o => causeMrd caps o
  | .mwr _ o => causeMwr o
  | .tpld _ o | .tpst _ o => causeTp o
  | .msend _ o => causeMsend o
  | .otxa _ o | .orxa _ o => causeArm o
  | .hbrd _ o | .hbwr _ o | .ibld _ o => causePlainMv o
  | .kvapp _ o | .kvgth _ o => causeKv o
  | .kvbws _ o => causeKvbws o
  | .note _ o => causeNote o
  | .fld _ o | .fst _ o => causeFl o
  | .fatm _ o => causeFatm o
  | _ => 0

/-- Well-formed: the encoding meets no bundle-fault cause. -/
def Instr.wellFormed (caps : Nat) (i : Instr) : Bool := i.cause caps == 0

end Sys2Proof
end

