-- ==== Sys2Proof/Decode.lean ====
section
/-! DEFINITION. Decoding. The table of operations and events gives no row any bits, so no word spells
a command on its own; what a program spells with bits is the 256-bit bundle (04_bundle_encoding.md),
whose five slots decode and encode here. -/
namespace Sys2Proof

/-- The command a table word spells: the table gives no row bits (log 8). -/
def decodeTableWord (_nbits _w : Nat) : Option Instr := none

/-! ### Slot formats: fields, reserved bits, and the word of a record -/

def sROf (w : BitVec 48) : SR := { sd := w.extractLsb' 8 5, sa := w.extractLsb' 13 5, sb := w.extractLsb' 18 5 }
def sRRsv (w : BitVec 48) : Bool := w.extractLsb' 23 25 != 0
def sRWord (op : BitVec 8) (o : SR) : BitVec 48 :=
  (0 : BitVec 25) ++ o.sb ++ o.sa ++ o.sd ++ op
def sIOf (w : BitVec 48) : SI := { sd := w.extractLsb' 8 5, sa := w.extractLsb' 13 5, imm := w.extractLsb' 18 30 }
def sIRsv (_ : BitVec 48) : Bool := false
def sIWord (op : BitVec 8) (o : SI) : BitVec 48 :=
  o.imm ++ o.sa ++ o.sd ++ op
def sLOf (w : BitVec 48) : SL := { sd := w.extractLsb' 8 5, imm := w.extractLsb' 13 32 }
def sLRsv (w : BitVec 48) : Bool := w.extractLsb' 45 3 != 0
def sLWord (op : BitVec 8) (o : SL) : BitVec 48 :=
  (0 : BitVec 3) ++ o.imm ++ o.sd ++ op
def sCOf (w : BitVec 48) : SC := { sd := w.extractLsb' 8 5, sa := w.extractLsb' 13 5, cr := w.extractLsb' 18 5 }
def sCRsv (w : BitVec 48) : Bool := w.extractLsb' 23 25 != 0
def sCWord (op : BitVec 8) (o : SC) : BitVec 48 :=
  (0 : BitVec 25) ++ o.cr ++ o.sa ++ o.sd ++ op
def vROf (w : BitVec 64) : VR := { vd := w.extractLsb' 8 5, pr := w.extractLsb' 13 3, va := w.extractLsb' 16 5, vb := w.extractLsb' 21 5, vc := w.extractLsb' 26 5, fmt := w.extractLsb' 31 4, rm := w.extractLsb' 35 3, mod := w.extractLsb' 38 8 }
def vRRsv (w : BitVec 64) : Bool := w.extractLsb' 46 18 != 0
def vRWord (op : BitVec 8) (o : VR) : BitVec 64 :=
  (0 : BitVec 18) ++ o.mod ++ o.rm ++ o.fmt ++ o.vc ++ o.vb ++ o.va ++ o.pr ++ o.vd ++ op
def vSOf (w : BitVec 64) : VS := { vd := w.extractLsb' 8 5, pr := w.extractLsb' 13 3, va := w.extractLsb' 16 5, sb := w.extractLsb' 21 5, vc := w.extractLsb' 26 5, fmt := w.extractLsb' 31 4, rm := w.extractLsb' 35 3, mod := w.extractLsb' 38 8 }
def vSRsv (w : BitVec 64) : Bool := w.extractLsb' 46 18 != 0
def vSWord (op : BitVec 8) (o : VS) : BitVec 64 :=
  (0 : BitVec 18) ++ o.mod ++ o.rm ++ o.fmt ++ o.vc ++ o.sb ++ o.va ++ o.pr ++ o.vd ++ op
def vPOf (w : BitVec 64) : VP := { pd := w.extractLsb' 8 3, pr := w.extractLsb' 13 3, va := w.extractLsb' 16 5, vb := w.extractLsb' 21 5, vc := w.extractLsb' 26 5, fmt := w.extractLsb' 31 4, rm := w.extractLsb' 35 3, mod := w.extractLsb' 38 8 }
def vPRsv (w : BitVec 64) : Bool := w.extractLsb' 11 2 != 0 || w.extractLsb' 46 18 != 0
def vPWord (op : BitVec 8) (o : VP) : BitVec 64 :=
  (0 : BitVec 18) ++ o.mod ++ o.rm ++ o.fmt ++ o.vc ++ o.vb ++ o.va ++ o.pr ++ (0 : BitVec 2) ++ o.pd ++ op
def vIOf (w : BitVec 64) : VI := { vd := w.extractLsb' 8 5, pr := w.extractLsb' 13 3, va := w.extractLsb' 16 5, fmt := w.extractLsb' 21 4, imm := w.extractLsb' 25 32 }
def vIRsv (w : BitVec 64) : Bool := w.extractLsb' 57 7 != 0
def vIWord (op : BitVec 8) (o : VI) : BitVec 64 :=
  (0 : BitVec 7) ++ o.imm ++ o.fmt ++ o.va ++ o.pr ++ o.vd ++ op
def vMOf (w : BitVec 64) : VM := { vd := w.extractLsb' 8 5, pr := w.extractLsb' 13 3, sa := w.extractLsb' 16 5, off := w.extractLsb' 21 15 }
def vMRsv (w : BitVec 64) : Bool := w.extractLsb' 36 28 != 0
def vMWord (op : BitVec 8) (o : VM) : BitVec 64 :=
  (0 : BitVec 28) ++ o.off ++ o.sa ++ o.pr ++ o.vd ++ op
def mAOf (w : BitVec 48) : MA := { ad := w.extractLsb' 8 2, bc := w.extractLsb' 10 2, wf := w.extractLsb' 12 4, xf := w.extractLsb' 16 4, sx := w.extractLsb' 20 5, sw := w.extractLsb' 25 5, sk := w.extractLsb' 30 5, sm := w.extractLsb' 35 5, acc := w.getLsbD 40, spr := w.getLsbD 41, wsc := w.getLsbD 42, xsc := w.getLsbD 43, cmp := w.getLsbD 44 }
def mARsv (w : BitVec 48) : Bool := w.extractLsb' 45 3 != 0
def mAWord (op : BitVec 8) (o : MA) : BitVec 48 :=
  (0 : BitVec 3) ++ BitVec.ofBool o.cmp ++ BitVec.ofBool o.xsc ++ BitVec.ofBool o.wsc ++ BitVec.ofBool o.spr ++ BitVec.ofBool o.acc ++ o.sm ++ o.sk ++ o.sw ++ o.sx ++ o.xf ++ o.wf ++ o.bc ++ o.ad ++ op
def mROf (w : BitVec 48) : MR := { ad := w.extractLsb' 8 2, vd := w.extractLsb' 10 5, rp := w.extractLsb' 15 4, tf := w.extractLsb' 19 4, rm := w.extractLsb' 23 3, cmp := w.getLsbD 26 }
def mRRsv (w : BitVec 48) : Bool := w.extractLsb' 27 21 != 0
def mRWord (op : BitVec 8) (o : MR) : BitVec 48 :=
  (0 : BitVec 21) ++ BitVec.ofBool o.cmp ++ o.rm ++ o.tf ++ o.rp ++ o.vd ++ o.ad ++ op
def mBOf (w : BitVec 48) : MB := { ad := w.extractLsb' 8 2, sa := w.extractLsb' 10 5 }
def mBRsv (w : BitVec 48) : Bool := w.extractLsb' 15 33 != 0
def mBWord (op : BitVec 8) (o : MB) : BitVec 48 :=
  (0 : BitVec 33) ++ o.sa ++ o.ad ++ op
def mVOf (w : BitVec 64) : MV := { k := w.extractLsb' 8 4, sa := w.extractLsb' 12 5, sb := w.extractLsb' 17 5, sc := w.extractLsb' 22 5, len := w.extractLsb' 27 12, osf := w.extractLsb' 39 25 }
def mVRsv (_ : BitVec 64) : Bool := false
def mVWord (op : BitVec 8) (o : MV) : BitVec 64 :=
  o.osf ++ o.len ++ o.sc ++ o.sb ++ o.sa ++ o.k ++ op
def cBrcOf (w : BitVec 32) : CBrc := { cond := w.extractLsb' 6 3, sa := w.extractLsb' 9 5, tgt := w.extractLsb' 14 12 }
def cBrcRsv (w : BitVec 32) : Bool := w.extractLsb' 26 6 != 0
def cBrcWord (op : BitVec 6) (o : CBrc) : BitVec 32 :=
  (0 : BitVec 6) ++ o.tgt ++ o.sa ++ o.cond ++ op
def cLoopOf (w : BitVec 32) : CLoop := { sa := w.extractLsb' 6 5, fin := w.extractLsb' 14 12 }
def cLoopRsv (w : BitVec 32) : Bool := w.extractLsb' 11 3 != 0 || w.extractLsb' 26 6 != 0
def cLoopWord (op : BitVec 6) (o : CLoop) : BitVec 32 :=
  (0 : BitVec 6) ++ o.fin ++ (0 : BitVec 3) ++ o.sa ++ op
def cLoopiOf (w : BitVec 32) : CLoopi := { cnt := w.extractLsb' 6 14, fin := w.extractLsb' 20 12 }
def cLoopiRsv (_ : BitVec 32) : Bool := false
def cLoopiWord (op : BitVec 6) (o : CLoopi) : BitVec 32 :=
  o.fin ++ o.cnt ++ op
def cWaitcOf (w : BitVec 32) : CWaitc := { k := w.extractLsb' 6 4, src := w.getLsbD 10, val := w.extractLsb' 11 20 }
def cWaitcRsv (w : BitVec 32) : Bool := w.extractLsb' 31 1 != 0
def cWaitcWord (op : BitVec 6) (o : CWaitc) : BitVec 32 :=
  (0 : BitVec 1) ++ o.val ++ BitVec.ofBool o.src ++ o.k ++ op
def cTidewOf (w : BitVec 32) : CTidew := { sa := w.extractLsb' 6 5, off := w.extractLsb' 11 20 }
def cTidewRsv (w : BitVec 32) : Bool := w.extractLsb' 31 1 != 0
def cTidewWord (op : BitVec 6) (o : CTidew) : BitVec 32 :=
  (0 : BitVec 1) ++ o.off ++ o.sa ++ op
def cFenceOf (w : BitVec 32) : CFence := { k := w.extractLsb' 6 4, fset := w.extractLsb' 10 8 }
def cFenceRsv (w : BitVec 32) : Bool := w.extractLsb' 18 14 != 0
def cFenceWord (op : BitVec 6) (o : CFence) : BitVec 32 :=
  (0 : BitVec 14) ++ o.fset ++ o.k ++ op
def cBarrOf (w : BitVec 32) : CBarr := { k := w.extractLsb' 6 4, bset := w.extractLsb' 10 4 }
def cBarrRsv (w : BitVec 32) : Bool := w.extractLsb' 14 18 != 0
def cBarrWord (op : BitVec 6) (o : CBarr) : BitVec 32 :=
  (0 : BitVec 18) ++ o.bset ++ o.k ++ op
def cEpchkOf (w : BitVec 32) : CEpchk := { sa := w.extractLsb' 6 5, tgt := w.extractLsb' 14 12 }
def cEpchkRsv (w : BitVec 32) : Bool := w.extractLsb' 11 3 != 0 || w.extractLsb' 26 6 != 0
def cEpchkWord (op : BitVec 6) (o : CEpchk) : BitVec 32 :=
  (0 : BitVec 6) ++ o.tgt ++ (0 : BitVec 3) ++ o.sa ++ op

/-- Control slot: the operation and whether a reserved bit is set; `none` for a reserved opcode. -/
def decodeControl (pt : At) (w : BitVec 32) : Option (Instr × Bool) :=
  match (w.extractLsb' 0 6).toNat with
  | 0 => some (.nop pt, false)
  | 1 => some (.brc pt (cBrcOf w), cBrcRsv w)
  | 2 => some (.loop pt (cLoopOf w), cLoopRsv w)
  | 3 => some (.loopi pt (cLoopiOf w), cLoopiRsv w)
  | 4 => some (.waitc pt (cWaitcOf w), cWaitcRsv w)
  | 5 => some (.tidew pt (cTidewOf w), cTidewRsv w)
  | 6 => some (.fence pt (cFenceOf w), cFenceRsv w)
  | 7 => some (.barr pt (cBarrOf w), cBarrRsv w)
  | 8 => some (.epchk pt (cEpchkOf w), cEpchkRsv w)
  | 9 => some (.endIssue pt, w.extractLsb' 6 26 != 0)
  | _ => none

/-- Control slot word of an operation; zero (a no-op) for any other command. -/
def encodeControl (i : Instr) : BitVec 32 :=
  match i with
  | .brc _ o => cBrcWord 1 o
  | .loop _ o => cLoopWord 2 o
  | .loopi _ o => cLoopiWord 3 o
  | .waitc _ o => cWaitcWord 4 o
  | .tidew _ o => cTidewWord 5 o
  | .fence _ o => cFenceWord 6 o
  | .barr _ o => cBarrWord 7 o
  | .epchk _ o => cEpchkWord 8 o
  | .endIssue _ => 9
  | _ => 0

/-- The operations of the control slot. -/
def isControl (i : Instr) : Bool :=
  match i with
  | .brc _ _ | .loop _ _ | .loopi _ _ | .waitc _ _ | .tidew _ _ | .fence _ _ | .barr _ _ | .epchk _ _ | .endIssue _ => true
  | _ => false

/-- Scalar slot: the operation and whether a reserved bit is set; `none` for a reserved opcode. -/
def decodeScalar (pt : At) (w : BitVec 48) : Option (Instr × Bool) :=
  match (w.extractLsb' 0 8).toNat with
  | 0 => some (.nop pt, false)
  | 1 => some (.add pt (sROf w), sRRsv w)
  | 2 => some (.sub pt (sROf w), sRRsv w)
  | 3 => some (.and pt (sROf w), sRRsv w)
  | 4 => some (.or pt (sROf w), sRRsv w)
  | 5 => some (.xor pt (sROf w), sRRsv w)
  | 6 => some (.sll pt (sROf w), sRRsv w)
  | 7 => some (.srl pt (sROf w), sRRsv w)
  | 8 => some (.sra pt (sROf w), sRRsv w)
  | 9 => some (.slt pt (sROf w), sRRsv w)
  | 10 => some (.sltu pt (sROf w), sRRsv w)
  | 11 => some (.min pt (sROf w), sRRsv w)
  | 12 => some (.max pt (sROf w), sRRsv w)
  | 13 => some (.minu pt (sROf w), sRRsv w)
  | 14 => some (.maxu pt (sROf w), sRRsv w)
  | 16 => some (.mul pt (sROf w), sRRsv w)
  | 17 => some (.mulh pt (sROf w), sRRsv w)
  | 18 => some (.mulhu pt (sROf w), sRRsv w)
  | 20 => some (.div pt (sROf w), sRRsv w)
  | 21 => some (.divu pt (sROf w), sRRsv w)
  | 22 => some (.rem pt (sROf w), sRRsv w)
  | 23 => some (.remu pt (sROf w), sRRsv w)
  | 24 => some (.lane pt (sROf w), sRRsv w)
  | 32 => some (.addi pt (sIOf w), sIRsv w)
  | 33 => some (.andi pt (sIOf w), sIRsv w)
  | 34 => some (.ori pt (sIOf w), sIRsv w)
  | 35 => some (.xori pt (sIOf w), sIRsv w)
  | 36 => some (.slli pt (sIOf w), sIRsv w)
  | 37 => some (.srli pt (sIOf w), sIRsv w)
  | 38 => some (.srai pt (sIOf w), sIRsv w)
  | 39 => some (.slti pt (sIOf w), sIRsv w)
  | 40 => some (.sltiu pt (sIOf w), sIRsv w)
  | 48 => some (.li pt (sLOf w), sLRsv w)
  | 49 => some (.lih pt (sLOf w), sLRsv w)
  | 56 => some (.crr pt (sCOf w), sCRsv w)
  | 57 => some (.crw pt (sCOf w), sCRsv w)
  | _ => none

/-- Scalar slot word of an operation; zero (a no-op) for any other command. -/
def encodeScalar (i : Instr) : BitVec 48 :=
  match i with
  | .add _ o => sRWord 1 o
  | .sub _ o => sRWord 2 o
  | .and _ o => sRWord 3 o
  | .or _ o => sRWord 4 o
  | .xor _ o => sRWord 5 o
  | .sll _ o => sRWord 6 o
  | .srl _ o => sRWord 7 o
  | .sra _ o => sRWord 8 o
  | .slt _ o => sRWord 9 o
  | .sltu _ o => sRWord 10 o
  | .min _ o => sRWord 11 o
  | .max _ o => sRWord 12 o
  | .minu _ o => sRWord 13 o
  | .maxu _ o => sRWord 14 o
  | .mul _ o => sRWord 16 o
  | .mulh _ o => sRWord 17 o
  | .mulhu _ o => sRWord 18 o
  | .div _ o => sRWord 20 o
  | .divu _ o => sRWord 21 o
  | .rem _ o => sRWord 22 o
  | .remu _ o => sRWord 23 o
  | .lane _ o => sRWord 24 o
  | .addi _ o => sIWord 32 o
  | .andi _ o => sIWord 33 o
  | .ori _ o => sIWord 34 o
  | .xori _ o => sIWord 35 o
  | .slli _ o => sIWord 36 o
  | .srli _ o => sIWord 37 o
  | .srai _ o => sIWord 38 o
  | .slti _ o => sIWord 39 o
  | .sltiu _ o => sIWord 40 o
  | .li _ o => sLWord 48 o
  | .lih _ o => sLWord 49 o
  | .crr _ o => sCWord 56 o
  | .crw _ o => sCWord 57 o
  | _ => 0

/-- The operations of the scalar slot. -/
def isScalar (i : Instr) : Bool :=
  match i with
  | .add _ _ | .sub _ _ | .and _ _ | .or _ _ | .xor _ _ | .sll _ _ | .srl _ _ | .sra _ _ | .slt _ _ | .sltu _ _ | .min _ _ | .max _ _ | .minu _ _ | .maxu _ _ | .mul _ _ | .mulh _ _ | .mulhu _ _ | .div _ _ | .divu _ _ | .rem _ _ | .remu _ _ | .lane _ _ | .addi _ _ | .andi _ _ | .ori _ _ | .xori _ _ | .slli _ _ | .srli _ _ | .srai _ _ | .slti _ _ | .sltiu _ _ | .li _ _ | .lih _ _ | .crr _ _ | .crw _ _ => true
  | _ => false

/-- Vector slot: the operation and whether a reserved bit is set; `none` for a reserved opcode. -/
def decodeVector (pt : At) (w : BitVec 64) : Option (Instr × Bool) :=
  match (w.extractLsb' 0 8).toNat with
  | 0 => some (.nop pt, false)
  | 1 => some (.vld pt (vMOf w), vMRsv w)
  | 2 => some (.vst pt (vMOf w), vMRsv w)
  | 8 => some (.vmovi pt (vIOf w), vIRsv w)
  | 9 => some (.vidx pt (vIOf w), vIRsv w)
  | 16 => some (.vadd pt (vROf w), vRRsv w)
  | 17 => some (.vsub pt (vROf w), vRRsv w)
  | 18 => some (.vmul pt (vROf w), vRRsv w)
  | 19 => some (.vfma pt (vROf w), vRRsv w)
  | 20 => some (.vmin pt (vROf w), vRRsv w)
  | 21 => some (.vmax pt (vROf w), vRRsv w)
  | 22 => some (.vabs pt (vROf w), vRRsv w)
  | 23 => some (.vneg pt (vROf w), vRRsv w)
  | 24 => some (.vrcp pt (vROf w), vRRsv w)
  | 25 => some (.vsqrt pt (vROf w), vRRsv w)
  | 26 => some (.vrsq pt (vROf w), vRRsv w)
  | 27 => some (.vexp2 pt (vROf w), vRRsv w)
  | 28 => some (.vlog2 pt (vROf w), vRRsv w)
  | 29 => some (.vexd pt (vROf w), vRRsv w)
  | 32 => some (.vadds pt (vSOf w), vSRsv w)
  | 33 => some (.vmuls pt (vSOf w), vSRsv w)
  | 34 => some (.vfmas pt (vSOf w), vSRsv w)
  | 35 => some (.vmaxs pt (vSOf w), vSRsv w)
  | 40 => some (.viadds pt (vSOf w), vSRsv w)
  | 48 => some (.viadd pt (vROf w), vRRsv w)
  | 49 => some (.visub pt (vROf w), vRRsv w)
  | 50 => some (.vimul pt (vROf w), vRRsv w)
  | 51 => some (.vand pt (vROf w), vRRsv w)
  | 52 => some (.vor pt (vROf w), vRRsv w)
  | 53 => some (.vxor pt (vROf w), vRRsv w)
  | 54 => some (.vshl pt (vROf w), vRRsv w)
  | 55 => some (.vshr pt (vROf w), vRRsv w)
  | 56 => some (.vsra pt (vROf w), vRRsv w)
  | 57 => some (.vimin pt (vROf w), vRRsv w)
  | 58 => some (.vimax pt (vROf w), vRRsv w)
  | 59 => some (.vsel pt (vROf w), vRRsv w)
  | 60 => some (.vperm pt (vROf w), vRRsv w)
  | 61 => some (.vcmpr pt (vROf w), vRRsv w)
  | 62 => some (.pcnt pt (vROf w), vRRsv w)
  | 64 => some (.vcvt pt (vROf w), vRRsv w)
  | 65 => some (.vcvtx pt (vROf w), vRRsv w)
  | 72 => some (.vrsum pt (vROf w), vRRsv w)
  | 73 => some (.vrmax pt (vROf w), vRRsv w)
  | 74 => some (.vrmin pt (vROf w), vRRsv w)
  | 76 => some (.vbmrg pt (vROf w), vRRsv w)
  | 80 => some (.vcmp pt (vPOf w), vPRsv w)
  | 81 => some (.pand pt (vPOf w), vPRsv w)
  | 82 => some (.por pt (vPOf w), vPRsv w)
  | 83 => some (.pxor pt (vPOf w), vPRsv w)
  | _ => none

/-- Vector slot word of an operation; zero (a no-op) for any other command. -/
def encodeVector (i : Instr) : BitVec 64 :=
  match i with
  | .vld _ o => vMWord 1 o
  | .vst _ o => vMWord 2 o
  | .vmovi _ o => vIWord 8 o
  | .vidx _ o => vIWord 9 o
  | .vadd _ o => vRWord 16 o
  | .vsub _ o => vRWord 17 o
  | .vmul _ o => vRWord 18 o
  | .vfma _ o => vRWord 19 o
  | .vmin _ o => vRWord 20 o
  | .vmax _ o => vRWord 21 o
  | .vabs _ o => vRWord 22 o
  | .vneg _ o => vRWord 23 o
  | .vrcp _ o => vRWord 24 o
  | .vsqrt _ o => vRWord 25 o
  | .vrsq _ o => vRWord 26 o
  | .vexp2 _ o => vRWord 27 o
  | .vlog2 _ o => vRWord 28 o
  | .vexd _ o => vRWord 29 o
  | .vadds _ o => vSWord 32 o
  | .vmuls _ o => vSWord 33 o
  | .vfmas _ o => vSWord 34 o
  | .vmaxs _ o => vSWord 35 o
  | .viadds _ o => vSWord 40 o
  | .viadd _ o => vRWord 48 o
  | .visub _ o => vRWord 49 o
  | .vimul _ o => vRWord 50 o
  | .vand _ o => vRWord 51 o
  | .vor _ o => vRWord 52 o
  | .vxor _ o => vRWord 53 o
  | .vshl _ o => vRWord 54 o
  | .vshr _ o => vRWord 55 o
  | .vsra _ o => vRWord 56 o
  | .vimin _ o => vRWord 57 o
  | .vimax _ o => vRWord 58 o
  | .vsel _ o => vRWord 59 o
  | .vperm _ o => vRWord 60 o
  | .vcmpr _ o => vRWord 61 o
  | .pcnt _ o => vRWord 62 o
  | .vcvt _ o => vRWord 64 o
  | .vcvtx _ o => vRWord 65 o
  | .vrsum _ o => vRWord 72 o
  | .vrmax _ o => vRWord 73 o
  | .vrmin _ o => vRWord 74 o
  | .vbmrg _ o => vRWord 76 o
  | .vcmp _ o => vPWord 80 o
  | .pand _ o => vPWord 81 o
  | .por _ o => vPWord 82 o
  | .pxor _ o => vPWord 83 o
  | _ => 0

/-- The operations of the vector slot. -/
def isVector (i : Instr) : Bool :=
  match i with
  | .vld _ _ | .vst _ _ | .vmovi _ _ | .vidx _ _ | .vadd _ _ | .vsub _ _ | .vmul _ _ | .vfma _ _ | .vmin _ _ | .vmax _ _ | .vabs _ _ | .vneg _ _ | .vrcp _ _ | .vsqrt _ _ | .vrsq _ _ | .vexp2 _ _ | .vlog2 _ _ | .vexd _ _ | .vadds _ _ | .vmuls _ _ | .vfmas _ _ | .vmaxs _ _ | .viadds _ _ | .viadd _ _ | .visub _ _ | .vimul _ _ | .vand _ _ | .vor _ _ | .vxor _ _ | .vshl _ _ | .vshr _ _ | .vsra _ _ | .vimin _ _ | .vimax _ _ | .vsel _ _ | .vperm _ _ | .vcmpr _ _ | .pcnt _ _ | .vcvt _ _ | .vcvtx _ _ | .vrsum _ _ | .vrmax _ _ | .vrmin _ _ | .vbmrg _ _ | .vcmp _ _ | .pand _ _ | .por _ _ | .pxor _ _ => true
  | _ => false

/-- Matrix slot: the operation and whether a reserved bit is set; `none` for a reserved opcode. -/
def decodeMatrix (pt : At) (w : BitVec 48) : Option (Instr × Bool) :=
  match (w.extractLsb' 0 8).toNat with
  | 0 => some (.nop pt, false)
  | 1 => some (.mma pt (mAOf w), mARsv w)
  | 2 => some (.mmar pt (mAOf w), mARsv w)
  | 16 => some (.mrd pt (mROf w), mRRsv w)
  | 17 => some (.mwr pt (mROf w), mRRsv w)
  | 32 => some (.mset pt (mBOf w), mBRsv w)
  | 33 => some (.cbld pt (mBOf w), mBRsv w)
  | _ => none

/-- Matrix slot word of an operation; zero (a no-op) for any other command. -/
def encodeMatrix (i : Instr) : BitVec 48 :=
  match i with
  | .mma _ o => mAWord 1 o
  | .mmar _ o => mAWord 2 o
  | .mrd _ o => mRWord 16 o
  | .mwr _ o => mRWord 17 o
  | .mset _ o => mBWord 32 o
  | .cbld _ o => mBWord 33 o
  | _ => 0

/-- The operations of the matrix slot. -/
def isMatrix (i : Instr) : Bool :=
  match i with
  | .mma _ _ | .mmar _ _ | .mrd _ _ | .mwr _ _ | .mset _ _ | .cbld _ _ => true
  | _ => false

/-- Move slot: the operation and whether a reserved bit is set; `none` for a reserved opcode. -/
def decodeMove (pt : At) (w : BitVec 64) : Option (Instr × Bool) :=
  match (w.extractLsb' 0 8).toNat with
  | 0 => some (.nop pt, false)
  | 1 => some (.tpld pt (mVOf w), mVRsv w)
  | 2 => some (.tpst pt (mVOf w), mVRsv w)
  | 8 => some (.msend pt (mVOf w), mVRsv w)
  | 16 => some (.otxa pt (mVOf w), mVRsv w)
  | 17 => some (.orxa pt (mVOf w), mVRsv w)
  | 24 => some (.hbrd pt (mVOf w), mVRsv w)
  | 25 => some (.hbwr pt (mVOf w), mVRsv w)
  | 28 => some (.ibld pt (mVOf w), mVRsv w)
  | 32 => some (.kvapp pt (mVOf w), mVRsv w)
  | 33 => some (.kvgth pt (mVOf w), mVRsv w)
  | 34 => some (.kvbws pt (mVOf w), mVRsv w)
  | 40 => some (.note pt (mVOf w), mVRsv w)
  | 48 => some (.fld pt (mVOf w), mVRsv w)
  | 49 => some (.fst pt (mVOf w), mVRsv w)
  | 50 => some (.fatm pt (mVOf w), mVRsv w)
  | _ => none

/-- Move slot word of an operation; zero (a no-op) for any other command. -/
def encodeMove (i : Instr) : BitVec 64 :=
  match i with
  | .tpld _ o => mVWord 1 o
  | .tpst _ o => mVWord 2 o
  | .msend _ o => mVWord 8 o
  | .otxa _ o => mVWord 16 o
  | .orxa _ o => mVWord 17 o
  | .hbrd _ o => mVWord 24 o
  | .hbwr _ o => mVWord 25 o
  | .ibld _ o => mVWord 28 o
  | .kvapp _ o => mVWord 32 o
  | .kvgth _ o => mVWord 33 o
  | .kvbws _ o => mVWord 34 o
  | .note _ o => mVWord 40 o
  | .fld _ o => mVWord 48 o
  | .fst _ o => mVWord 49 o
  | .fatm _ o => mVWord 50 o
  | _ => 0

/-- The operations of the move slot. -/
def isMove (i : Instr) : Bool :=
  match i with
  | .tpld _ _ | .tpst _ _ | .msend _ _ | .otxa _ _ | .orxa _ _ | .hbrd _ _ | .hbwr _ _ | .ibld _ _ | .kvapp _ _ | .kvgth _ _ | .kvbws _ _ | .note _ _ | .fld _ _ | .fst _ _ | .fatm _ _ => true
  | _ => false

/-! ### Bundles (R82, R84, R103, R105) -/

/-- The five slots of a bundle (Table 4-1). -/
structure Bundle where
  control : BitVec 32
  scalar : BitVec 48
  vector : BitVec 64
  matrix : BitVec 48
  move : BitVec 64
deriving DecidableEq, Repr

def splitBundle (b : W256) : Bundle :=
  { control := b.extractLsb' 0 32, scalar := b.extractLsb' 32 48, vector := b.extractLsb' 80 64,
    matrix := b.extractLsb' 144 48, move := b.extractLsb' 192 64 }
def joinBundle (b : Bundle) : W256 := b.move ++ b.matrix ++ b.vector ++ b.scalar ++ b.control

/-- The lowest cause a slot meets: 0x2 for opcode 0 with another bit set, 0x1 for a reserved opcode,
0x3 for a reserved bit, then the operation's own. -/
def slotCause (caps : Nat) {n : Nat} (op : Nat) (w : BitVec n) (d : Option (Instr × Bool)) : Nat :=
  if op = 0 then (if w = 0 then 0 else 2)
  else match d with
    | none => 1
    | some (i, rsv) => if rsv then 3 else i.cause caps

/-- The operation a slot decodes to; a no-op where it decodes to none. -/
def slotInstr (pt : At) (d : Option (Instr × Bool)) : Instr :=
  match d with
  | some (i, _) => i
  | none => .nop pt

end Sys2Proof
end

