-- ==== Sys2Proof/Machine/SMap.lean ====
section
/-! DEFINITION. Sparse maps in one canonical form: keys strictly rising, no entry equal to the
default. Every store of the model (tile stores, HBM, registers, tables of tiles and dies) is one
of these, so equal contents are equal data (log 1). -/
namespace Sys2Proof.Machine

/-- A sparse map from natural-number keys. -/
abbrev SMap (α : Type) := List (Nat × α)

/-- What key `k` holds; an unlisted key holds `d k`. -/
def smGet {α : Type} (d : Nat → α) : SMap α → Nat → α
  | [], k => d k
  | (j, a) :: m, k => if k = j then a else if k < j then d k else smGet d m k

/-- Entries after leading keys up to `k` are left out. -/
def smSkip {α : Type} (k : Nat) : SMap α → SMap α
  | [] => []
  | (j, a) :: m => if j ≤ k then smSkip k m else (j, a) :: m

/-- The entry list after writing `a` at `k`, keeping the canonical form. -/
def smSet {α : Type} [DecidableEq α] (d : Nat → α) : SMap α → Nat → α → SMap α
  | [], k, a => if a = d k then [] else [(k, a)]
  | (j, b) :: m, k, a =>
    if k = j then (if a = d k then smSkip k m else (k, a) :: m)
    else if k < j then (if a = d k then (j, b) :: m else (k, a) :: (j, b) :: m)
    else (j, b) :: smSet d m k a

/-- Write `f` of what is there. -/
def smUpd {α : Type} [DecidableEq α] (d : Nat → α) (m : SMap α) (k : Nat) (f : α → α) : SMap α :=
  smSet d m k (f (smGet d m k))

/-- The entries `a₀, a₁, …` at `k, k+1, …` that differ from the default. -/
def smRun {α : Type} [DecidableEq α] (d : Nat → α) : Nat → List α → SMap α
  | _, [] => []
  | k, a :: as => if a = d k then smRun d (k + 1) as else (k, a) :: smRun d (k + 1) as

/-- Replace the consecutive keys from `k` by the listed values. -/
def smSplice {α : Type} [DecidableEq α] (d : Nat → α) : SMap α → Nat → List α → SMap α
  | m, _, [] => m
  | [], k, a :: as => smRun d k (a :: as)
  | (j, b) :: m, k, a :: as =>
    if j < k then (j, b) :: smSplice d m k (a :: as)
    else smRun d k (a :: as) ++ smSkip (k + as.length) ((j, b) :: m)

/-- Canonical above a lower bound. -/
def smWfFrom {α : Type} [DecidableEq α] (d : Nat → α) : Nat → SMap α → Bool
  | _, [] => true
  | lo, (k, a) :: m => decide (lo ≤ k) && decide (a ≠ d k) && smWfFrom d (k + 1) m

/-- The canonical form: keys strictly rising and no entry equal to the default. -/
def smWf {α : Type} [DecidableEq α] (d : Nat → α) (m : SMap α) : Bool := smWfFrom d 0 m

/-- A byte memory: an unlisted address reads as zero. -/
abbrev Mem := SMap Byte

def memGet (m : Mem) (a : Nat) : Byte := smGet (fun _ => 0) m a
def memSet (m : Mem) (a : Nat) (b : Byte) : Mem := smSet (fun _ => 0) m a b

/-- `n` bytes from address `a`, lowest address first. -/
def memBytes (m : Mem) (a : Nat) : Nat → List Byte
  | 0 => []
  | n + 1 => memGet m a :: memBytes m (a + 1) n

/-- Store bytes from address `a` upwards. -/
def memStore (m : Mem) (a : Nat) (bs : List Byte) : Mem := smSplice (fun _ => 0) m a bs

/-- Little-endian value of a byte list (R1). -/
def leNat : List Byte → Nat
  | [] => 0
  | b :: bs => b.toNat + 256 * leNat bs

/-- The `n` little-endian bytes of a value (R1). -/
def leBytes : Nat → Nat → List Byte
  | 0, _ => []
  | n + 1, v => BitVec.ofNat 8 v :: leBytes n (v / 256)

/-- The little-endian value of `n` bytes at `a`. -/
def memNat (m : Mem) (a n : Nat) : Nat := leNat (memBytes m a n)

/-- The canonical form of a byte memory. -/
def Memory.wf (m : Mem) : Bool := smWf (fun _ => 0) m

end Sys2Proof.Machine
end

