-- ==== Sys2Proof/Machine/Bits.lean ====
section
/-! DEFINITION. Bit-field, sign-extension and packing helpers. -/
namespace Sys2Proof.Machine

/-- Bits [lo+w-1:lo] of a natural number. -/
def bitsN (v lo w : Nat) : Nat := v / 2 ^ lo % 2 ^ w

/-- A word with the field [lo+w-1:lo] replaced by `v`. -/
def setBitsN (x lo w v : Nat) : Nat :=
  x / 2 ^ (lo + w) * 2 ^ (lo + w) + v % 2 ^ w * 2 ^ lo + x % 2 ^ lo

/-- The signed value of a `w`-bit field. -/
def sextN (w v : Nat) : Int := if v % 2 ^ w < 2 ^ (w - 1) then (v % 2 ^ w : Nat) else (v % 2 ^ w : Nat) - (2 ^ w : Nat)

/-- Pack elements of width `w`, element 0 in the lowest bits (R28, R58). -/
def packN (w : Nat) : List Nat → Nat
  | [] => 0
  | v :: vs => v % 2 ^ w + 2 ^ w * packN w vs

/-- Element `e` of width `w` of a register image. -/
def elemN (w e v : Nat) : Nat := v / 2 ^ (w * e) % 2 ^ w

/-- The first `n` elements of width `w`. -/
def unpackN (w n v : Nat) : List Nat := (List.range n).map fun e => elemN w e v

/-- Spread each of the low `n` bits of `p` over `w` bits: the bit mask of a lane mask. -/
def spreadMask (w n p : Nat) : Nat := packN w ((List.range n).map fun i => if p.testBit i then 2 ^ w - 1 else 0)

/-- Old bits where the mask is 0, new bits where it is 1. -/
def maskBits {n : Nat} (mask old new : BitVec n) : BitVec n := (old &&& ~~~mask) ||| (new &&& mask)

/-- The first index at which a list holds `true`. -/
def firstIdx : List Bool → Option Nat
  | [] => none
  | true :: _ => some 0
  | false :: bs => (firstIdx bs).map (· + 1)

/-- Number of set bits among the low `n`. -/
def popN (n v : Nat) : Nat := ((List.range n).filter fun i => v.testBit i).length

/-- Replace the element at an index of a list. -/
def listSet {α : Type} : List α → Nat → α → List α
  | [], _, _ => []
  | _ :: xs, 0, a => a :: xs
  | x :: xs, n + 1, a => x :: listSet xs n a

/-- `base + 2^s` saturated at the top of a `w`-bit count. -/
def satAdd (w v n : Nat) : Nat := if v + n < 2 ^ w then v + n else 2 ^ w - 1

/-! ### CRC-32C (log 12) -/

def crcBits : Nat → Nat → Nat
  | 0, c => c
  | n + 1, c => crcBits n (if c % 2 = 1 then Nat.xor (c / 2) 0x82F63B78 else c / 2)
/-- CRC-32C register over a byte list. -/
def crcGo : List Byte → Nat → Nat
  | [], c => c
  | b :: bs, c => crcGo bs (crcBits 8 (Nat.xor c b.toNat))
/-- CRC-32C of a byte list. -/
def crc32c (bs : List Byte) : Nat := Nat.xor (crcGo bs (2 ^ 32 - 1)) (2 ^ 32 - 1)
/-- A little-endian field of a byte string. -/
def fieldAt (bs : List Byte) (off n : Nat) : Nat := leNat ((bs.drop off).take n)

end Sys2Proof.Machine
end

