-- ==== Sys2Proof/Machine/Rs.lean ====
section
/-! DEFINITION. Reed-Solomon codes over GF(2^8): of a swell's lanes (R224) and of a stored HBM block (R268). -/
namespace Sys2Proof.Machine

/-! ### GF(2^8) with x^8 + x^4 + x^3 + x^2 + 1 (R224, R268) -/

def gfGo : Nat → Nat → Nat → Nat → Nat
  | 0, _, _, acc => acc
  | n + 1, a, b, acc =>
    gfGo n (if 128 ≤ a then Nat.xor (2 * a) 0x11D else 2 * a) (b / 2) (if b % 2 = 1 then Nat.xor acc a else acc)
/-- Product of two symbols. -/
def gfMul (a b : Nat) : Nat := gfGo 8 a b 0
/-- α^n, α = 0x02. -/
def gfPow : Nat → Nat
  | 0 => 1
  | n + 1 => gfMul 2 (gfPow n)
/-- Inverse of a nonzero symbol. -/
def gfInv (a : Nat) : Nat := ((List.range 256).find? fun b => gfMul a b == 1).getD 0
/-- Value of a polynomial, highest power first. -/
def gfEval (p : List Nat) (x : Nat) : Nat := p.foldl (fun acc c => Nat.xor (gfMul acc x) c) 0
/-- Sum of two polynomials, lowest power first. -/
def gfAdd : List Nat → List Nat → List Nat
  | [], q => q
  | p, [] => p
  | a :: p, b :: q => Nat.xor a b :: gfAdd p q

/-! ### The code (R224) -/

/-- Generator with roots α^0 to α^(m−1), highest power first. -/
def rsGenerator : Nat → List Nat
  | 0 => [1]
  | m + 1 =>
    let p := rsGenerator m
    gfAdd (p ++ [0]) (0 :: p.map (gfMul (gfPow m)))
/-- Parity of the data symbols: the remainder of the data polynomial times x^m. -/
def rsParity (m : Nat) (data : List Nat) : List Nat :=
  data.foldl (fun r d =>
    let f := Nat.xor d (r.headD 0)
    gfAdd (r.tail ++ [0]) ((rsGenerator m).tail.map (gfMul f))) (List.replicate m 0)
/-- A lane's codeword: its data symbols, then its parity. -/
def rsEncode (m : Nat) (data : List Nat) : List Nat := data ++ rsParity m data

def rsSyndromes (m : Nat) (word : List Nat) : List Nat := (List.range m).map fun j => gfEval word (gfPow j)

/-- The error locator and its degree, by Berlekamp and Massey: `n` syndromes used so far of `syn`; locator, earlier
locator (lowest power first), degree, gap and earlier discrepancy. -/
def rsLocator (syn : List Nat) : Nat → Nat → List Nat → List Nat → Nat → Nat → Nat → List Nat × Nat
  | 0, _, c, _, l, _, _ => (c, l)
  | fuel + 1, n, c, b, l, gap, old =>
    let d := (List.range (l + 1)).foldl (fun acc i => Nat.xor acc (gfMul (c.getD i 0) (syn.getD (n - i) 0))) 0
    if d = 0 then rsLocator syn fuel (n + 1) c b l (gap + 1) old
    else
      let q := gfMul d (gfInv old)
      let c' := gfAdd c (List.replicate gap 0 ++ b.map (gfMul q))
      if 2 * l ≤ n then rsLocator syn fuel (n + 1) c' c (n + 1 - l) 1 d
      else rsLocator syn fuel (n + 1) c' b l (gap + 1) old

/-- Bounded-distance decoding in a code of `m` check symbols: the codeword within `t` symbols of the received word, if
there is one. Syndromes beyond 2t only detect (R224). -/
def rsDecode (m t : Nat) (word : List Nat) : Option (List Nat) :=
  let syn := rsSyndromes m word
  if syn.all (· == 0) then some word else
  let n := word.length
  let (c, l) := rsLocator syn (2 * t) 0 [1] [1] 0 1 1
  let atPt (p : List Nat) (x : Nat) : Nat := gfEval p.reverse x
  let places := (List.range n).filter fun j => atPt c (gfPow (255 - j)) == 0
  if t < l ∨ places.length ≠ l then none else
  -- evaluator: syndromes times locator, modulo x^(2t)
  let ev := (List.range (2 * t)).map fun i =>
    (List.range (i + 1)).foldl (fun acc k => Nat.xor acc (gfMul (c.getD k 0) (syn.getD (i - k) 0))) 0
  let slope := (List.range (c.length - 1)).map fun i => if i % 2 = 0 then c.getD (i + 1) 0 else 0
  let fixed := places.foldl (fun w j =>
    let x := gfPow (255 - j)
    let e := gfMul (gfPow j) (gfMul (atPt ev x) (gfInv (atPt slope x)))
    listSet w (n - 1 - j) (Nat.xor (w.getD (n - 1 - j) 0) e)) word
  if (rsSyndromes m fixed).all (· == 0) then some fixed else none

/-! ### A stored block (R268, R269) -/

/-- The word of 72 symbols, 64 data and 8 check, that disturbances leave, relative to what was written. -/
def errWord (syms : List (Nat × Nat)) : List Nat :=
  syms.foldl (fun w e => listSet w e.1 (Nat.xor (w.getD e.1 0) e.2)) (List.replicate 72 0)
/-- Every check byte inverted. -/
def invertChecks (w : List Nat) : List Nat := w.take 64 ++ (w.drop 64).map (Nat.xor 255)
/-- What the Shingle makes of a block: the form in which it decodes (`some true` is the poisoned one), and the difference
of its 64 ciphertext bytes, corrected where it decodes, from those written. The normal form is tried first (log 92). -/
def blkSeen (poison : Bool) (syms : List (Nat × Nat)) : Option Bool × List Nat :=
  let w := errWord syms
  match rsDecode 8 4 (if poison then invertChecks w else w) with
  | some c => (some false, c.take 64)
  | none => match rsDecode 8 4 (if poison then w else invertChecks w) with
    | some c => (some true, c.take 64)
    | none => (none, w.take 64)

end Sys2Proof.Machine
end

