-- ==== Sys2Proof/Config.lean ====
section
/-! DEFINITION. What the spec leaves open: free values with no body. Nothing in Lean can evaluate
one, so whatever is proved holds for every choice. Each is named in the assumption log. -/
namespace Sys2Proof.Config

/-- A fresh value the spec leaves open, indexed by the counter State.free (log 2). -/
opaque freeNat : Nat → Nat
/-- The same for one of several items of an occurrence: occurrence and item. -/
opaque freeItem : Nat → Nat → Nat
/-- The same for a tile: its place (die × 256 + tile), its own occurrence counter, item. -/
opaque freeTile : Nat → Nat → Nat → Nat
/-- Whether the neighbour of larger magnitude is delivered by VRSQ, VEXP2, VLOG2, VEXD or the sampler's
exponential where the exact result is not representable: operation, mantissa bits of the format (which name it),
operands (R124, R311: a fixed function) (log 3). -/
opaque faithfulUp : Nat → Nat → Nat → Nat → Bool
/-- A chunk sum whose order and grouping the spec leaves open, from the exact products (sign, magnitude,
exponent), the tile's place and its occurrence: kind (0 finite, 1 infinite, 2 NaN), sign, magnitude, exponent, flags
(R51: the intermediate precision has only a lower bound, so the value need not be an FP32 one) (log 4). -/
opaque chunkSum : List (Bool × Nat × Int) → Nat → Nat → Nat × Bool × Nat × Int × BitVec 5
/-- Which unmoored line of a Tidepool set is the victim: an index into the candidates (R164) (log 5). -/
opaque victim : List Nat → Nat → Nat
/-- Plaintext of a 16 B sub-block of a stored block whose ciphertext reads back changed: key generation of the stack,
address, plaintext as written, ciphertext difference (R268: AES-256-XTS) (log 93). -/
opaque xtsFlip : Nat → Nat → Nat → Nat → Nat
/-- Band value of the delay tap of a lane group in the commissioning table: die, band, tap index (R184) (log 66). -/
opaque bandTap : Nat → Nat
/-- The 8 B descriptor of a note in its swell, of which the spec gives no layout: destination word or reply record,
sending tile, role, epoch, bytes, whether it is a reply (R208) (log 34). -/
opaque noteDescr : Nat → Nat → Nat → Nat → Nat → Bool → Nat
/-- The value that a test of a Squall drill takes from one output of its Philox stream: the output's words, and the test
(0 drop, 1 corrupt, 2 reorder, 3 the bit inverted): R342 does not say which bits are used (log 36). -/
opaque squallPick : List Nat → Nat → Nat
/-- The two fixed neighbours of a sensor of a die, by fuse index and sensor: the spec does not say which sensors of a
die are nearest (R447) (log 42). -/
opaque neighbours : Nat → Nat → Nat × Nat
/-- The 32 B SHAKE256 digest of a byte string, uninterpreted (log 6). -/
opaque digest : List (BitVec 8) → BitVec 256
/-- The 29,792 B signature of a byte string under the identity key, uninterpreted (log 6). -/
opaque signature : List (BitVec 8) → BitVec 238336
/-- The identity public key and the device certificate's signature, made at manufacture (log 6). -/
opaque publicKey : BitVec 512
opaque certificate : BitVec 238336

end Sys2Proof.Config
end

