-- ==== Sys2Proof/Machine/Float.lean ====
section
/-! DEFINITION. Number formats and arithmetic (02_number_formats.md): decoding, exact values,
rounding, overflow, flags. Element codes are natural numbers; a finite value is sign, magnitude
and a power of two. -/
namespace Sys2Proof.Machine

/-- How a format spells NaN. -/
inductive NanKind where
  | ieee | e4m3 | absent
deriving DecidableEq, Repr

/-- A floating-point layout (Table 2-2). -/
structure FFmt where
  ebits : Nat
  mbits : Nat
  bias : Nat
  maxCode : Nat
  inf : Option Nat
  nan : Option Nat
  kind : NanKind
deriving DecidableEq, Repr

def fp32 : FFmt := ⟨8, 23, 127, 0x7F7FFFFF, some 0x7F800000, some 0x7FC00000, .ieee⟩
def fp16 : FFmt := ⟨5, 10, 15, 0x7BFF, some 0x7C00, some 0x7E00, .ieee⟩
def bf16 : FFmt := ⟨8, 7, 127, 0x7F7F, some 0x7F80, some 0x7FC0, .ieee⟩
def e4m3 : FFmt := ⟨4, 3, 7, 0x7E, none, some 0x7F, .e4m3⟩
def e5m2 : FFmt := ⟨5, 2, 15, 0x7B, some 0x7C, some 0x7E, .ieee⟩
def e3m2 : FFmt := ⟨3, 2, 3, 0x1F, none, none, .absent⟩
def e2m3 : FFmt := ⟨2, 3, 1, 0x1F, none, none, .absent⟩
def e2m1 : FFmt := ⟨2, 1, 1, 0x7, none, none, .absent⟩

/-- The floating-point layout a format code names (Table 2-1). -/
def fmtOf (c : Nat) : Option FFmt :=
  match c with
  | 0 => some fp32 | 1 => some fp16 | 2 => some bf16 | 3 => some e4m3
  | 4 => some e5m2 | 5 => some e3m2 | 6 => some e2m3 | 7 => some e2m1
  | _ => none

/-- Bits per element (Table 2-1); 0 for a reserved code. -/
def fmtBits (c : Nat) : Nat :=
  match c with
  | 0 => 32 | 1 => 16 | 2 => 16 | 3 => 8 | 4 => 8 | 5 => 6 | 6 => 6 | 7 => 4
  | 8 => 8 | 9 => 4 | 10 => 4 | 11 => 3 | 12 => 8 | _ => 0

/-- A decoded value: NaN (signalling or not), infinity, or (−1)^s × m × 2^x. -/
inductive FVal where
  | nan (sig : Bool)
  | inf (s : Bool)
  | fin (s : Bool) (m : Nat) (x : Int)
deriving DecidableEq, Repr

/-- TSTAT flags of a result: NV bit 0, DZ 1, OF 2, UF 3, NX 4 (Table 3-4). -/
abbrev Flags := BitVec 5
def fNV : Flags := 1
def fDZ : Flags := 2
def fOF : Flags := 4
def fUF : Flags := 8
def fNX : Flags := 16

def FFmt.width (f : FFmt) : Nat := 1 + f.ebits + f.mbits
def FFmt.signBit (f : FFmt) : Nat := 2 ^ (f.ebits + f.mbits)

/-- Decode an element code (R25, R26, R27, R40). -/
def decodeF (f : FFmt) (code : Nat) : FVal :=
  let s := (code / f.signBit) % 2 == 1
  let mag := code % f.signBit
  let e := mag / 2 ^ f.mbits
  let m := mag % 2 ^ f.mbits
  match f.kind with
  | .ieee =>
    if e = 2 ^ f.ebits - 1 then
      if m = 0 then .inf s else .nan (m / 2 ^ (f.mbits - 1) % 2 == 0)
    else if e = 0 then .fin s m (1 - (f.bias : Int) - f.mbits)
    else .fin s (2 ^ f.mbits + m) ((e : Int) - f.bias - f.mbits)
  | .e4m3 =>
    if mag = 0x7F then .nan false
    else if e = 0 then .fin s m (1 - (f.bias : Int) - f.mbits)
    else .fin s (2 ^ f.mbits + m) ((e : Int) - f.bias - f.mbits)
  | .absent =>
    if e = 0 then .fin s m (1 - (f.bias : Int) - f.mbits)
    else .fin s (2 ^ f.mbits + m) ((e : Int) - f.bias - f.mbits)

/-- Rounding modes in force (Table 2-5). -/
inductive RMode where
  | rne | rtz | rdn | rup | sr
deriving DecidableEq, Repr

/-- Whether the truncated magnitude `n` (with discarded part `rem` of `2^sh`, and a nonzero tail
beyond when `tail`) rises by one (Table 2-5, R38). -/
def roundsUp (md : RMode) (u : Nat) (s : Bool) (n rem sh : Nat) (tail : Bool) : Bool :=
  let inex := rem != 0 || tail
  match md with
  | .rne => if 2 * rem > 2 ^ sh then true
            else if 2 * rem = 2 ^ sh && sh != 0 then (tail || n % 2 == 1) else false
  | .rtz => false
  | .rdn => s && inex
  | .rup => !s && inex
  | .sr => decide (65536 ≤ rem * 65536 / 2 ^ sh + u)

/-- Truncate `m × 2^x` to a multiple of `2^q`: quotient, remainder, shift. -/
def truncAt (m : Nat) (x q : Int) : Nat × Nat × Nat :=
  if q ≤ x then (m * 2 ^ (x - q).toNat, 0, 0)
  else let sh := (q - x).toNat; (m / 2 ^ sh, m % 2 ^ sh, sh)

/-- Attach the sign bit. -/
def FFmt.signed (f : FFmt) (s : Bool) (mag : Nat) : Nat := if s then f.signBit + mag else mag

/-- The result of an overflow of sign `s` (R43). -/
def overflowCode (f : FFmt) (md : RMode) (sat s : Bool) : Nat :=
  match f.inf with
  | none => f.signed s f.maxCode
  | some i =>
    if sat then f.signed s f.maxCode
    else match md with
      | .rne | .sr => f.signed s i
      | .rtz => f.signed s f.maxCode
      | .rdn => f.signed s (if s then i else f.maxCode)
      | .rup => f.signed s (if s then f.maxCode else i)

/-- Round the exact value (−1)^s × m × 2^x (plus a nonzero tail below it when `tail`) into `f`
(R37, R38, R43, R46, R47). `flush` is the denormal control, applied to FP32, FP16, BF16 only. -/
def roundF (f : FFmt) (md : RMode) (u : Nat) (sat flush : Bool) (s : Bool) (m : Nat) (x : Int)
    (tail : Bool) : Nat × Flags :=
  if m = 0 && !tail then (f.signed s 0, 0) else
  let emin : Int := 1 - (f.bias : Int)
  let e : Int := (Nat.log2 m : Int) + x
  let q : Int := (if e < emin then emin else e) - f.mbits
  let (n, rem, sh) := truncAt m x q
  let n' := if roundsUp md u s n rem sh tail then n + 1 else n
  let inex := rem != 0 || tail
  let code := (q + f.mbits + f.bias - 1).toNat * 2 ^ f.mbits + n'
  if code > f.maxCode then (overflowCode f md sat s, fOF ||| fNX) else
  -- tiny after rounding: the same rounding at an unbounded exponent stays below 2^emin (R47)
  let q2 : Int := e - f.mbits
  let (k, krem, ksh) := truncAt m x q2
  let k' := if roundsUp md u s k krem ksh tail then k + 1 else k
  let tiny := decide (e < emin) && !(decide (e + 1 = emin) && decide (k' = 2 ^ (f.mbits + 1)))
  if flush && f.width ≥ 16 && 0 < n' && n' < 2 ^ f.mbits && q = emin - f.mbits then
    (f.signed s 0, fUF ||| fNX)
  else (f.signed s code, (if inex then fNX else 0) ||| (if inex && tiny then fUF else 0))

/-- The canonical NaN, or +0 in a format without NaN (R40, R44). -/
def nanCode (f : FFmt) : Nat := f.nan.getD 0
/-- Infinity, or the maximum finite value in a format without infinity (R44). -/
def infCode (f : FFmt) (s : Bool) : Nat := f.signed s (f.inf.getD f.maxCode)

/-- Settings a rounding operation runs under: mode, saturation, flush (TCTL, RM). -/
structure FEnv where
  md : RMode
  sat : Bool
  flush : Bool
deriving DecidableEq, Repr

/-- Deliver a value in `f`, exactly rounded; NaN and infinity under R40 and R43. -/
def deliver (f : FFmt) (env : FEnv) (u : Nat) (v : FVal) : Nat × Flags :=
  match v with
  | .nan sig => (nanCode f, if sig then fNV else 0)
  | .inf s => (infCode f s, 0)
  | .fin s m x => roundF f env.md u env.sat env.flush s m x false

/-- Read an operand in the vector unit: subnormals read as zero under flush (R46). -/
def readF (f : FFmt) (flush : Bool) (code : Nat) : FVal :=
  match decodeF f code with
  | .fin s m x => if flush && f.width ≥ 16 && m < 2 ^ f.mbits then .fin s 0 x else .fin s m x
  | v => v

def FVal.isNan : FVal → Bool | .nan _ => true | _ => false
def FVal.isSig : FVal → Bool | .nan s => s | _ => false
def FVal.neg : FVal → FVal | .nan s => .nan s | .inf s => .inf !s | .fin s m x => .fin (!s) m x
def sigFlag (vs : List FVal) : Flags := if vs.any FVal.isSig then fNV else 0

/-- The signed magnitude of two finite values over their common exponent. -/
def alignSum (s1 : Bool) (m1 : Nat) (x1 : Int) (s2 : Bool) (m2 : Nat) (x2 : Int) : Int × Int :=
  let x := if x1 ≤ x2 then x1 else x2
  let a : Int := (m1 * 2 ^ (x1 - x).toNat : Nat)
  let b : Int := (m2 * 2 ^ (x2 - x).toNat : Nat)
  ((if s1 then -a else a) + (if s2 then -b else b), x)

/-- Exact sum before rounding; the sign of an exact zero sum follows R41. -/
def addV (md : RMode) (a b : FVal) : FVal × Flags :=
  match a, b with
  | .nan s, v => (.nan false, if s || v.isSig then fNV else 0)
  | v, .nan s => (.nan false, if s || v.isSig then fNV else 0)
  | .inf s, .inf t => if s = t then (.inf s, 0) else (.nan false, fNV)
  | .inf s, _ => (.inf s, 0)
  | _, .inf s => (.inf s, 0)
  | .fin s1 m1 x1, .fin s2 m2 x2 =>
    let (v, x) := alignSum s1 m1 x1 s2 m2 x2
    if v = 0 then
      (.fin (if m1 = 0 && m2 = 0 && s1 == s2 then s1 else md == .rdn) 0 x, 0)
    else (.fin (decide (v < 0)) v.natAbs x, 0)

/-- Exact product (R40, R41). -/
def mulV (a b : FVal) : FVal × Flags :=
  match a, b with
  | .nan s, v => (.nan false, if s || v.isSig then fNV else 0)
  | v, .nan s => (.nan false, if s || v.isSig then fNV else 0)
  | .inf s, .inf t => (.inf (s != t), 0)
  | .inf s, .fin t m _ => if m = 0 then (.nan false, fNV) else (.inf (s != t), 0)
  | .fin t m _, .inf s => if m = 0 then (.nan false, fNV) else (.inf (s != t), 0)
  | .fin s1 m1 x1, .fin s2 m2 x2 => (.fin (s1 != s2) (m1 * m2) (x1 + x2), 0)

/-- Integer square root of the value held in the top bits: structural on the bit count. -/
def isqrtGo (n : Nat) : Nat → Nat → Nat
  | 0, r => r
  | b + 1, r => let r' := r + 2 ^ b; isqrtGo n b (if r' * r' ≤ n then r' else r)
/-- ⌊√n⌋. -/
def isqrt (n : Nat) : Nat := isqrtGo n (Nat.log2 n / 2 + 1) 0

/-- Reciprocal of a nonzero finite value: magnitude, exponent and whether a tail is left. -/
def recipMag (m : Nat) (x : Int) : Nat × Int × Bool :=
  let k := Nat.log2 m + 64
  (2 ^ k / m, -(k : Int) - x, 2 ^ k % m != 0)

/-- Square root of a nonzero finite magnitude. -/
def sqrtMag (m : Nat) (x : Int) : Nat × Int × Bool :=
  let sh : Nat := if (x - 128) % 2 = 0 then 128 else 129
  let m' := m * 2 ^ sh
  let r := isqrt m'
  (r, (x - sh) / 2, r * r != m')

/-- Reciprocal square root of a nonzero finite magnitude, truncated. -/
def rsqrtMag (m : Nat) (x : Int) : Nat × Int × Bool :=
  -- 1/√(m·2^x) = √(2^k/m)·2^(-(x+k)/2) with x + k even
  let k0 := Nat.log2 m + 140
  let k : Nat := if (x + k0) % 2 = 0 then k0 else k0 + 1
  let q := 2 ^ k / m
  let r := isqrt q
  (r, -((x + k) / 2), !(decide (2 ^ k % m = 0) && decide (r * r = q)))

/-- Bits of √√…2: `2^(2^-i)` in units of 2^-96, truncated, for i = 1, 2, … -/
def exp2Consts : Nat → Nat → List Nat
  | 0, _ => []
  | n + 1, c => let r := isqrt (c * 2 ^ 96); r :: exp2Consts n r

/-- Product of the constants selected by the fraction's bits, truncated to units of 2^-96. -/
def exp2Prod : List Nat → Nat → Nat → Nat → Nat
  | [], _, _, acc => acc
  | c :: cs, f, b, acc => exp2Prod cs f (b - 1) (if f.testBit (b - 1) then acc * c / 2 ^ 96 else acc)

/-- 2 to a finite power, truncated: magnitude, exponent, and whether the result is inexact. -/
def exp2Mag (s : Bool) (m : Nat) (x : Int) : Nat × Int × Bool :=
  -- argument in units of 2^-72, floored
  let a : Int := if 0 ≤ x + 72 then (m * 2 ^ (x + 72).toNat : Nat) else (m / 2 ^ (-(x + 72)).toNat : Nat)
  let cut : Bool := if 0 ≤ x + 72 then false else m % 2 ^ (-(x + 72)).toNat != 0
  let a : Int := if s then -a - (if cut then 1 else 0) else a
  let i0 : Int := a / 2 ^ 72
  -- powers far outside every format's range stand for all others outside it
  let i : Int := if i0 < -100000 then -100000 else if 100000 < i0 then 100000 else i0
  let f : Nat := (a % 2 ^ 72).toNat
  if f = 0 && !cut then (1, i, false)
  else (exp2Prod (exp2Consts 72 (2 ^ 97)) f 72 (2 ^ 96), i - 96, true)

/-- The fraction bits of log2 of `v` in [1, 2), `v` in units of 2^-160, by repeated squaring. -/
def log2Frac : Nat → Nat → Nat → Nat
  | 0, _, acc => acc
  | n + 1, v, acc =>
    let w := v * v / 2 ^ 160
    if 2 ^ 161 ≤ w then log2Frac n (w / 2) (2 * acc + 1) else log2Frac n w (2 * acc)

/-- log2 of a nonzero finite magnitude: sign, magnitude, exponent, inexact. -/
def log2Mag (m : Nat) (x : Int) : Bool × Nat × Int × Bool :=
  let l := Nat.log2 m
  let e : Int := (l : Int) + x
  if m = 2 ^ l then (decide (e < 0), e.natAbs, 0, false) else
  let fr := log2Frac 72 (m * 2 ^ 160 / 2 ^ l) 0
  if 0 ≤ e then (false, e.toNat * 2 ^ 72 + fr, -72, true)
  else (true, e.natAbs * 2 ^ 72 - fr - 1, -72, true)

/-- A faithful result (R124): the exact result when it is representable (both neighbours are then it), otherwise one
of its two neighbours, which one being a fixed function of the operands that the spec leaves open. -/
def faithful (f : FFmt) (env : FEnv) (op a b : Nat) (s : Bool) (m : Nat) (x : Int) (inex : Bool) :
    Nat × Flags :=
  let far := roundF f (if s then .rdn else .rup) 0 env.sat env.flush s m x inex
  -- beyond the maximum finite value R43 applies, under RNE, the mode RM = 0 names
  if far.2 &&& fOF = fOF then roundF f .rne 0 env.sat env.flush s m x inex
  else if Config.faithfulUp op f.mbits a b then far
  else roundF f .rtz 0 env.sat env.flush s m x inex

/-- A total order key of non-NaN values: negative below positive, −0 below +0 (R40, Table 5-6). -/
def fkey (f : FFmt) (code : Nat) : Int :=
  let mag : Int := (code % f.signBit : Nat)
  if (code / f.signBit) % 2 = 1 then -mag - 1 else mag

/-- Numeric comparison key: −0 equal to +0. -/
def fkeyZ (f : FFmt) (code : Nat) : Int :=
  let mag : Int := (code % f.signBit : Nat)
  if (code / f.signBit) % 2 = 1 then -mag else mag

/-- The code of an operand after the flush rule, infinities and NaN unchanged (R46). -/
def flushCode (f : FFmt) (flush : Bool) (code : Nat) : Nat :=
  match readF f flush code with
  | .fin s 0 _ => f.signed s 0
  | _ => code

/-- Minimum or maximum under R40 and the zero rules of Table 5-6. -/
def minMaxF (f : FFmt) (flush : Bool) (isMax : Bool) (a b : Nat) : Nat × Flags :=
  let va := decodeF f a
  let vb := decodeF f b
  let a' := flushCode f flush a
  let b' := flushCode f flush b
  let fl := sigFlag [va, vb]
  if va.isNan && vb.isNan then (nanCode f, fl)
  else if va.isNan then (b', fl)
  else if vb.isNan then (a', fl)
  else if isMax then (if fkey f a' < fkey f b' then b' else a', fl)
  else (if fkey f b' < fkey f a' then b' else a', fl)

/-- Conversion of a decoded value into INT8 or INT4: rounded, clamped, NV when out of range or NaN;
NaN gives 0 (Table 2-6, log 7). -/
def toIntN (w : Nat) (md : RMode) (u : Nat) (v : FVal) : Nat × Flags :=
  let hi : Int := 2 ^ (w - 1) - 1
  let lo : Int := -(2 ^ (w - 1))
  let enc (i : Int) : Nat := (i % 2 ^ w).toNat
  match v with
  | .nan _ => (0, fNV)
  | .inf s => (enc (if s then lo else hi), fNV)
  | .fin s m x =>
    let (n, rem, sh) := truncAt m x 0
    let n' := if roundsUp md u s n rem sh false then n + 1 else n
    let i : Int := if s then -(n' : Int) else n'
    if hi < i then (enc hi, fNV) else if i < lo then (enc lo, fNV)
    else (enc i, if rem = 0 then 0 else fNX)

/-- Value of an integer element. -/
def intVal (w code : Nat) : FVal :=
  let i := sextN w code
  .fin (decide (i < 0)) i.natAbs 0

/-- E8M0 scale: `none` is NaN, otherwise the power of two (R29). -/
def e8m0 (x : Nat) : Option Int := if x % 256 = 255 then none else some ((x % 256 : Nat) - 127)

end Sys2Proof.Machine
end

