-- ==== Sys2Proof/Machine/Regs.lean ====
section
/-! DEFINITION. The register map of BAR0 and BAR4: every register, its places, and every field with
its access code, its reset value and the events it is kept across, from the register tables of the
spec's chapters (R4, R5). Each comment names the rule that precedes the register's table. -/
namespace Sys2Proof.Machine

/-- Register access codes (Table 0-1). -/
inductive Acc where
  | ro | rw | w1c | wo | rc | rwl
deriving DecidableEq, Repr

/-- A field of a register: register number, lowest bit, width. -/
structure Fld where
  reg : Nat
  lo : Nat
  wd : Nat
deriving DecidableEq, Repr

/-- A field's behaviour: lowest bit, width, access, reset value, kept-across mask (bit 0 POR, 1 MOD,
2 PORT, 3 DIE, 4 FWR, 5 DOL, 6 BEC: Table 0-2). -/
structure FldSpec where
  lo : Nat
  wd : Nat
  acc : Acc
  reset : Nat
  kept : Nat
deriving DecidableEq, Repr

/-- A run of instances: first instance, count, base address, outer stride, inner count, inner stride. -/
structure Seg where
  first : Nat
  n : Nat
  base : Nat
  stride : Nat
  sub : Nat
  subStride : Nat
deriving DecidableEq, Repr

/-- A register: its number, its places and its fields. BAR4 addresses stand at 0x1000_0000. -/
structure RegSpec where
  no : Nat
  segs : List Seg
  fields : List FldSpec
deriving DecidableEq, Repr

/-- GLB_MODULE_ID (R21, 01_module_anatomy.md). -/
def GLB_MODULE_ID : Nat := 1
def GLB_MODULE_ID_FAMILY : Fld := ⟨1, 0, 8⟩
def GLB_MODULE_ID_ASSY_REV : Fld := ⟨1, 8, 8⟩
def GLB_MODULE_ID_GRADE : Fld := ⟨1, 16, 2⟩
def GLB_MODULE_ID_OPT_MODE : Fld := ⟨1, 18, 1⟩
def GLB_MODULE_ID_GRADE_PENDING : Fld := ⟨1, 19, 1⟩
def GLB_MODULE_ID_SERIAL : Fld := ⟨1, 32, 32⟩
/-- HDL_ROWMAP (R81, 03_tile.md). -/
def HDL_ROWMAP : Nat := 2
def HDL_ROWMAP_FAILED : Fld := ⟨2, 0, 18⟩
def HDL_ROWMAP_SPARES_USED : Fld := ⟨2, 18, 2⟩
def HDL_ROWMAP_UNREPAIRED : Fld := ⟨2, 20, 1⟩
def HDL_ROWMAP_PENDING : Fld := ⟨2, 21, 1⟩
/-- HDL_BFAULT_LOG (R106, 04_bundle_encoding.md). -/
def HDL_BFAULT_LOG : Nat := 3
def HDL_BFAULT_LOG_TILE : Fld := ⟨3, 0, 8⟩
def HDL_BFAULT_LOG_PC : Fld := ⟨3, 8, 12⟩
def HDL_BFAULT_LOG_SLOT : Fld := ⟨3, 20, 3⟩
def HDL_BFAULT_LOG_CAUSE : Fld := ⟨3, 23, 4⟩
def HDL_BFAULT_LOG_VALID : Fld := ⟨3, 27, 1⟩
def HDL_BFAULT_LOG_MULTI : Fld := ⟨3, 28, 1⟩
def HDL_BFAULT_LOG_COUNT : Fld := ⟨3, 32, 16⟩
/-- HDL_BARSET (R160, 06_scalar_move_sync_ops.md). -/
def HDL_BARSET : Nat := 4
def HDL_BARSET_MEMBERS : Fld := ⟨4, 0, 64⟩
/-- TPL_STATUS (R188, 07_tidepool.md). -/
def TPL_STATUS : Nat := 5
def TPL_STATUS_STATE : Fld := ⟨5, 0, 3⟩
def TPL_STATUS_WIDTH : Fld := ⟨5, 3, 11⟩
def TPL_STATUS_SPARES_UP : Fld := ⟨5, 14, 6⟩
def TPL_STATUS_SPARES_DN : Fld := ⟨5, 20, 6⟩
def TPL_STATUS_CH_UP : Fld := ⟨5, 26, 16⟩
def TPL_STATUS_CH_DN : Fld := ⟨5, 42, 16⟩
def TPL_STATUS_CAL_BUSY : Fld := ⟨5, 58, 1⟩
def TPL_STATUS_LAST_CHECK : Fld := ⟨5, 59, 2⟩
/-- TPL_CTRL (R188, 07_tidepool.md). -/
def TPL_CTRL : Nat := 6
def TPL_CTRL_MOOR_LIMIT : Fld := ⟨6, 0, 4⟩
def TPL_CTRL_LOCK : Fld := ⟨6, 4, 1⟩
def TPL_CTRL_MIN_WIDTH : Fld := ⟨6, 16, 11⟩
/-- TPL_MAINT (R188, 07_tidepool.md). -/
def TPL_MAINT : Nat := 7
def TPL_MAINT_OP : Fld := ⟨7, 0, 3⟩
def TPL_MAINT_ALL : Fld := ⟨7, 3, 1⟩
def TPL_MAINT_INCL_MOORED : Fld := ⟨7, 4, 1⟩
def TPL_MAINT_GO : Fld := ⟨7, 5, 1⟩
def TPL_MAINT_BUSY : Fld := ⟨7, 6, 1⟩
def TPL_MAINT_REFUSED : Fld := ⟨7, 7, 1⟩
def TPL_MAINT_CODE : Fld := ⟨7, 8, 8⟩
/-- TPL_MAINT_RANGE (R188, 07_tidepool.md). -/
def TPL_MAINT_RANGE : Nat := 8
def TPL_MAINT_RANGE_FIRST_LINE : Fld := ⟨8, 0, 32⟩
def TPL_MAINT_RANGE_LINES : Fld := ⟨8, 32, 32⟩
/-- TPL_MAP (R179, 07_tidepool.md). -/
def TPL_MAP : Nat := 9
def TPL_MAP_WORD : Fld := ⟨9, 0, 64⟩
/-- TPL_MAPCHK (R188, 07_tidepool.md). -/
def TPL_MAPCHK : Nat := 10
def TPL_MAPCHK_TPL_CRC : Fld := ⟨10, 0, 32⟩
def TPL_MAPCHK_HDL_CRC : Fld := ⟨10, 32, 32⟩
/-- TPL_POISON_LOG (R188, 07_tidepool.md). -/
def TPL_POISON_LOG : Nat := 11
def TPL_POISON_LOG_LINE : Fld := ⟨11, 0, 32⟩
def TPL_POISON_LOG_CAUSE : Fld := ⟨11, 32, 2⟩
def TPL_POISON_LOG_VALID : Fld := ⟨11, 34, 1⟩
def TPL_POISON_LOG_MULTI : Fld := ⟨11, 35, 1⟩
def TPL_POISON_LOG_COUNT : Fld := ⟨11, 36, 16⟩
/-- TPL_THERM (R188, 07_tidepool.md). -/
def TPL_THERM : Nat := 12
def TPL_THERM_HDL_TEMP : Fld := ⟨12, 0, 8⟩
def TPL_THERM_TPL_TEMP : Fld := ⟨12, 8, 8⟩
def TPL_THERM_THR_REQ : Fld := ⟨12, 16, 2⟩
def TPL_THERM_TAP_BAND : Fld := ⟨12, 18, 4⟩
/-- TID_COUNTER (R213, 08_tide_schedule.md). -/
def TID_COUNTER : Nat := 13
def TID_COUNTER_TICKS : Fld := ⟨13, 0, 64⟩
/-- TID_WALL (R213, 08_tide_schedule.md). -/
def TID_WALL : Nat := 14
def TID_WALL_TICKS : Fld := ⟨14, 0, 64⟩
/-- TID_STATUS (R213, 08_tide_schedule.md). -/
def TID_STATUS : Nat := 15
def TID_STATUS_THROTTLE : Fld := ⟨15, 0, 3⟩
def TID_STATUS_PWR_MODE : Fld := ⟨15, 3, 1⟩
def TID_STATUS_OPT_MODE : Fld := ⟨15, 4, 1⟩
def TID_STATUS_IDLE_NOW : Fld := ⟨15, 5, 1⟩
def TID_STATUS_IDLE_NEXT : Fld := ⟨15, 6, 1⟩
/-- TID_SWAP (R213, 08_tide_schedule.md). -/
def TID_SWAP : Nat := 16
def TID_SWAP_HDL : Fld := ⟨16, 0, 24⟩
def TID_SWAP_SHG : Fld := ⟨16, 32, 16⟩
def TID_SWAP_HRB : Fld := ⟨16, 48, 1⟩
def TID_SWAP_TURN : Fld := ⟨16, 49, 1⟩
def TID_SWAP_GO : Fld := ⟨16, 50, 1⟩
def TID_SWAP_PENDING : Fld := ⟨16, 51, 1⟩
def TID_SWAP_REFUSED : Fld := ⟨16, 52, 1⟩
/-- TID_LOAD (R213, 08_tide_schedule.md). -/
def TID_LOAD : Nat := 17
def TID_LOAD_STATION : Fld := ⟨17, 0, 8⟩
def TID_LOAD_BUF : Fld := ⟨17, 8, 1⟩
def TID_LOAD_GO : Fld := ⟨17, 9, 1⟩
def TID_LOAD_BUSY : Fld := ⟨17, 10, 1⟩
def TID_LOAD_CODE : Fld := ⟨17, 11, 8⟩
def TID_LOAD_BAD_ENTRY : Fld := ⟨17, 19, 18⟩
/-- TID_LOAD_ADDR (R213, 08_tide_schedule.md). -/
def TID_LOAD_ADDR : Nat := 18
def TID_LOAD_ADDR_ADDR : Fld := ⟨18, 0, 41⟩
/-- STN_TIDE (R214, 08_tide_schedule.md). -/
def STN_TIDE : Nat := 19
def STN_TIDE_ACTIVE : Fld := ⟨19, 0, 1⟩
def STN_TIDE_VALID_A : Fld := ⟨19, 1, 1⟩
def STN_TIDE_VALID_B : Fld := ⟨19, 2, 1⟩
def STN_TIDE_SYNCED : Fld := ⟨19, 3, 1⟩
def STN_TIDE_MISSED_TX : Fld := ⟨19, 16, 16⟩
def STN_TIDE_FEC_RX : Fld := ⟨19, 32, 16⟩
def STN_TIDE_MAKEUP_TO : Fld := ⟨19, 48, 16⟩
/-- HRN_STATUS (R237, 09_harene_crossbar.md). -/
def HRN_STATUS : Nat := 20
def HRN_STATUS_SPARES_PERM : Fld := ⟨20, 0, 8⟩
def HRN_STATUS_CAREENING : Fld := ⟨20, 8, 8⟩
def HRN_STATUS_DARK : Fld := ⟨20, 16, 8⟩
def HRN_STATUS_SWITCH_PEND : Fld := ⟨20, 24, 1⟩
/-- HRN_CTRL (R237, 09_harene_crossbar.md). -/
def HRN_CTRL : Nat := 21
def HRN_CTRL_CAREEN_EN : Fld := ⟨21, 0, 1⟩
def HRN_CTRL_CAREEN_MAX : Fld := ⟨21, 1, 8⟩
/-- HRN_SWITCH (R237, 09_harene_crossbar.md). -/
def HRN_SWITCH : Nat := 22
def HRN_SWITCH_EFFECT : Fld := ⟨22, 0, 64⟩
/-- HRN_BMAP (R237, 09_harene_crossbar.md). -/
def HRN_BMAP : Nat := 23
def HRN_BMAP_SPARE_FOR : Fld := ⟨23, 0, 4⟩
def HRN_BMAP_SPARE_USE : Fld := ⟨23, 4, 2⟩
def HRN_BMAP_FAILED : Fld := ⟨23, 6, 16⟩
def HRN_BMAP_DARK : Fld := ⟨23, 22, 1⟩
def HRN_BMAP_SKIP_CAL : Fld := ⟨23, 23, 1⟩
def HRN_BMAP_STATION : Fld := ⟨23, 24, 8⟩
def HRN_BMAP_LOCAL : Fld := ⟨23, 32, 2⟩
/-- HRN_BERR (R237, 09_harene_crossbar.md). -/
def HRN_BERR : Nat := 24
def HRN_BERR_CORR : Fld := ⟨24, 0, 24⟩
def HRN_BERR_FAILED : Fld := ⟨24, 24, 16⟩
def HRN_BERR_MISSED_TX : Fld := ⟨24, 40, 16⟩
/-- STN_HRN (R237, 09_harene_crossbar.md). -/
def STN_HRN : Nat := 25
def STN_HRN_HDR_BAD : Fld := ⟨25, 0, 16⟩
def STN_HRN_NO_REPORT : Fld := ⟨25, 16, 16⟩
def STN_HRN_BEACON_LOST : Fld := ⟨25, 32, 16⟩
def STN_HRN_MAP_MISS : Fld := ⟨25, 48, 8⟩
/-- HRN_SRC (R258, 10_light_and_calibration.md). -/
def HRN_SRC : Nat := 26
def HRN_SRC_STATE : Fld := ⟨26, 0, 4⟩
def HRN_SRC_POSITION : Fld := ⟨26, 4, 5⟩
def HRN_SRC_WARN : Fld := ⟨26, 9, 1⟩
def HRN_SRC_SWAP_DUE : Fld := ⟨26, 10, 1⟩
def HRN_SRC_UNSPARED : Fld := ⟨26, 11, 1⟩
def HRN_SRC_FADE : Fld := ⟨26, 16, 16⟩
def HRN_SRC_LIT_HOURS : Fld := ⟨26, 32, 24⟩
/-- HRN_LS_CTRL (R258, 10_light_and_calibration.md). -/
def HRN_LS_CTRL : Nat := 27
def HRN_LS_CTRL_PREHEAT_EN : Fld := ⟨27, 0, 1⟩
def HRN_LS_CTRL_SWAP_EN : Fld := ⟨27, 1, 1⟩
def HRN_LS_CTRL_PREHEAT_NOW : Fld := ⟨27, 2, 1⟩
/-- HRN_OPTSEL (R258, 10_light_and_calibration.md). -/
def HRN_OPTSEL : Nat := 28
def HRN_OPTSEL_BRISK_OK : Fld := ⟨28, 0, 1⟩
def HRN_OPTSEL_FORCE_CALM : Fld := ⟨28, 1, 1⟩
def HRN_OPTSEL_CALM_WHY : Fld := ⟨28, 2, 2⟩
/-- HRN_RINGCAL (R258, 10_light_and_calibration.md). -/
def HRN_RINGCAL : Nat := 29
def HRN_RINGCAL_CAL_BUSY : Fld := ⟨29, 0, 1⟩
def HRN_RINGCAL_RATE_TRIP : Fld := ⟨29, 1, 1⟩
def HRN_RINGCAL_LOCK_LOST : Fld := ⟨29, 16, 16⟩
def HRN_RINGCAL_RECALS : Fld := ⟨29, 32, 16⟩
/-- HRN_PORTLIGHT (R258, 10_light_and_calibration.md). -/
def HRN_PORTLIGHT : Nat := 30
def HRN_PORTLIGHT_OPEN : Fld := ⟨30, 0, 10⟩
def HRN_PORTLIGHT_OFF : Fld := ⟨30, 10, 10⟩
/-- HRN_CART (R258, 10_light_and_calibration.md). -/
def HRN_CART : Nat := 31
def HRN_CART_SERIAL : Fld := ⟨31, 0, 32⟩
def HRN_CART_CART_REV : Fld := ⟨31, 32, 8⟩
def HRN_CART_PRESENT : Fld := ⟨31, 40, 1⟩
def HRN_CART_INTERLOCK : Fld := ⟨31, 41, 1⟩
def HRN_CART_COMMISSIONED : Fld := ⟨31, 42, 1⟩
/-- SHG_STATUS (R277, 11_hbm_shingle.md). -/
def SHG_STATUS : Nat := 32
def SHG_STATUS_STATE : Fld := ⟨32, 0, 3⟩
def SHG_STATUS_REFRESH : Fld := ⟨32, 3, 2⟩
def SHG_STATUS_TEMP : Fld := ⟨32, 5, 8⟩
def SHG_STATUS_THR_REQ : Fld := ⟨32, 13, 3⟩
def SHG_STATUS_SERVICE : Fld := ⟨32, 16, 1⟩
/-- SHG_CTRL (R277, 11_hbm_shingle.md). -/
def SHG_CTRL : Nat := 33
def SHG_CTRL_SCRUB_HOURS : Fld := ⟨33, 0, 8⟩
/-- SHG_SCRUB (R277, 11_hbm_shingle.md). -/
def SHG_SCRUB : Nat := 34
def SHG_SCRUB_POS : Fld := ⟨34, 0, 37⟩
def SHG_SCRUB_PASSES : Fld := ⟨34, 48, 16⟩
/-- SHG_ECC (R277, 11_hbm_shingle.md). -/
def SHG_ECC : Nat := 35
def SHG_ECC_CORR_DIE : Fld := ⟨35, 0, 24⟩
def SHG_ECC_CORR_SHG : Fld := ⟨35, 24, 24⟩
def SHG_ECC_UNCORR : Fld := ⟨35, 48, 16⟩
/-- SHG_ERRLOG (R277, 11_hbm_shingle.md). -/
def SHG_ERRLOG : Nat := 36
def SHG_ERRLOG_OFFSET : Fld := ⟨36, 0, 37⟩
def SHG_ERRLOG_CAUSE : Fld := ⟨36, 37, 3⟩
def SHG_ERRLOG_STATION : Fld := ⟨36, 40, 8⟩
def SHG_ERRLOG_VALID : Fld := ⟨36, 48, 1⟩
def SHG_ERRLOG_MULTI : Fld := ⟨36, 49, 1⟩
def SHG_ERRLOG_COUNT : Fld := ⟨36, 50, 8⟩
/-- TID_EPOCH (R296, 12_die_roles.md). -/
def TID_EPOCH : Nat := 37
def TID_EPOCH_EPOCH : Fld := ⟨37, 0, 16⟩
/-- TID_TURN (R296, 12_die_roles.md). -/
def TID_TURN : Nat := 38
def TID_TURN_CAUSE : Fld := ⟨38, 0, 3⟩
def TID_TURN_RANK : Fld := ⟨38, 8, 8⟩
/-- TID_ROLE (R296, 12_die_roles.md). -/
def TID_ROLE : Nat := 39
def TID_ROLE_ROLE : Fld := ⟨39, 0, 3⟩
def TID_ROLE_SLOT : Fld := ⟨39, 3, 5⟩
def TID_ROLE_SINCE : Fld := ⟨39, 8, 16⟩
def TID_ROLE_PREV_ROLE : Fld := ⟨39, 24, 3⟩
def TID_ROLE_PREV_SLOT : Fld := ⟨39, 27, 5⟩
def TID_ROLE_PREV_SINCE : Fld := ⟨39, 32, 16⟩
def TID_ROLE_FWD_RANK : Fld := ⟨39, 48, 8⟩
/-- TID_ROLENEXT (R296, 12_die_roles.md). -/
def TID_ROLENEXT : Nat := 40
def TID_ROLENEXT_ROLE : Fld := ⟨40, 0, 3⟩
def TID_ROLENEXT_SLOT : Fld := ⟨40, 3, 5⟩
def TID_ROLENEXT_RESTART : Fld := ⟨40, 8, 1⟩
/-- TID_MROLE (R296, 12_die_roles.md). -/
def TID_MROLE : Nat := 41
def TID_MROLE_MROLE : Fld := ⟨41, 0, 3⟩
def TID_MROLE_FWD_RANK : Fld := ⟨41, 8, 8⟩
def TID_MROLE_MEPOCH : Fld := ⟨41, 16, 16⟩
/-- TID_MROLE_NEXT (R296, 12_die_roles.md). -/
def TID_MROLE_NEXT : Nat := 42
def TID_MROLE_NEXT_MROLE : Fld := ⟨42, 0, 3⟩
def TID_MROLE_NEXT_FWD_RANK : Fld := ⟨42, 8, 8⟩
def TID_MROLE_NEXT_GO : Fld := ⟨42, 16, 1⟩
def TID_MROLE_NEXT_PENDING : Fld := ⟨42, 17, 1⟩
/-- SMP_CTRL (R319, 13_speculation_sampling.md). -/
def SMP_CTRL : Nat := 43
def SMP_CTRL_TIMEOUT_CYC : Fld := ⟨43, 0, 8⟩
/-- SMP_STAT (R319, 13_speculation_sampling.md). -/
def SMP_STAT : Nat := 44
def SMP_STAT_BADREC : Fld := ⟨44, 0, 16⟩
def SMP_STAT_STALE : Fld := ⟨44, 16, 16⟩
def SMP_STAT_BADSRC : Fld := ⟨44, 32, 16⟩
def SMP_STAT_DUP : Fld := ⟨44, 48, 16⟩
/-- SMP_CTX (R319, 13_speculation_sampling.md). -/
def SMP_CTX : Nat := 45
def SMP_CTX_USED : Fld := ⟨45, 0, 11⟩
def SMP_CTX_FULL : Fld := ⟨45, 16, 16⟩
def SMP_CTX_NUMERIC : Fld := ⟨45, 32, 16⟩
/-- SMP_CFG (R319, 13_speculation_sampling.md). -/
def SMP_CFG : Nat := 46
def SMP_CFG_ENABLE : Fld := ⟨46, 0, 1⟩
def SMP_CFG_PEN_EN : Fld := ⟨46, 1, 1⟩
def SMP_CFG_TOPK : Fld := ⟨46, 2, 9⟩
def SMP_CFG_PEN_WIN : Fld := ⟨46, 11, 11⟩
def SMP_CFG_OUT_RING : Fld := ⟨46, 22, 6⟩
def SMP_CFG_OUT_HOST : Fld := ⟨46, 28, 1⟩
def SMP_CFG_MAX_TOKENS : Fld := ⟨46, 32, 32⟩
/-- SMP_TEMP (R319, 13_speculation_sampling.md). -/
def SMP_TEMP : Nat := 47
def SMP_TEMP_TEMP : Fld := ⟨47, 0, 32⟩
def SMP_TEMP_REP_PEN : Fld := ⟨47, 32, 32⟩
/-- SMP_TRUNC (R319, 13_speculation_sampling.md). -/
def SMP_TRUNC : Nat := 48
def SMP_TRUNC_TOP_P : Fld := ⟨48, 0, 32⟩
def SMP_TRUNC_MIN_P : Fld := ⟨48, 32, 32⟩
/-- SMP_SEED (R319, 13_speculation_sampling.md). -/
def SMP_SEED : Nat := 49
def SMP_SEED_SEED : Fld := ⟨49, 0, 64⟩
/-- SMP_STOP (R319, 13_speculation_sampling.md). -/
def SMP_STOP : Nat := 50
def SMP_STOP_STOP0 : Fld := ⟨50, 0, 32⟩
def SMP_STOP_STOP1 : Fld := ⟨50, 32, 32⟩
/-- SMP_POS (R319, 13_speculation_sampling.md). -/
def SMP_POS : Nat := 51
def SMP_POS_POS : Fld := ⟨51, 0, 64⟩
/-- SMP_SEQ (R319, 13_speculation_sampling.md). -/
def SMP_SEQ : Nat := 52
def SMP_SEQ_SEQ : Fld := ⟨52, 0, 64⟩
/-- SMP_STATE (R319, 13_speculation_sampling.md). -/
def SMP_STATE : Nat := 53
def SMP_STATE_STATE : Fld := ⟨53, 0, 2⟩
def SMP_STATE_OPEN : Fld := ⟨53, 2, 1⟩
def SMP_STATE_RING_STALL : Fld := ⟨53, 3, 1⟩
def SMP_STATE_CODE : Fld := ⟨53, 4, 8⟩
def SMP_STATE_STEP : Fld := ⟨53, 16, 32⟩
/-- SMP_HIST (R319, 13_speculation_sampling.md). -/
def SMP_HIST : Nat := 54
def SMP_HIST_TOKEN0 : Fld := ⟨54, 0, 32⟩
def SMP_HIST_TOKEN1 : Fld := ⟨54, 32, 32⟩
/-- FAB_CTRL (R345, 14_rack_fabric.md). -/
def FAB_CTRL : Nat := 55
def FAB_CTRL_NODE_ID : Fld := ⟨55, 0, 6⟩
def FAB_CTRL_NODE_VALID : Fld := ⟨55, 6, 1⟩
def FAB_CTRL_LOCK : Fld := ⟨55, 7, 1⟩
def FAB_CTRL_DETOUR_TO : Fld := ⟨55, 8, 8⟩
def FAB_CTRL_PLANE_TRIP : Fld := ⟨55, 16, 8⟩
/-- FAB_PLANE (R345, 14_rack_fabric.md). -/
def FAB_PLANE : Nat := 56
def FAB_PLANE_STATE : Fld := ⟨56, 0, 2⟩
def FAB_PLANE_DISABLE : Fld := ⟨56, 2, 1⟩
def FAB_PLANE_DOWN_CAUSE : Fld := ⟨56, 3, 3⟩
def FAB_PLANE_DETOURS : Fld := ⟨56, 8, 16⟩
def FAB_PLANE_CRC_ERR : Fld := ⟨56, 24, 16⟩
def FAB_PLANE_MALFORMED : Fld := ⟨56, 40, 16⟩
/-- FAB_NODE (R345, 14_rack_fabric.md). -/
def FAB_NODE : Nat := 57
def FAB_NODE_STATE : Fld := ⟨57, 0, 2⟩
def FAB_NODE_PLANE_MASK : Fld := ⟨57, 8, 8⟩
/-- FAB_RANK (R345, 14_rack_fabric.md). -/
def FAB_RANK : Nat := 58
def FAB_RANK_NODE : Fld := ⟨58, 0, 6⟩
def FAB_RANK_VALID : Fld := ⟨58, 7, 1⟩
def FAB_RANK_PLANE_MASK : Fld := ⟨58, 8, 8⟩
/-- FAB_FLOW0 (R345, 14_rack_fabric.md). -/
def FAB_FLOW0 : Nat := 59
def FAB_FLOW0_OPEN : Fld := ⟨59, 0, 1⟩
def FAB_FLOW0_RANK : Fld := ⟨59, 1, 8⟩
def FAB_FLOW0_HOME : Fld := ⟨59, 9, 3⟩
def FAB_FLOW0_CUR_PLANE : Fld := ⟨59, 12, 3⟩
def FAB_FLOW0_DETOURED : Fld := ⟨59, 15, 1⟩
def FAB_FLOW0_PATH_EPOCH : Fld := ⟨59, 16, 8⟩
def FAB_FLOW0_ATTEMPT : Fld := ⟨59, 24, 3⟩
def FAB_FLOW0_FAILED : Fld := ⟨59, 27, 1⟩
def FAB_FLOW0_RETURN : Fld := ⟨59, 28, 1⟩
/-- FAB_FLOW1 (R345, 14_rack_fabric.md). -/
def FAB_FLOW1 : Nat := 60
def FAB_FLOW1_NEXT_SEQ : Fld := ⟨60, 0, 32⟩
def FAB_FLOW1_OUTSTANDING : Fld := ⟨60, 32, 11⟩
def FAB_FLOW1_DUP_ACK : Fld := ⟨60, 43, 16⟩
/-- FAB_DIRECT_CMD (R345, 14_rack_fabric.md). -/
def FAB_DIRECT_CMD : Nat := 61
def FAB_DIRECT_CMD_NODE : Fld := ⟨61, 0, 6⟩
def FAB_DIRECT_CMD_OP : Fld := ⟨61, 6, 2⟩
def FAB_DIRECT_CMD_AOP : Fld := ⟨61, 8, 3⟩
def FAB_DIRECT_CMD_W64 : Fld := ⟨61, 11, 1⟩
def FAB_DIRECT_CMD_LEN : Fld := ⟨61, 12, 9⟩
def FAB_DIRECT_CMD_GO : Fld := ⟨61, 21, 1⟩
def FAB_DIRECT_CMD_BUSY : Fld := ⟨61, 22, 1⟩
def FAB_DIRECT_CMD_CODE : Fld := ⟨61, 23, 8⟩
/-- FAB_DIRECT_OFF (R345, 14_rack_fabric.md). -/
def FAB_DIRECT_OFF : Nat := 62
def FAB_DIRECT_OFF_OFFSET : Fld := ⟨62, 0, 46⟩
/-- FAB_DIRECT_BUF (R345, 14_rack_fabric.md). -/
def FAB_DIRECT_BUF : Nat := 63
def FAB_DIRECT_BUF_ADDR : Fld := ⟨63, 0, 41⟩
/-- FAB_SQUALL_CTRL (R345, 14_rack_fabric.md). -/
def FAB_SQUALL_CTRL : Nat := 64
def FAB_SQUALL_CTRL_EN : Fld := ⟨64, 0, 1⟩
def FAB_SQUALL_CTRL_TARGET : Fld := ⟨64, 1, 2⟩
def FAB_SQUALL_CTRL_PORTS : Fld := ⟨64, 3, 8⟩
def FAB_SQUALL_CTRL_DURATION_MS : Fld := ⟨64, 11, 16⟩
/-- FAB_SQUALL_RATE (R345, 14_rack_fabric.md). -/
def FAB_SQUALL_RATE : Nat := 65
def FAB_SQUALL_RATE_DROP : Fld := ⟨65, 0, 16⟩
def FAB_SQUALL_RATE_CORRUPT : Fld := ⟨65, 16, 16⟩
def FAB_SQUALL_RATE_REORDER : Fld := ⟨65, 32, 16⟩
def FAB_SQUALL_RATE_DELAY : Fld := ⟨65, 48, 6⟩
/-- FAB_SQUALL_SEED (R345, 14_rack_fabric.md). -/
def FAB_SQUALL_SEED : Nat := 66
def FAB_SQUALL_SEED_SEED : Fld := ⟨66, 0, 64⟩
/-- FAB_SQUALL_CNT (R345, 14_rack_fabric.md). -/
def FAB_SQUALL_CNT : Nat := 67
def FAB_SQUALL_CNT_DROPPED : Fld := ⟨67, 0, 21⟩
def FAB_SQUALL_CNT_CORRUPTED : Fld := ⟨67, 21, 21⟩
def FAB_SQUALL_CNT_REORDERED : Fld := ⟨67, 42, 21⟩
/-- FAB_REQLOG (R368, 15_fabric_memory_semantics.md). -/
def FAB_REQLOG : Nat := 68
def FAB_REQLOG_FADDR : Fld := ⟨68, 0, 52⟩
def FAB_REQLOG_CODE : Fld := ⟨68, 52, 8⟩
def FAB_REQLOG_VALID : Fld := ⟨68, 60, 1⟩
def FAB_REQLOG_MULTI : Fld := ⟨68, 61, 1⟩
def FAB_REQLOG_LATE : Fld := ⟨68, 62, 1⟩
/-- FAB_REQLOG_INFO (R368, 15_fabric_memory_semantics.md). -/
def FAB_REQLOG_INFO : Nat := 69
def FAB_REQLOG_INFO_FLOW : Fld := ⟨69, 0, 12⟩
def FAB_REQLOG_INFO_RANK : Fld := ⟨69, 12, 8⟩
def FAB_REQLOG_INFO_STATION : Fld := ⟨69, 20, 8⟩
def FAB_REQLOG_INFO_TILE : Fld := ⟨69, 28, 8⟩
def FAB_REQLOG_INFO_COUNT : Fld := ⟨69, 36, 16⟩
/-- FAB_TGTLOG (R368, 15_fabric_memory_semantics.md). -/
def FAB_TGTLOG : Nat := 70
def FAB_TGTLOG_OFFSET : Fld := ⟨70, 0, 46⟩
def FAB_TGTLOG_SRC_NODE : Fld := ⟨70, 46, 6⟩
def FAB_TGTLOG_CODE : Fld := ⟨70, 52, 8⟩
def FAB_TGTLOG_VALID : Fld := ⟨70, 60, 1⟩
def FAB_TGTLOG_MULTI : Fld := ⟨70, 61, 1⟩
/-- FAB_TGTLOG_INFO (R368, 15_fabric_memory_semantics.md). -/
def FAB_TGTLOG_INFO : Nat := 71
def FAB_TGTLOG_INFO_FLOW : Fld := ⟨71, 0, 12⟩
def FAB_TGTLOG_INFO_TYPE : Fld := ⟨71, 12, 4⟩
def FAB_TGTLOG_INFO_COUNT : Fld := ⟨71, 16, 16⟩
def FAB_TGTLOG_INFO_REQ_ID : Fld := ⟨71, 32, 16⟩
/-- FAB_ATOM (R368, 15_fabric_memory_semantics.md). -/
def FAB_ATOM : Nat := 72
def FAB_ATOM_ENTRIES : Fld := ⟨72, 0, 13⟩
def FAB_ATOM_HITS : Fld := ⟨72, 16, 16⟩
def FAB_ATOM_FULL : Fld := ⟨72, 32, 16⟩
def FAB_ATOM_STALE : Fld := ⟨72, 48, 16⟩
/-- FAB_TEAR (R368, 15_fabric_memory_semantics.md). -/
def FAB_TEAR : Nat := 73
def FAB_TEAR_REASON : Fld := ⟨73, 0, 2⟩
def FAB_TEAR_NODE : Fld := ⟨73, 2, 6⟩
def FAB_TEAR_VALID : Fld := ⟨73, 8, 1⟩
def FAB_TEAR_QUIET : Fld := ⟨73, 9, 1⟩
def FAB_TEAR_COUNT : Fld := ⟨73, 16, 16⟩
/-- FAB_REPL0 (R368, 15_fabric_memory_semantics.md). -/
def FAB_REPL0 : Nat := 74
def FAB_REPL0_VALID : Fld := ⟨74, 0, 1⟩
def FAB_REPL0_HELD : Fld := ⟨74, 1, 1⟩
def FAB_REPL0_RANK : Fld := ⟨74, 2, 8⟩
def FAB_REPL0_BASE : Fld := ⟨74, 16, 25⟩
def FAB_REPL0_PAGES : Fld := ⟨74, 41, 16⟩
/-- FAB_REPL1 (R368, 15_fabric_memory_semantics.md). -/
def FAB_REPL1 : Nat := 75
def FAB_REPL1_NODES : Fld := ⟨75, 0, 48⟩
def FAB_REPL1_COUNT : Fld := ⟨75, 48, 4⟩
/-- GLB_HOSTCFG (R391, 16_host_ports_ferry.md). -/
def GLB_HOSTCFG : Nat := 76
def GLB_HOSTCFG_OWNER_VALID : Fld := ⟨76, 0, 1⟩
def GLB_HOSTCFG_OWNER : Fld := ⟨76, 1, 1⟩
def GLB_HOSTCFG_DUAL : Fld := ⟨76, 2, 1⟩
def GLB_HOSTCFG_CLAIM : Fld := ⟨76, 3, 1⟩
def GLB_HOSTCFG_RELEASE : Fld := ⟨76, 4, 1⟩
def GLB_HOSTCFG_TAKEOVER : Fld := ⟨76, 5, 1⟩
def GLB_HOSTCFG_GUEST_EVT : Fld := ⟨76, 6, 1⟩
/-- GLB_PORT (R391, 16_host_ports_ferry.md). -/
def GLB_PORT : Nat := 77
def GLB_PORT_LINK_UP : Fld := ⟨77, 0, 1⟩
def GLB_PORT_SPEED : Fld := ⟨77, 1, 3⟩
def GLB_PORT_WIDTH : Fld := ⟨77, 4, 5⟩
def GLB_PORT_FLIT : Fld := ⟨77, 9, 1⟩
def GLB_PORT_RESETS : Fld := ⟨77, 16, 16⟩
/-- GLB_BAR2WIN (R391, 16_host_ports_ferry.md). -/
def GLB_BAR2WIN : Nat := 78
def GLB_BAR2WIN_WIN_BASE : Fld := ⟨78, 30, 11⟩
/-- GLB_HOSTLOG (R391, 16_host_ports_ferry.md). -/
def GLB_HOSTLOG : Nat := 79
def GLB_HOSTLOG_OFFSET : Fld := ⟨79, 0, 41⟩
def GLB_HOSTLOG_BAR : Fld := ⟨79, 41, 2⟩
def GLB_HOSTLOG_PORT : Fld := ⟨79, 43, 1⟩
def GLB_HOSTLOG_CODE : Fld := ⟨79, 44, 8⟩
def GLB_HOSTLOG_VALID : Fld := ⟨79, 52, 1⟩
def GLB_HOSTLOG_MULTI : Fld := ⟨79, 53, 1⟩
def GLB_HOSTLOG_COUNT : Fld := ⟨79, 54, 10⟩
/-- FRY_CFG (R392, 16_host_ports_ferry.md). -/
def FRY_CFG : Nat := 80
def FRY_CFG_ENABLE : Fld := ⟨80, 0, 1⟩
def FRY_CFG_PRIO : Fld := ⟨80, 1, 2⟩
def FRY_CFG_TRIG : Fld := ⟨80, 3, 2⟩
def FRY_CFG_SRC_CH : Fld := ⟨80, 5, 5⟩
def FRY_CFG_OWNER : Fld := ⟨80, 10, 6⟩
/-- FRY_RING (R392, 16_host_ports_ferry.md). -/
def FRY_RING : Nat := 81
def FRY_RING_BASE : Fld := ⟨81, 0, 41⟩
def FRY_RING_LOG2N : Fld := ⟨81, 41, 4⟩
/-- FRY_CQ (R392, 16_host_ports_ferry.md). -/
def FRY_CQ : Nat := 82
def FRY_CQ_SIDE : Fld := ⟨82, 0, 2⟩
def FRY_CQ_LOG2N : Fld := ⟨82, 2, 4⟩
def FRY_CQ_ADDR : Fld := ⟨82, 6, 58⟩
/-- FRY_IDX (R392, 16_host_ports_ferry.md). -/
def FRY_IDX : Nat := 83
def FRY_IDX_TAIL : Fld := ⟨83, 0, 16⟩
def FRY_IDX_HEAD : Fld := ⟨83, 16, 16⟩
def FRY_IDX_CQ_TAIL : Fld := ⟨83, 32, 16⟩
def FRY_IDX_CQ_HEAD : Fld := ⟨83, 48, 16⟩
/-- FRY_TIMER (R392, 16_host_ports_ferry.md). -/
def FRY_TIMER : Nat := 84
def FRY_TIMER_NEXT : Fld := ⟨84, 0, 64⟩
/-- FRY_PERIOD (R392, 16_host_ports_ferry.md). -/
def FRY_PERIOD : Nat := 85
def FRY_PERIOD_PERIOD : Fld := ⟨85, 0, 32⟩
/-- FRY_STAT (R392, 16_host_ports_ferry.md). -/
def FRY_STAT : Nat := 86
def FRY_STAT_STATE : Fld := ⟨86, 0, 2⟩
def FRY_STAT_CREDITS : Fld := ⟨86, 2, 8⟩
def FRY_STAT_CODE : Fld := ⟨86, 10, 8⟩
def FRY_STAT_OVER : Fld := ⟨86, 18, 16⟩
def FRY_STAT_CQ_STALL : Fld := ⟨86, 34, 1⟩
def FRY_STAT_CQ_LOST : Fld := ⟨86, 35, 1⟩
/-- MBX_DATA (R413, 17_rings_mailboxes.md). -/
def MBX_DATA : Nat := 87
def MBX_DATA_DATA : Fld := ⟨87, 0, 64⟩
/-- MBX_STAT (R413, 17_rings_mailboxes.md). -/
def MBX_STAT : Nat := 88
def MBX_STAT_FULL : Fld := ⟨88, 0, 1⟩
def MBX_STAT_TAKE : Fld := ⟨88, 1, 1⟩
def MBX_STAT_STAMP : Fld := ⟨88, 2, 6⟩
def MBX_STAT_CLASS : Fld := ⟨88, 8, 1⟩
def MBX_STAT_CODE : Fld := ⟨88, 9, 8⟩
def MBX_STAT_SENDS : Fld := ⟨88, 17, 8⟩
/-- RNG_CFG (R413, 17_rings_mailboxes.md). -/
def RNG_CFG : Nat := 89
def RNG_CFG_ENABLE : Fld := ⟨89, 0, 1⟩
def RNG_CFG_MODE : Fld := ⟨89, 1, 1⟩
def RNG_CFG_IRQ_EN : Fld := ⟨89, 2, 1⟩
def RNG_CFG_SQ_LOG2N : Fld := ⟨89, 3, 4⟩
def RNG_CFG_CQ_LOG2N : Fld := ⟨89, 7, 4⟩
def RNG_CFG_HB_TIMEOUT : Fld := ⟨89, 11, 10⟩
def RNG_CFG_RECLAIM : Fld := ⟨89, 21, 1⟩
def RNG_CFG_DISCARD : Fld := ⟨89, 22, 1⟩
/-- RNG_BASE (R413, 17_rings_mailboxes.md). -/
def RNG_BASE : Nat := 90
def RNG_BASE_BASE : Fld := ⟨90, 0, 41⟩
/-- RNG_IDX (R413, 17_rings_mailboxes.md). -/
def RNG_IDX : Nat := 91
def RNG_IDX_SQ_TAIL : Fld := ⟨91, 0, 16⟩
def RNG_IDX_SQ_HEAD : Fld := ⟨91, 16, 16⟩
def RNG_IDX_CQ_TAIL : Fld := ⟨91, 32, 16⟩
def RNG_IDX_CQ_HEAD : Fld := ⟨91, 48, 16⟩
/-- RNG_STAT (R413, 17_rings_mailboxes.md). -/
def RNG_STAT : Nat := 92
def RNG_STAT_STATE : Fld := ⟨92, 0, 2⟩
def RNG_STAT_CQ_STALL : Fld := ⟨92, 2, 1⟩
def RNG_STAT_CODE : Fld := ⟨92, 3, 8⟩
def RNG_STAT_HB_AGE : Fld := ⟨92, 11, 16⟩
def RNG_STAT_RUNNING : Fld := ⟨92, 27, 16⟩
def RNG_STAT_ERR_IDX : Fld := ⟨92, 43, 16⟩
/-- RNG_ORPHAN (R413, 17_rings_mailboxes.md). -/
def RNG_ORPHAN : Nat := 93
def RNG_ORPHAN_ORPHAN : Fld := ⟨93, 0, 64⟩
/-- MBX_BIND (R414, 17_rings_mailboxes.md). -/
def MBX_BIND : Nat := 94
def MBX_BIND_SENDER : Fld := ⟨94, 0, 6⟩
def MBX_BIND_RECEIVER : Fld := ⟨94, 6, 6⟩
def MBX_BIND_VALID : Fld := ⟨94, 12, 1⟩
/-- MBX_CTRL (R414, 17_rings_mailboxes.md). -/
def MBX_CTRL : Nat := 95
def MBX_CTRL_LOCK : Fld := ⟨95, 0, 1⟩
def MBX_CTRL_LATE : Fld := ⟨95, 1, 2⟩
/-- MBX_LOG (R414, 17_rings_mailboxes.md). -/
def MBX_LOG : Nat := 96
def MBX_LOG_CHANNEL : Fld := ⟨96, 0, 6⟩
def MBX_LOG_MASTER : Fld := ⟨96, 6, 6⟩
def MBX_LOG_CODE : Fld := ⟨96, 12, 8⟩
def MBX_LOG_VALID : Fld := ⟨96, 20, 1⟩
def MBX_LOG_MULTI : Fld := ⟨96, 21, 1⟩
def MBX_LOG_COUNT : Fld := ⟨96, 22, 16⟩
/-- GLB_RTLOAD (R431, 18_mousk_firmware.md). -/
def GLB_RTLOAD : Nat := 97
def GLB_RTLOAD_GO : Fld := ⟨97, 0, 1⟩
def GLB_RTLOAD_BUSY : Fld := ⟨97, 1, 1⟩
def GLB_RTLOAD_CODE : Fld := ⟨97, 2, 8⟩
def GLB_RTLOAD_SAME : Fld := ⟨97, 10, 1⟩
/-- GLB_RTLOAD_ADDR (R431, 18_mousk_firmware.md). -/
def GLB_RTLOAD_ADDR : Nat := 98
def GLB_RTLOAD_ADDR_ADDR : Fld := ⟨98, 0, 41⟩
/-- GLB_FWSTAT (R431, 18_mousk_firmware.md). -/
def GLB_FWSTAT : Nat := 99
def GLB_FWSTAT_ACTIVE_SUP : Fld := ⟨99, 0, 1⟩
def GLB_FWSTAT_BOOT_SLOT : Fld := ⟨99, 1, 1⟩
def GLB_FWSTAT_A_BAD : Fld := ⟨99, 2, 1⟩
def GLB_FWSTAT_B_BAD : Fld := ⟨99, 3, 1⟩
def GLB_FWSTAT_RT_LOADED : Fld := ⟨99, 4, 1⟩
def GLB_FWSTAT_PARKED : Fld := ⟨99, 5, 1⟩
def GLB_FWSTAT_SUP_DEAD : Fld := ⟨99, 6, 1⟩
def GLB_FWSTAT_MISMATCH : Fld := ⟨99, 7, 1⟩
/-- GLB_FWCORE (R431, 18_mousk_firmware.md). -/
def GLB_FWCORE : Nat := 100
def GLB_FWCORE_STATE : Fld := ⟨100, 0, 3⟩
def GLB_FWCORE_WDT_MS : Fld := ⟨100, 3, 10⟩
def GLB_FWCORE_LAST_CAUSE : Fld := ⟨100, 13, 3⟩
def GLB_FWCORE_RESTARTS : Fld := ⟨100, 16, 16⟩
def GLB_FWCORE_LAST_MS : Fld := ⟨100, 32, 16⟩
/-- GLB_SUPVER (R431, 18_mousk_firmware.md). -/
def GLB_SUPVER : Nat := 101
def GLB_SUPVER_VERSION : Fld := ⟨101, 0, 64⟩
/-- GLB_RTVER (R431, 18_mousk_firmware.md). -/
def GLB_RTVER : Nat := 102
def GLB_RTVER_VERSION : Fld := ⟨102, 0, 64⟩
/-- GLB_DRVVER (R431, 18_mousk_firmware.md). -/
def GLB_DRVVER : Nat := 103
def GLB_DRVVER_VERSION : Fld := ⟨103, 0, 64⟩
/-- PWR_IN (R455, 19_clocks_power_thermal.md). -/
def PWR_IN : Nat := 104
def PWR_IN_VOLTS : Fld := ⟨104, 0, 16⟩
def PWR_IN_AMPS : Fld := ⟨104, 16, 16⟩
def PWR_IN_WATTS : Fld := ⟨104, 32, 16⟩
def PWR_IN_I_LIM : Fld := ⟨104, 48, 16⟩
/-- PWR_STATE (R455, 19_clocks_power_thermal.md). -/
def PWR_STATE : Nat := 105
def PWR_STATE_STATE : Fld := ⟨105, 0, 3⟩
def PWR_STATE_WAKE_CAUSE : Fld := ⟨105, 3, 4⟩
/-- PWR_CTRL (R455, 19_clocks_power_thermal.md). -/
def PWR_CTRL : Nat := 106
def PWR_CTRL_REQ : Fld := ⟨106, 0, 2⟩
def PWR_CTRL_CODE : Fld := ⟨106, 2, 8⟩
def PWR_CTRL_HOST_LEVEL : Fld := ⟨106, 10, 3⟩
/-- PWR_THROTTLE (R455, 19_clocks_power_thermal.md). -/
def PWR_THROTTLE : Nat := 107
def PWR_THROTTLE_LEVEL : Fld := ⟨107, 0, 3⟩
def PWR_THROTTLE_CUR_REQ : Fld := ⟨107, 3, 3⟩
def PWR_THROTTLE_HDL_REQ : Fld := ⟨107, 6, 3⟩
def PWR_THROTTLE_TPL_REQ : Fld := ⟨107, 9, 3⟩
def PWR_THROTTLE_SHG_REQ : Fld := ⟨107, 12, 3⟩
def PWR_THROTTLE_HRB_REQ : Fld := ⟨107, 15, 3⟩
def PWR_THROTTLE_FLT_REQ : Fld := ⟨107, 18, 3⟩
def PWR_THROTTLE_CHANGES : Fld := ⟨107, 32, 16⟩
/-- PWR_CLK (R455, 19_clocks_power_thermal.md). -/
def PWR_CLK : Nat := 108
def PWR_CLK_REF_OK : Fld := ⟨108, 0, 1⟩
def PWR_CLK_CORE_LOCK : Fld := ⟨108, 1, 1⟩
def PWR_CLK_SER_LOCK : Fld := ⟨108, 2, 1⟩
def PWR_CLK_HBM_LOCK : Fld := ⟨108, 3, 1⟩
def PWR_CLK_UNLOCKS : Fld := ⟨108, 16, 16⟩
/-- THM_STN (R455, 19_clocks_power_thermal.md). -/
def THM_STN : Nat := 109
def THM_STN_GOV : Fld := ⟨109, 0, 8⟩
def THM_STN_OWN : Fld := ⟨109, 8, 8⟩
def THM_STN_EST : Fld := ⟨109, 16, 8⟩
def THM_STN_RING : Fld := ⟨109, 24, 8⟩
def THM_STN_FAST : Fld := ⟨109, 32, 1⟩
def THM_STN_SUSPECT : Fld := ⟨109, 33, 1⟩
def THM_STN_EXCLUDED : Fld := ⟨109, 34, 5⟩
def THM_STN_THR_REQ : Fld := ⟨109, 39, 3⟩
/-- HDL_CLK (R455, 19_clocks_power_thermal.md). -/
def HDL_CLK : Nat := 110
def HDL_CLK_STRETCHES : Fld := ⟨110, 0, 32⟩
def HDL_CLK_FULL_TICKS : Fld := ⟨110, 32, 16⟩
/-- FLT_STATUS (R473, 20_faults_breakwater.md). -/
def FLT_STATUS : Nat := 111
def FLT_STATUS_ABORT_KIND : Fld := ⟨111, 0, 8⟩
def FLT_STATUS_ABORTING : Fld := ⟨111, 8, 1⟩
def FLT_STATUS_FACTORY : Fld := ⟨111, 9, 1⟩
def FLT_STATUS_ABORTS : Fld := ⟨111, 32, 16⟩
def FLT_STATUS_QUARANTINES : Fld := ⟨111, 48, 16⟩
/-- FLT_QUEUE (R473, 20_faults_breakwater.md). -/
def FLT_QUEUE : Nat := 112
def FLT_QUEUE_HEAD : Fld := ⟨112, 0, 9⟩
def FLT_QUEUE_TAIL : Fld := ⟨112, 9, 9⟩
def FLT_QUEUE_FULL : Fld := ⟨112, 18, 1⟩
def FLT_QUEUE_LOST : Fld := ⟨112, 32, 16⟩
/-- FLT_INJ (R473, 20_faults_breakwater.md). -/
def FLT_INJ : Nat := 113
def FLT_INJ_KIND : Fld := ⟨113, 0, 8⟩
def FLT_INJ_STATION : Fld := ⟨113, 8, 8⟩
def FLT_INJ_UNIT : Fld := ⟨113, 16, 16⟩
def FLT_INJ_CLASS : Fld := ⟨113, 32, 2⟩
def FLT_INJ_GO : Fld := ⟨113, 34, 1⟩
def FLT_INJ_BWT_CH : Fld := ⟨113, 35, 3⟩
/-- FLT_KIND (R473, 20_faults_breakwater.md). -/
def FLT_KIND : Nat := 114
def FLT_KIND_N : Fld := ⟨114, 0, 16⟩
def FLT_KIND_W_MS : Fld := ⟨114, 16, 20⟩
def FLT_KIND_BASE : Fld := ⟨114, 36, 2⟩
def FLT_KIND_TOP : Fld := ⟨114, 38, 2⟩
def FLT_KIND_EVENTS : Fld := ⟨114, 40, 16⟩
/-- STN_FLT (R474, 20_faults_breakwater.md). -/
def STN_FLT : Nat := 115
def STN_FLT_NOTES : Fld := ⟨115, 0, 16⟩
def STN_FLT_DEGRADED : Fld := ⟨115, 16, 16⟩
def STN_FLT_SEVERE : Fld := ⟨115, 32, 16⟩
def STN_FLT_DROPPED : Fld := ⟨115, 48, 16⟩
/-- BWT_STATUS (R474, 20_faults_breakwater.md). -/
def BWT_STATUS : Nat := 116
def BWT_STATUS_CH_FAILED : Fld := ⟨116, 0, 3⟩
def BWT_STATUS_SAFE : Fld := ⟨116, 3, 1⟩
def BWT_STATUS_DISAGREE : Fld := ⟨116, 16, 16⟩
/-- BWT_TIGHTEN (R474, 20_faults_breakwater.md). -/
def BWT_TIGHTEN : Nat := 117
def BWT_TIGHTEN_HDL_TRIP : Fld := ⟨117, 0, 8⟩
def BWT_TIGHTEN_HBM_TRIP : Fld := ⟨117, 8, 8⟩
def BWT_TIGHTEN_HRB_TRIP : Fld := ⟨117, 16, 8⟩
def BWT_TIGHTEN_CUR_TRIP : Fld := ⟨117, 24, 8⟩
def BWT_TIGHTEN_LOCK : Fld := ⟨117, 40, 1⟩
/-- BWT_TRIP (R474, 20_faults_breakwater.md). -/
def BWT_TRIP : Nat := 118
def BWT_TRIP_CAUSE : Fld := ⟨118, 0, 4⟩
def BWT_TRIP_VOTES : Fld := ⟨118, 4, 3⟩
def BWT_TRIP_PENDING : Fld := ⟨118, 7, 1⟩
def BWT_TRIP_STATION : Fld := ⟨118, 8, 8⟩
def BWT_TRIP_VALUE : Fld := ⟨118, 16, 16⟩
def BWT_TRIP_HOURS : Fld := ⟨118, 32, 32⟩
/-- GLB_RESET (R494, 21_reset_and_retention.md). -/
def GLB_RESET : Nat := 119
def GLB_RESET_MOD : Fld := ⟨119, 0, 1⟩
def GLB_RESET_DIE : Fld := ⟨119, 1, 1⟩
def GLB_RESET_HOLD : Fld := ⟨119, 2, 1⟩
def GLB_RESET_KEY : Fld := ⟨119, 8, 8⟩
def GLB_RESET_STATION : Fld := ⟨119, 16, 8⟩
def GLB_RESET_CODE : Fld := ⟨119, 24, 8⟩
def GLB_RESET_LAST_CAUSE : Fld := ⟨119, 32, 4⟩
/-- GLB_DIERST (R494, 21_reset_and_retention.md). -/
def GLB_DIERST : Nat := 120
def GLB_DIERST_HDL : Fld := ⟨120, 0, 24⟩
def GLB_DIERST_SHG : Fld := ⟨120, 24, 16⟩
/-- GLB_POST (R494, 21_reset_and_retention.md). -/
def GLB_POST : Nat := 121
def GLB_POST_STATE : Fld := ⟨121, 0, 3⟩
def GLB_POST_HARBOUR : Fld := ⟨121, 3, 1⟩
def GLB_POST_HOLD : Fld := ⟨121, 4, 2⟩
def GLB_POST_ERR : Fld := ⟨121, 6, 4⟩
def GLB_POST_ERR_STATION : Fld := ⟨121, 10, 8⟩
def GLB_POST_HBM_READY : Fld := ⟨121, 18, 1⟩
def GLB_POST_FORM : Fld := ⟨121, 19, 1⟩
def GLB_POST_DURATION_MS : Fld := ⟨121, 32, 16⟩
/-- GLB_POST_RES (R494, 21_reset_and_retention.md). -/
def GLB_POST_RES : Nat := 122
def GLB_POST_RES_TILES : Fld := ⟨122, 0, 10⟩
def GLB_POST_RES_LANEGRP : Fld := ⟨122, 10, 11⟩
def GLB_POST_RES_WG : Fld := ⟨122, 21, 12⟩
def GLB_POST_RES_STACKS : Fld := ⟨122, 33, 5⟩
def GLB_POST_RES_SOURCES : Fld := ⟨122, 38, 5⟩
/-- GLB_CAPS (R494, 21_reset_and_retention.md). -/
def GLB_CAPS : Nat := 123
def GLB_CAPS_ENABLED : Fld := ⟨123, 0, 8⟩
/-- GLB_CAPLOG (R494, 21_reset_and_retention.md). -/
def GLB_CAPLOG : Nat := 124
def GLB_CAPLOG_REASON : Fld := ⟨124, 0, 2⟩
def GLB_CAPLOG_DIE : Fld := ⟨124, 2, 8⟩
/-- GLB_FUSE (R494, 21_reset_and_retention.md). -/
def GLB_FUSE : Nat := 125
def GLB_FUSE_FUSES : Fld := ⟨125, 0, 64⟩
/-- TWN_CTRL (R511, 22_twin.md). -/
def TWN_CTRL : Nat := 126
def TWN_CTRL_WANT : Fld := ⟨126, 0, 2⟩
def TWN_CTRL_HOLD : Fld := ⟨126, 2, 1⟩
def TWN_CTRL_SILENCE_FENCE : Fld := ⟨126, 3, 1⟩
def TWN_CTRL_ARM : Fld := ⟨126, 4, 1⟩
def TWN_CTRL_RESUME : Fld := ⟨126, 5, 1⟩
def TWN_CTRL_TAKE : Fld := ⟨126, 6, 1⟩
def TWN_CTRL_PAIR_ID : Fld := ⟨126, 8, 16⟩
/-- TWN_ARM_ADDR (R511, 22_twin.md). -/
def TWN_ARM_ADDR : Nat := 127
def TWN_ARM_ADDR_ADDR : Fld := ⟨127, 0, 41⟩
/-- TWN_REPLAY (R511, 22_twin.md). -/
def TWN_REPLAY : Nat := 128
def TWN_REPLAY_ADDR : Fld := ⟨128, 0, 41⟩
/-- TWN_STATUS (R511, 22_twin.md). -/
def TWN_STATUS : Nat := 129
def TWN_STATUS_STATE : Fld := ⟨129, 0, 3⟩
def TWN_STATUS_ARMED : Fld := ⟨129, 3, 1⟩
def TWN_STATUS_PORTS_UP : Fld := ⟨129, 4, 2⟩
def TWN_STATUS_PEER_TRIP : Fld := ⟨129, 6, 1⟩
def TWN_STATUS_ACKSEQ : Fld := ⟨129, 16, 32⟩
def TWN_STATUS_HEALTHY_S : Fld := ⟨129, 48, 16⟩
/-- TWN_STAT (R511, 22_twin.md). -/
def TWN_STAT : Nat := 130
def TWN_STAT_SWITCHES : Fld := ⟨130, 0, 16⟩
def TWN_STAT_HELD_COMMITS : Fld := ⟨130, 16, 16⟩
def TWN_STAT_RESENDS : Fld := ⟨130, 32, 16⟩
def TWN_STAT_SHORT : Fld := ⟨130, 48, 16⟩
/-- TWN_PEER (R511, 22_twin.md). -/
def TWN_PEER : Nat := 131
def TWN_PEER_WORST : Fld := ⟨131, 0, 2⟩
def TWN_PEER_BIST_ROW : Fld := ⟨131, 2, 9⟩
def TWN_PEER_HBM_SCRUB : Fld := ⟨131, 11, 7⟩
def TWN_PEER_TPL_SCRUB : Fld := ⟨131, 18, 7⟩
def TWN_PEER_AGE_MS : Fld := ⟨131, 32, 16⟩
/-- TWN_REGION (R511, 22_twin.md). -/
def TWN_REGION : Nat := 132
def TWN_REGION_VALID : Fld := ⟨132, 0, 1⟩
def TWN_REGION_STREAM : Fld := ⟨132, 1, 6⟩
def TWN_REGION_BASE : Fld := ⟨132, 12, 29⟩
/-- SEC_STATUS (R534, 23_security_lifecycle.md). -/
def SEC_STATUS : Nat := 133
def SEC_STATUS_FACTORY_FUSE : Fld := ⟨133, 0, 1⟩
def SEC_STATUS_WIPING : Fld := ⟨133, 1, 1⟩
def SEC_STATUS_WIPE_PENDING : Fld := ⟨133, 2, 1⟩
def SEC_STATUS_WIPES : Fld := ⟨133, 16, 16⟩
def SEC_STATUS_MIN_SVN_SUP : Fld := ⟨133, 32, 16⟩
/-- SEC_UPD (R534, 23_security_lifecycle.md). -/
def SEC_UPD : Nat := 134
def SEC_UPD_GO : Fld := ⟨134, 0, 1⟩
def SEC_UPD_BUSY : Fld := ⟨134, 1, 1⟩
def SEC_UPD_STAGE : Fld := ⟨134, 2, 3⟩
def SEC_UPD_SOURCE : Fld := ⟨134, 5, 1⟩
def SEC_UPD_CODE : Fld := ⟨134, 6, 8⟩
def SEC_UPD_CHECK : Fld := ⟨134, 14, 4⟩
def SEC_UPD_DEADLINE_S : Fld := ⟨134, 18, 10⟩
def SEC_UPD_SLOT : Fld := ⟨134, 28, 1⟩
/-- SEC_UPD_ADDR (R534, 23_security_lifecycle.md). -/
def SEC_UPD_ADDR : Nat := 135
def SEC_UPD_ADDR_ADDR : Fld := ⟨135, 0, 41⟩
/-- SEC_ATTEST (R534, 23_security_lifecycle.md). -/
def SEC_ATTEST : Nat := 136
def SEC_ATTEST_GO : Fld := ⟨136, 0, 1⟩
def SEC_ATTEST_BUSY : Fld := ⟨136, 1, 1⟩
def SEC_ATTEST_CODE : Fld := ⟨136, 2, 8⟩
def SEC_ATTEST_ADDR : Fld := ⟨136, 16, 41⟩
/-- SEC_WIPE (R534, 23_security_lifecycle.md). -/
def SEC_WIPE : Nat := 137
def SEC_WIPE_GO : Fld := ⟨137, 0, 1⟩
def SEC_WIPE_BUSY : Fld := ⟨137, 1, 1⟩
def SEC_WIPE_KEY : Fld := ⟨137, 8, 8⟩
def SEC_WIPE_CODE : Fld := ⟨137, 16, 8⟩
/-- SEC_WIPE_ADDR (R534, 23_security_lifecycle.md). -/
def SEC_WIPE_ADDR : Nat := 138
def SEC_WIPE_ADDR_ADDR : Fld := ⟨138, 0, 41⟩
/-- SEC_CARD (R534, 23_security_lifecycle.md). -/
def SEC_CARD : Nat := 139
def SEC_CARD_PRESENT : Fld := ⟨139, 0, 1⟩
def SEC_CARD_CARD_EN : Fld := ⟨139, 1, 1⟩
def SEC_CARD_SCRIPT_RUN : Fld := ⟨139, 2, 1⟩
def SEC_CARD_CODE : Fld := ⟨139, 3, 8⟩
/-- STL_STATUS (R534, 23_security_lifecycle.md). -/
def STL_STATUS : Nat := 140
def STL_STATUS_NEXT_SEQ : Fld := ⟨140, 0, 32⟩
def STL_STATUS_FREE : Fld := ⟨140, 32, 18⟩
def STL_STATUS_NEAR_FULL : Fld := ⟨140, 50, 1⟩
def STL_STATUS_SEALING : Fld := ⟨140, 51, 1⟩
def STL_STATUS_DROPPED : Fld := ⟨140, 52, 12⟩
/-- STL_READ (R534, 23_security_lifecycle.md). -/
def STL_READ : Nat := 141
def STL_READ_SEQ : Fld := ⟨141, 0, 32⟩
/-- STL_SEAL (R534, 23_security_lifecycle.md). -/
def STL_SEAL : Nat := 142
def STL_SEAL_GO : Fld := ⟨142, 0, 1⟩
def STL_SEAL_CODE : Fld := ⟨142, 1, 8⟩
/-- STL_WINDOW (R534, 23_security_lifecycle.md). -/
def STL_WINDOW : Nat := 143
def STL_WINDOW_DATA : Fld := ⟨143, 0, 64⟩

/-- Registers GLB_MODULE_ID to TPL_THERM. -/
def regTable0 : List RegSpec := [
  ⟨1, [⟨0, 1, 0, 8, 1, 8⟩],
    [⟨0, 8, .ro, 22, 127⟩, ⟨8, 8, .ro, 0, 127⟩, ⟨16, 2, .ro, 0, 127⟩, ⟨18, 1, .ro, 0, 60⟩, ⟨19, 1, .ro, 0, 60⟩, ⟨32, 32, .ro, 0, 127⟩]⟩,
  ⟨2, [⟨0, 384, 16785408, 524288, 16, 8⟩],
    [⟨0, 18, .ro, 0, 124⟩, ⟨18, 2, .ro, 0, 124⟩, ⟨20, 1, .ro, 0, 124⟩, ⟨21, 1, .ro, 0, 124⟩]⟩,
  ⟨3, [⟨0, 24, 16785664, 524288, 1, 8⟩],
    [⟨0, 8, .ro, 0, 52⟩, ⟨8, 12, .ro, 0, 52⟩, ⟨20, 3, .ro, 0, 52⟩, ⟨23, 4, .ro, 0, 52⟩, ⟨27, 1, .w1c, 0, 52⟩, ⟨28, 1, .ro, 0, 52⟩, ⟨32, 16, .ro, 0, 52⟩]⟩,
  ⟨4, [⟨0, 1536, 16785920, 524288, 64, 8⟩],
    [⟨0, 64, .rw, 0, 52⟩]⟩,
  ⟨5, [⟨0, 24, 16793600, 524288, 1, 8⟩],
    [⟨0, 3, .ro, 0, 0⟩, ⟨3, 11, .ro, 0, 52⟩, ⟨14, 6, .ro, 0, 52⟩, ⟨20, 6, .ro, 0, 52⟩, ⟨26, 16, .ro, 0, 52⟩, ⟨42, 16, .ro, 0, 52⟩, ⟨58, 1, .ro, 0, 0⟩, ⟨59, 2, .ro, 0, 52⟩]⟩,
  ⟨6, [⟨0, 24, 16793608, 524288, 1, 8⟩],
    [⟨0, 4, .rwl, 15, 60⟩, ⟨4, 1, .ro, 0, 52⟩, ⟨16, 11, .ro, 0, 52⟩]⟩,
  ⟨7, [⟨0, 24, 16793616, 524288, 1, 8⟩],
    [⟨0, 3, .rw, 0, 52⟩, ⟨3, 1, .rw, 0, 52⟩, ⟨4, 1, .rw, 0, 52⟩, ⟨5, 1, .wo, 0, 0⟩, ⟨6, 1, .ro, 0, 0⟩, ⟨7, 1, .w1c, 0, 52⟩, ⟨8, 8, .ro, 0, 52⟩]⟩,
  ⟨8, [⟨0, 24, 16793624, 524288, 1, 8⟩],
    [⟨0, 32, .rw, 0, 52⟩, ⟨32, 32, .rw, 0, 52⟩]⟩,
  ⟨9, [⟨0, 408, 16793856, 524288, 17, 8⟩],
    [⟨0, 64, .ro, 0, 52⟩]⟩,
  ⟨10, [⟨0, 24, 16793992, 524288, 1, 8⟩],
    [⟨0, 32, .ro, 0, 52⟩, ⟨32, 32, .ro, 0, 52⟩]⟩,
  ⟨11, [⟨0, 24, 16794000, 524288, 1, 8⟩],
    [⟨0, 32, .ro, 0, 60⟩, ⟨32, 2, .ro, 0, 60⟩, ⟨34, 1, .w1c, 0, 60⟩, ⟨35, 1, .ro, 0, 60⟩, ⟨36, 16, .ro, 0, 60⟩]⟩,
  ⟨12, [⟨0, 24, 16794008, 524288, 1, 8⟩],
    [⟨0, 8, .ro, 0, 0⟩, ⟨8, 8, .ro, 0, 0⟩, ⟨16, 2, .ro, 0, 0⟩, ⟨18, 4, .ro, 0, 0⟩]⟩]

/-- Registers TID_COUNTER to HRN_BERR. -/
def regTable1 : List RegSpec := [
  ⟨13, [⟨0, 1, 4194304, 8, 1, 8⟩],
    [⟨0, 64, .ro, 0, 124⟩]⟩,
  ⟨14, [⟨0, 1, 4194312, 8, 1, 8⟩],
    [⟨0, 64, .ro, 0, 124⟩]⟩,
  ⟨15, [⟨0, 1, 4194320, 8, 1, 8⟩],
    [⟨0, 3, .ro, 0, 28⟩, ⟨3, 1, .ro, 1, 28⟩, ⟨4, 1, .ro, 0, 28⟩, ⟨5, 1, .ro, 0, 0⟩, ⟨6, 1, .ro, 0, 0⟩]⟩,
  ⟨16, [⟨0, 1, 4194328, 8, 1, 8⟩],
    [⟨0, 24, .rw, 0, 20⟩, ⟨32, 16, .rw, 0, 20⟩, ⟨48, 1, .rw, 0, 20⟩, ⟨49, 1, .rw, 0, 20⟩, ⟨50, 1, .wo, 0, 0⟩, ⟨51, 1, .ro, 0, 0⟩, ⟨52, 1, .w1c, 0, 20⟩]⟩,
  ⟨17, [⟨0, 1, 4194336, 8, 1, 8⟩],
    [⟨0, 8, .rw, 0, 20⟩, ⟨8, 1, .rw, 0, 20⟩, ⟨9, 1, .wo, 0, 0⟩, ⟨10, 1, .ro, 0, 0⟩, ⟨11, 8, .ro, 0, 20⟩, ⟨19, 18, .ro, 0, 20⟩]⟩,
  ⟨18, [⟨0, 1, 4194344, 8, 1, 8⟩],
    [⟨0, 41, .rw, 0, 20⟩]⟩,
  ⟨19, [⟨0, 24, 16789504, 524288, 1, 8⟩, ⟨24, 16, 33566720, 262144, 1, 8⟩, ⟨40, 1, 4195072, 8, 1, 8⟩],
    [⟨0, 1, .ro, 0, 20⟩, ⟨1, 1, .ro, 0, 20⟩, ⟨2, 1, .ro, 0, 20⟩, ⟨3, 1, .ro, 0, 20⟩, ⟨16, 16, .rc, 0, 20⟩, ⟨32, 16, .rc, 0, 20⟩, ⟨48, 16, .rc, 0, 20⟩]⟩,
  ⟨20, [⟨0, 1, 5242880, 8, 1, 8⟩],
    [⟨0, 8, .ro, 0, 124⟩, ⟨8, 8, .ro, 0, 20⟩, ⟨16, 8, .ro, 0, 124⟩, ⟨24, 1, .ro, 0, 20⟩]⟩,
  ⟨21, [⟨0, 1, 5242888, 8, 1, 8⟩],
    [⟨0, 1, .rw, 1, 124⟩, ⟨1, 8, .rw, 32, 124⟩]⟩,
  ⟨22, [⟨0, 1, 5242896, 8, 1, 8⟩],
    [⟨0, 64, .ro, 0, 20⟩]⟩,
  ⟨23, [⟨0, 131, 5243136, 1048, 131, 8⟩],
    [⟨0, 4, .ro, 15, 20⟩, ⟨4, 2, .ro, 0, 20⟩, ⟨6, 16, .ro, 0, 124⟩, ⟨22, 1, .ro, 0, 124⟩, ⟨23, 1, .ro, 0, 20⟩, ⟨24, 8, .ro, 0, 127⟩, ⟨32, 2, .ro, 0, 127⟩]⟩,
  ⟨24, [⟨0, 131, 5244928, 1048, 131, 8⟩],
    [⟨0, 24, .rc, 0, 20⟩, ⟨24, 16, .rc, 0, 20⟩, ⟨40, 16, .rc, 0, 20⟩]⟩]

/-- Registers STN_HRN to SHG_ERRLOG. -/
def regTable2 : List RegSpec := [
  ⟨25, [⟨0, 24, 16789512, 524288, 1, 8⟩, ⟨24, 16, 33566728, 262144, 1, 8⟩, ⟨40, 1, 5242904, 8, 1, 8⟩],
    [⟨0, 16, .rc, 0, 20⟩, ⟨16, 16, .rc, 0, 20⟩, ⟨32, 16, .rc, 0, 20⟩, ⟨48, 8, .rc, 0, 20⟩]⟩,
  ⟨26, [⟨0, 26, 5246976, 208, 26, 8⟩],
    [⟨0, 4, .ro, 0, 124⟩, ⟨4, 5, .ro, 0, 124⟩, ⟨9, 1, .ro, 0, 124⟩, ⟨10, 1, .ro, 0, 124⟩, ⟨11, 1, .ro, 0, 124⟩, ⟨16, 16, .ro, 0, 124⟩, ⟨32, 24, .ro, 0, 127⟩]⟩,
  ⟨27, [⟨0, 1, 5247232, 8, 1, 8⟩],
    [⟨0, 1, .rw, 1, 124⟩, ⟨1, 1, .rw, 1, 124⟩, ⟨2, 1, .wo, 0, 0⟩]⟩,
  ⟨28, [⟨0, 1, 5247240, 8, 1, 8⟩],
    [⟨0, 1, .ro, 0, 124⟩, ⟨1, 1, .rw, 0, 124⟩, ⟨2, 2, .ro, 0, 124⟩]⟩,
  ⟨29, [⟨0, 1, 5247248, 8, 1, 8⟩],
    [⟨0, 1, .ro, 0, 0⟩, ⟨1, 1, .w1c, 0, 20⟩, ⟨16, 16, .rc, 0, 20⟩, ⟨32, 16, .rc, 0, 20⟩]⟩,
  ⟨30, [⟨0, 1, 5247256, 8, 1, 8⟩],
    [⟨0, 10, .ro, 0, 28⟩, ⟨10, 10, .ro, 0, 28⟩]⟩,
  ⟨31, [⟨0, 1, 5247264, 8, 1, 8⟩],
    [⟨0, 32, .ro, 0, 124⟩, ⟨32, 8, .ro, 0, 124⟩, ⟨40, 1, .ro, 0, 124⟩, ⟨41, 1, .ro, 0, 124⟩, ⟨42, 1, .ro, 0, 124⟩]⟩,
  ⟨32, [⟨0, 16, 33558528, 262144, 1, 8⟩],
    [⟨0, 3, .ro, 0, 0⟩, ⟨3, 2, .ro, 0, 0⟩, ⟨5, 8, .ro, 0, 0⟩, ⟨13, 3, .ro, 0, 0⟩, ⟨16, 1, .ro, 1, 0⟩]⟩,
  ⟨33, [⟨0, 16, 33558536, 262144, 1, 8⟩],
    [⟨0, 8, .rw, 24, 52⟩]⟩,
  ⟨34, [⟨0, 16, 33558544, 262144, 1, 8⟩],
    [⟨0, 37, .ro, 0, 52⟩, ⟨48, 16, .ro, 0, 52⟩]⟩,
  ⟨35, [⟨0, 16, 33558552, 262144, 1, 8⟩],
    [⟨0, 24, .rc, 0, 52⟩, ⟨24, 24, .rc, 0, 52⟩, ⟨48, 16, .rc, 0, 52⟩]⟩,
  ⟨36, [⟨0, 16, 33558560, 262144, 1, 8⟩],
    [⟨0, 37, .ro, 0, 52⟩, ⟨37, 3, .ro, 0, 52⟩, ⟨40, 8, .ro, 0, 52⟩, ⟨48, 1, .w1c, 0, 52⟩, ⟨49, 1, .ro, 0, 52⟩, ⟨50, 8, .ro, 0, 52⟩]⟩]

/-- Registers TID_EPOCH to SMP_TRUNC. -/
def regTable3 : List RegSpec := [
  ⟨37, [⟨0, 1, 4194352, 8, 1, 8⟩],
    [⟨0, 16, .ro, 0, 124⟩]⟩,
  ⟨38, [⟨0, 1, 4194360, 8, 1, 8⟩],
    [⟨0, 3, .ro, 0, 20⟩, ⟨8, 8, .ro, 255, 20⟩]⟩,
  ⟨39, [⟨0, 24, 4194560, 192, 24, 8⟩],
    [⟨0, 3, .ro, 0, 124⟩, ⟨3, 5, .ro, 31, 124⟩, ⟨8, 16, .ro, 0, 124⟩, ⟨24, 3, .ro, 0, 124⟩, ⟨27, 5, .ro, 31, 124⟩, ⟨32, 16, .ro, 0, 124⟩, ⟨48, 8, .ro, 255, 124⟩]⟩,
  ⟨40, [⟨0, 24, 4194816, 192, 24, 8⟩],
    [⟨0, 3, .rw, 0, 124⟩, ⟨3, 5, .rw, 31, 124⟩, ⟨8, 1, .rw, 0, 124⟩]⟩,
  ⟨41, [⟨0, 1, 4194368, 8, 1, 8⟩],
    [⟨0, 3, .ro, 0, 60⟩, ⟨8, 8, .ro, 255, 60⟩, ⟨16, 16, .ro, 0, 60⟩]⟩,
  ⟨42, [⟨0, 1, 4194376, 8, 1, 8⟩],
    [⟨0, 3, .rw, 0, 20⟩, ⟨8, 8, .rw, 255, 20⟩, ⟨16, 1, .wo, 0, 0⟩, ⟨17, 1, .ro, 0, 0⟩]⟩,
  ⟨43, [⟨0, 1, 2129920, 8, 1, 8⟩],
    [⟨0, 8, .rw, 4, 124⟩]⟩,
  ⟨44, [⟨0, 1, 2129928, 8, 1, 8⟩],
    [⟨0, 16, .rc, 0, 124⟩, ⟨16, 16, .rc, 0, 124⟩, ⟨32, 16, .rc, 0, 124⟩, ⟨48, 16, .rc, 0, 124⟩]⟩,
  ⟨45, [⟨0, 1, 2129936, 8, 1, 8⟩],
    [⟨0, 11, .ro, 0, 0⟩, ⟨16, 16, .rc, 0, 124⟩, ⟨32, 16, .rc, 0, 124⟩]⟩,
  ⟨46, [⟨0, 64, 2134016, 4096, 64, 64⟩],
    [⟨0, 1, .rw, 0, 124⟩, ⟨1, 1, .rw, 0, 124⟩, ⟨2, 9, .rw, 256, 124⟩, ⟨11, 11, .rw, 0, 124⟩, ⟨22, 6, .rw, 0, 124⟩, ⟨28, 1, .rw, 0, 124⟩, ⟨32, 32, .rw, 0, 124⟩]⟩,
  ⟨47, [⟨0, 64, 2134024, 4096, 64, 64⟩],
    [⟨0, 32, .rw, 1065353216, 124⟩, ⟨32, 32, .rw, 1065353216, 124⟩]⟩,
  ⟨48, [⟨0, 64, 2134032, 4096, 64, 64⟩],
    [⟨0, 32, .rw, 1065353216, 124⟩, ⟨32, 32, .rw, 0, 124⟩]⟩]

/-- Registers SMP_SEED to FAB_FLOW1. -/
def regTable4 : List RegSpec := [
  ⟨49, [⟨0, 64, 2134040, 4096, 64, 64⟩],
    [⟨0, 64, .rw, 0, 124⟩]⟩,
  ⟨50, [⟨0, 64, 2134048, 4096, 64, 64⟩],
    [⟨0, 32, .rw, 4294967295, 124⟩, ⟨32, 32, .rw, 4294967295, 124⟩]⟩,
  ⟨51, [⟨0, 64, 2134056, 4096, 64, 64⟩],
    [⟨0, 64, .rw, 0, 124⟩]⟩,
  ⟨52, [⟨0, 64, 2134064, 4096, 64, 64⟩],
    [⟨0, 64, .rw, 0, 124⟩]⟩,
  ⟨53, [⟨0, 64, 2134072, 4096, 64, 64⟩],
    [⟨0, 2, .ro, 0, 124⟩, ⟨2, 1, .ro, 0, 0⟩, ⟨3, 1, .ro, 0, 124⟩, ⟨4, 8, .ro, 0, 124⟩, ⟨16, 32, .rw, 0, 124⟩]⟩,
  ⟨54, [⟨0, 32768, 2162688, 4096, 512, 8⟩],
    [⟨0, 32, .rw, 0, 124⟩, ⟨32, 32, .rw, 0, 124⟩]⟩,
  ⟨55, [⟨0, 1, 9437184, 8, 1, 8⟩],
    [⟨0, 6, .rwl, 0, 124⟩, ⟨6, 1, .rwl, 0, 124⟩, ⟨7, 1, .ro, 0, 60⟩, ⟨8, 8, .rw, 20, 124⟩, ⟨16, 8, .rw, 16, 124⟩]⟩,
  ⟨56, [⟨0, 8, 9437440, 64, 8, 8⟩],
    [⟨0, 2, .ro, 0, 60⟩, ⟨2, 1, .rw, 0, 124⟩, ⟨3, 3, .ro, 0, 60⟩, ⟨8, 16, .rc, 0, 60⟩, ⟨24, 16, .rc, 0, 60⟩, ⟨40, 16, .rc, 0, 60⟩]⟩,
  ⟨57, [⟨0, 64, 9441280, 512, 64, 8⟩],
    [⟨0, 2, .rw, 0, 124⟩, ⟨8, 8, .rw, 255, 124⟩]⟩,
  ⟨58, [⟨0, 256, 9445376, 2048, 256, 8⟩],
    [⟨0, 6, .rwl, 0, 124⟩, ⟨7, 1, .rwl, 0, 124⟩, ⟨8, 8, .rwl, 255, 124⟩]⟩,
  ⟨59, [⟨0, 4096, 9469952, 65536, 4096, 16⟩],
    [⟨0, 1, .rw, 0, 60⟩, ⟨1, 8, .rw, 0, 60⟩, ⟨9, 3, .rw, 0, 60⟩, ⟨12, 3, .ro, 0, 60⟩, ⟨15, 1, .ro, 0, 60⟩, ⟨16, 8, .ro, 0, 60⟩, ⟨24, 3, .ro, 0, 60⟩, ⟨27, 1, .ro, 0, 60⟩, ⟨28, 1, .wo, 0, 0⟩]⟩,
  ⟨60, [⟨0, 4096, 9469960, 65536, 4096, 16⟩],
    [⟨0, 32, .ro, 0, 60⟩, ⟨32, 11, .ro, 0, 60⟩, ⟨43, 16, .rc, 0, 60⟩]⟩]

/-- Registers FAB_DIRECT_CMD to FAB_ATOM. -/
def regTable5 : List RegSpec := [
  ⟨61, [⟨0, 1, 9437952, 8, 1, 8⟩],
    [⟨0, 6, .rw, 0, 20⟩, ⟨6, 2, .rw, 0, 20⟩, ⟨8, 3, .rw, 0, 20⟩, ⟨11, 1, .rw, 0, 20⟩, ⟨12, 9, .rw, 0, 20⟩, ⟨21, 1, .wo, 0, 0⟩, ⟨22, 1, .ro, 0, 0⟩, ⟨23, 8, .ro, 0, 20⟩]⟩,
  ⟨62, [⟨0, 1, 9437960, 8, 1, 8⟩],
    [⟨0, 46, .rw, 0, 20⟩]⟩,
  ⟨63, [⟨0, 1, 9437968, 8, 1, 8⟩],
    [⟨0, 41, .rw, 0, 20⟩]⟩,
  ⟨64, [⟨0, 1, 9438208, 8, 1, 8⟩],
    [⟨0, 1, .rw, 0, 24⟩, ⟨1, 2, .rw, 0, 24⟩, ⟨3, 8, .rw, 0, 24⟩, ⟨11, 16, .rw, 0, 24⟩]⟩,
  ⟨65, [⟨0, 1, 9438216, 8, 1, 8⟩],
    [⟨0, 16, .rw, 0, 24⟩, ⟨16, 16, .rw, 0, 24⟩, ⟨32, 16, .rw, 0, 24⟩, ⟨48, 6, .rw, 1, 24⟩]⟩,
  ⟨66, [⟨0, 1, 9438224, 8, 1, 8⟩],
    [⟨0, 64, .rw, 0, 24⟩]⟩,
  ⟨67, [⟨0, 1, 9438232, 8, 1, 8⟩],
    [⟨0, 21, .rc, 0, 24⟩, ⟨21, 21, .rc, 0, 24⟩, ⟨42, 21, .rc, 0, 24⟩]⟩,
  ⟨68, [⟨0, 1, 9535488, 8, 1, 8⟩],
    [⟨0, 52, .ro, 0, 60⟩, ⟨52, 8, .ro, 0, 60⟩, ⟨60, 1, .w1c, 0, 60⟩, ⟨61, 1, .ro, 0, 60⟩, ⟨62, 1, .ro, 0, 60⟩]⟩,
  ⟨69, [⟨0, 1, 9535496, 8, 1, 8⟩],
    [⟨0, 12, .ro, 0, 60⟩, ⟨12, 8, .ro, 0, 60⟩, ⟨20, 8, .ro, 0, 60⟩, ⟨28, 8, .ro, 0, 60⟩, ⟨36, 16, .ro, 0, 60⟩]⟩,
  ⟨70, [⟨0, 1, 9535504, 8, 1, 8⟩],
    [⟨0, 46, .ro, 0, 60⟩, ⟨46, 6, .ro, 0, 60⟩, ⟨52, 8, .ro, 0, 60⟩, ⟨60, 1, .w1c, 0, 60⟩, ⟨61, 1, .ro, 0, 60⟩]⟩,
  ⟨71, [⟨0, 1, 9535512, 8, 1, 8⟩],
    [⟨0, 12, .ro, 0, 60⟩, ⟨12, 4, .ro, 0, 60⟩, ⟨16, 16, .ro, 0, 60⟩, ⟨32, 16, .ro, 0, 60⟩]⟩,
  ⟨72, [⟨0, 1, 9535520, 8, 1, 8⟩],
    [⟨0, 13, .ro, 0, 60⟩, ⟨16, 16, .rc, 0, 60⟩, ⟨32, 16, .rc, 0, 60⟩, ⟨48, 16, .rc, 0, 60⟩]⟩]

/-- Registers FAB_TEAR to FRY_TIMER. -/
def regTable6 : List RegSpec := [
  ⟨73, [⟨0, 1, 9535528, 8, 1, 8⟩],
    [⟨0, 2, .ro, 0, 60⟩, ⟨2, 6, .ro, 0, 60⟩, ⟨8, 1, .w1c, 0, 60⟩, ⟨9, 1, .ro, 0, 0⟩, ⟨16, 16, .rc, 0, 60⟩]⟩,
  ⟨74, [⟨0, 64, 9539584, 1024, 64, 16⟩],
    [⟨0, 1, .rwl, 0, 124⟩, ⟨1, 1, .ro, 0, 124⟩, ⟨2, 8, .rwl, 0, 124⟩, ⟨16, 25, .rwl, 0, 124⟩, ⟨41, 16, .rwl, 0, 124⟩]⟩,
  ⟨75, [⟨0, 64, 9539592, 1024, 64, 16⟩],
    [⟨0, 48, .rwl, 0, 124⟩, ⟨48, 4, .rwl, 0, 124⟩]⟩,
  ⟨76, [⟨0, 1, 512, 8, 1, 8⟩],
    [⟨0, 1, .ro, 0, 124⟩, ⟨1, 1, .ro, 0, 124⟩, ⟨2, 1, .ro, 0, 124⟩, ⟨3, 1, .wo, 0, 0⟩, ⟨4, 1, .wo, 0, 0⟩, ⟨5, 1, .wo, 0, 0⟩, ⟨6, 1, .rw, 0, 124⟩]⟩,
  ⟨77, [⟨0, 2, 528, 16, 2, 8⟩],
    [⟨0, 1, .ro, 0, 0⟩, ⟨1, 3, .ro, 0, 0⟩, ⟨4, 5, .ro, 0, 0⟩, ⟨9, 1, .ro, 0, 0⟩, ⟨16, 16, .rc, 0, 124⟩]⟩,
  ⟨78, [⟨0, 2, 544, 16, 2, 8⟩],
    [⟨30, 11, .rw, 0, 120⟩]⟩,
  ⟨79, [⟨0, 1, 560, 8, 1, 8⟩],
    [⟨0, 41, .ro, 0, 124⟩, ⟨41, 2, .ro, 0, 124⟩, ⟨43, 1, .ro, 0, 124⟩, ⟨44, 8, .ro, 0, 124⟩, ⟨52, 1, .w1c, 0, 124⟩, ⟨53, 1, .ro, 0, 124⟩, ⟨54, 10, .ro, 0, 124⟩]⟩,
  ⟨80, [⟨0, 32, 3145728, 2048, 32, 64⟩],
    [⟨0, 1, .rw, 0, 124⟩, ⟨1, 2, .rw, 0, 124⟩, ⟨3, 2, .rw, 0, 124⟩, ⟨5, 5, .rw, 0, 124⟩, ⟨10, 6, .rw, 0, 124⟩]⟩,
  ⟨81, [⟨0, 32, 3145736, 2048, 32, 64⟩],
    [⟨0, 41, .rw, 0, 124⟩, ⟨41, 4, .rw, 0, 124⟩]⟩,
  ⟨82, [⟨0, 32, 3145744, 2048, 32, 64⟩],
    [⟨0, 2, .rw, 0, 124⟩, ⟨2, 4, .rw, 0, 124⟩, ⟨6, 58, .rw, 0, 124⟩]⟩,
  ⟨83, [⟨0, 32, 3145752, 2048, 32, 64⟩],
    [⟨0, 16, .rw, 0, 124⟩, ⟨16, 16, .ro, 0, 124⟩, ⟨32, 16, .ro, 0, 124⟩, ⟨48, 16, .rw, 0, 124⟩]⟩,
  ⟨84, [⟨0, 32, 3145760, 2048, 32, 64⟩],
    [⟨0, 64, .rw, 0, 124⟩]⟩]

/-- Registers FRY_PERIOD to MBX_LOG. -/
def regTable7 : List RegSpec := [
  ⟨85, [⟨0, 32, 3145768, 2048, 32, 64⟩],
    [⟨0, 32, .rw, 1024, 124⟩]⟩,
  ⟨86, [⟨0, 32, 3145776, 2048, 32, 64⟩],
    [⟨0, 2, .ro, 0, 0⟩, ⟨2, 8, .ro, 0, 124⟩, ⟨10, 8, .ro, 0, 124⟩, ⟨18, 16, .rc, 0, 124⟩, ⟨34, 1, .ro, 0, 0⟩, ⟨35, 1, .ro, 0, 124⟩]⟩,
  ⟨87, [⟨0, 64, 268435456, 1024, 64, 16⟩],
    [⟨0, 64, .rw, 0, 124⟩]⟩,
  ⟨88, [⟨0, 64, 268435464, 1024, 64, 16⟩],
    [⟨0, 1, .ro, 0, 124⟩, ⟨1, 1, .wo, 0, 0⟩, ⟨2, 6, .ro, 0, 124⟩, ⟨8, 1, .ro, 0, 127⟩, ⟨9, 8, .ro, 0, 124⟩, ⟨17, 8, .ro, 0, 124⟩]⟩,
  ⟨89, [⟨0, 128, 2097152, 4096, 64, 64⟩],
    [⟨0, 1, .rw, 0, 124⟩, ⟨1, 1, .rw, 0, 124⟩, ⟨2, 1, .rw, 0, 124⟩, ⟨3, 4, .rw, 0, 124⟩, ⟨7, 4, .rw, 0, 124⟩, ⟨11, 10, .rw, 20, 124⟩, ⟨21, 1, .wo, 0, 0⟩, ⟨22, 1, .wo, 0, 0⟩]⟩,
  ⟨90, [⟨0, 128, 2097160, 4096, 64, 64⟩],
    [⟨0, 41, .rw, 0, 124⟩]⟩,
  ⟨91, [⟨0, 128, 2097168, 4096, 64, 64⟩],
    [⟨0, 16, .ro, 0, 124⟩, ⟨16, 16, .ro, 0, 124⟩, ⟨32, 16, .ro, 0, 124⟩, ⟨48, 16, .ro, 0, 124⟩]⟩,
  ⟨92, [⟨0, 128, 2097176, 4096, 64, 64⟩],
    [⟨0, 2, .ro, 0, 124⟩, ⟨2, 1, .ro, 0, 0⟩, ⟨3, 8, .ro, 0, 124⟩, ⟨11, 16, .ro, 0, 124⟩, ⟨27, 16, .ro, 0, 124⟩, ⟨43, 16, .rc, 0, 124⟩]⟩,
  ⟨93, [⟨0, 2, 2105344, 16, 2, 8⟩],
    [⟨0, 64, .ro, 0, 124⟩]⟩,
  ⟨94, [⟨0, 64, 1048576, 512, 64, 8⟩],
    [⟨0, 6, .rwl, 0, 124⟩, ⟨6, 6, .rwl, 0, 124⟩, ⟨12, 1, .rwl, 0, 124⟩]⟩,
  ⟨95, [⟨0, 1, 1049088, 8, 1, 8⟩],
    [⟨0, 1, .rw, 0, 124⟩, ⟨1, 2, .ro, 0, 124⟩]⟩,
  ⟨96, [⟨0, 1, 1049096, 8, 1, 8⟩],
    [⟨0, 6, .ro, 0, 124⟩, ⟨6, 6, .ro, 0, 124⟩, ⟨12, 8, .ro, 0, 124⟩, ⟨20, 1, .w1c, 0, 124⟩, ⟨21, 1, .ro, 0, 124⟩, ⟨22, 16, .ro, 0, 124⟩]⟩]

/-- Registers GLB_RTLOAD to PWR_CLK. -/
def regTable8 : List RegSpec := [
  ⟨97, [⟨0, 1, 768, 8, 1, 8⟩],
    [⟨0, 1, .wo, 0, 0⟩, ⟨1, 1, .ro, 0, 0⟩, ⟨2, 8, .ro, 0, 124⟩, ⟨10, 1, .ro, 0, 124⟩]⟩,
  ⟨98, [⟨0, 1, 776, 8, 1, 8⟩],
    [⟨0, 41, .rw, 0, 124⟩]⟩,
  ⟨99, [⟨0, 1, 784, 8, 1, 8⟩],
    [⟨0, 1, .ro, 0, 124⟩, ⟨1, 1, .ro, 0, 124⟩, ⟨2, 1, .ro, 0, 124⟩, ⟨3, 1, .ro, 0, 124⟩, ⟨4, 1, .ro, 0, 124⟩, ⟨5, 1, .ro, 0, 108⟩, ⟨6, 1, .ro, 0, 108⟩, ⟨7, 1, .ro, 0, 124⟩]⟩,
  ⟨100, [⟨0, 8, 800, 64, 8, 8⟩],
    [⟨0, 3, .ro, 0, 0⟩, ⟨3, 10, .ro, 1000, 0⟩, ⟨13, 3, .ro, 0, 124⟩, ⟨16, 16, .rc, 0, 124⟩, ⟨32, 16, .ro, 0, 124⟩]⟩,
  ⟨101, [⟨0, 1, 864, 8, 1, 8⟩],
    [⟨0, 64, .ro, 0, 124⟩]⟩,
  ⟨102, [⟨0, 1, 872, 8, 1, 8⟩],
    [⟨0, 64, .ro, 0, 124⟩]⟩,
  ⟨103, [⟨0, 1, 880, 8, 1, 8⟩],
    [⟨0, 64, .rw, 0, 124⟩]⟩,
  ⟨104, [⟨0, 1, 6291456, 8, 1, 8⟩],
    [⟨0, 16, .ro, 0, 0⟩, ⟨16, 16, .ro, 0, 0⟩, ⟨32, 16, .ro, 0, 0⟩, ⟨48, 16, .ro, 0, 0⟩]⟩,
  ⟨105, [⟨0, 1, 6291464, 8, 1, 8⟩],
    [⟨0, 3, .ro, 0, 0⟩, ⟨3, 4, .ro, 0, 124⟩]⟩,
  ⟨106, [⟨0, 1, 6291472, 8, 1, 8⟩],
    [⟨0, 2, .wo, 0, 0⟩, ⟨2, 8, .ro, 0, 124⟩, ⟨10, 3, .rw, 0, 124⟩]⟩,
  ⟨107, [⟨0, 1, 6291480, 8, 1, 8⟩],
    [⟨0, 3, .ro, 0, 28⟩, ⟨3, 3, .ro, 0, 28⟩, ⟨6, 3, .ro, 0, 0⟩, ⟨9, 3, .ro, 0, 0⟩, ⟨12, 3, .ro, 0, 0⟩, ⟨15, 3, .ro, 0, 0⟩, ⟨18, 3, .ro, 0, 20⟩, ⟨32, 16, .rc, 0, 124⟩]⟩,
  ⟨108, [⟨0, 1, 6291488, 8, 1, 8⟩],
    [⟨0, 1, .ro, 0, 0⟩, ⟨1, 1, .ro, 0, 0⟩, ⟨2, 1, .ro, 0, 0⟩, ⟨3, 1, .ro, 0, 0⟩, ⟨16, 16, .rc, 0, 124⟩]⟩]

/-- Registers THM_STN to GLB_DIERST. -/
def regTable9 : List RegSpec := [
  ⟨109, [⟨0, 41, 6291712, 328, 41, 8⟩],
    [⟨0, 8, .ro, 0, 0⟩, ⟨8, 8, .ro, 0, 0⟩, ⟨16, 8, .ro, 0, 0⟩, ⟨24, 8, .ro, 0, 0⟩, ⟨32, 1, .ro, 0, 0⟩, ⟨33, 1, .ro, 0, 124⟩, ⟨34, 5, .ro, 0, 124⟩, ⟨39, 3, .ro, 0, 0⟩]⟩,
  ⟨110, [⟨0, 96, 16789520, 524288, 4, 8⟩],
    [⟨0, 32, .rc, 0, 20⟩, ⟨32, 16, .rc, 0, 20⟩]⟩,
  ⟨111, [⟨0, 1, 7340032, 8, 1, 8⟩],
    [⟨0, 8, .ro, 0, 124⟩, ⟨8, 1, .ro, 0, 0⟩, ⟨9, 1, .ro, 0, 124⟩, ⟨32, 16, .rc, 0, 124⟩, ⟨48, 16, .rc, 0, 124⟩]⟩,
  ⟨112, [⟨0, 1, 7340040, 8, 1, 8⟩],
    [⟨0, 9, .rw, 0, 124⟩, ⟨9, 9, .ro, 0, 124⟩, ⟨18, 1, .ro, 0, 0⟩, ⟨32, 16, .rc, 0, 124⟩]⟩,
  ⟨113, [⟨0, 1, 7340048, 8, 1, 8⟩],
    [⟨0, 8, .rw, 0, 0⟩, ⟨8, 8, .rw, 0, 0⟩, ⟨16, 16, .rw, 0, 0⟩, ⟨32, 2, .rw, 0, 0⟩, ⟨34, 1, .wo, 0, 0⟩, ⟨35, 3, .rw, 0, 0⟩]⟩,
  ⟨114, [⟨0, 256, 7344128, 2048, 256, 8⟩],
    [⟨0, 16, .rw, 0, 124⟩, ⟨16, 20, .rw, 0, 124⟩, ⟨36, 2, .ro, 0, 127⟩, ⟨38, 2, .ro, 0, 124⟩, ⟨40, 16, .rc, 0, 124⟩]⟩,
  ⟨115, [⟨0, 24, 16789552, 524288, 1, 8⟩, ⟨24, 16, 33566768, 262144, 1, 8⟩, ⟨40, 1, 7340056, 8, 1, 8⟩],
    [⟨0, 16, .rc, 0, 20⟩, ⟨16, 16, .rc, 0, 20⟩, ⟨32, 16, .rc, 0, 20⟩, ⟨48, 16, .rc, 0, 20⟩]⟩,
  ⟨116, [⟨0, 1, 8388608, 8, 1, 8⟩],
    [⟨0, 3, .ro, 0, 124⟩, ⟨3, 1, .ro, 0, 20⟩, ⟨16, 16, .rc, 0, 124⟩]⟩,
  ⟨117, [⟨0, 1, 8388616, 8, 1, 8⟩],
    [⟨0, 8, .rwl, 0, 126⟩, ⟨8, 8, .rwl, 0, 126⟩, ⟨16, 8, .rwl, 0, 126⟩, ⟨24, 8, .rwl, 0, 126⟩, ⟨40, 1, .ro, 0, 126⟩]⟩,
  ⟨118, [⟨0, 1, 8388624, 8, 1, 8⟩],
    [⟨0, 4, .ro, 0, 127⟩, ⟨4, 3, .ro, 0, 127⟩, ⟨7, 1, .w1c, 0, 127⟩, ⟨8, 8, .ro, 255, 127⟩, ⟨16, 16, .ro, 0, 127⟩, ⟨32, 32, .ro, 0, 127⟩]⟩,
  ⟨119, [⟨0, 1, 1024, 8, 1, 8⟩],
    [⟨0, 1, .wo, 0, 0⟩, ⟨1, 1, .wo, 0, 0⟩, ⟨2, 1, .rw, 0, 28⟩, ⟨8, 8, .wo, 0, 0⟩, ⟨16, 8, .rw, 0, 124⟩, ⟨24, 8, .ro, 0, 124⟩, ⟨32, 4, .ro, 0, 126⟩]⟩,
  ⟨120, [⟨0, 1, 1032, 8, 1, 8⟩],
    [⟨0, 24, .ro, 0, 0⟩, ⟨24, 16, .ro, 0, 0⟩]⟩]

/-- Registers GLB_POST to TWN_REGION. -/
def regTable10 : List RegSpec := [
  ⟨121, [⟨0, 1, 1040, 8, 1, 8⟩],
    [⟨0, 3, .ro, 0, 124⟩, ⟨3, 1, .ro, 0, 124⟩, ⟨4, 2, .ro, 0, 124⟩, ⟨6, 4, .ro, 0, 124⟩, ⟨10, 8, .ro, 255, 124⟩, ⟨18, 1, .ro, 0, 124⟩, ⟨19, 1, .ro, 0, 124⟩, ⟨32, 16, .ro, 0, 124⟩]⟩,
  ⟨122, [⟨0, 1, 1048, 8, 1, 8⟩],
    [⟨0, 10, .ro, 0, 124⟩, ⟨10, 11, .ro, 0, 124⟩, ⟨21, 12, .ro, 0, 124⟩, ⟨33, 5, .ro, 0, 124⟩, ⟨38, 5, .ro, 0, 124⟩]⟩,
  ⟨123, [⟨0, 1, 1056, 8, 1, 8⟩],
    [⟨0, 8, .ro, 0, 124⟩]⟩,
  ⟨124, [⟨0, 5, 1064, 40, 5, 8⟩],
    [⟨0, 2, .ro, 0, 124⟩, ⟨2, 8, .ro, 0, 124⟩]⟩,
  ⟨125, [⟨0, 66, 1280, 528, 66, 8⟩],
    [⟨0, 64, .ro, 0, 127⟩]⟩,
  ⟨126, [⟨0, 1, 10485760, 8, 1, 8⟩],
    [⟨0, 2, .rw, 0, 124⟩, ⟨2, 1, .rw, 0, 124⟩, ⟨3, 1, .rw, 1, 124⟩, ⟨4, 1, .wo, 0, 0⟩, ⟨5, 1, .wo, 0, 0⟩, ⟨6, 1, .wo, 0, 0⟩, ⟨8, 16, .rwl, 0, 124⟩]⟩,
  ⟨127, [⟨0, 1, 10485768, 8, 1, 8⟩],
    [⟨0, 41, .rwl, 0, 124⟩]⟩,
  ⟨128, [⟨0, 1, 10485776, 8, 1, 8⟩],
    [⟨0, 41, .rwl, 0, 124⟩]⟩,
  ⟨129, [⟨0, 1, 10485784, 8, 1, 8⟩],
    [⟨0, 3, .ro, 0, 124⟩, ⟨3, 1, .ro, 0, 124⟩, ⟨4, 2, .ro, 0, 0⟩, ⟨6, 1, .w1c, 0, 124⟩, ⟨16, 32, .ro, 0, 124⟩, ⟨48, 16, .ro, 0, 0⟩]⟩,
  ⟨130, [⟨0, 1, 10485792, 8, 1, 8⟩],
    [⟨0, 16, .rc, 0, 124⟩, ⟨16, 16, .rc, 0, 124⟩, ⟨32, 16, .rc, 0, 124⟩, ⟨48, 16, .rc, 0, 124⟩]⟩,
  ⟨131, [⟨0, 1, 10485800, 8, 1, 8⟩],
    [⟨0, 2, .ro, 0, 0⟩, ⟨2, 9, .ro, 0, 0⟩, ⟨11, 7, .ro, 0, 0⟩, ⟨18, 7, .ro, 0, 0⟩, ⟨32, 16, .ro, 0, 0⟩]⟩,
  ⟨132, [⟨0, 1024, 10489856, 8192, 1024, 8⟩],
    [⟨0, 1, .rwl, 0, 124⟩, ⟨1, 6, .rwl, 0, 124⟩, ⟨12, 29, .rwl, 0, 124⟩]⟩]

/-- Registers SEC_STATUS to STL_WINDOW. -/
def regTable11 : List RegSpec := [
  ⟨133, [⟨0, 1, 11534336, 8, 1, 8⟩],
    [⟨0, 1, .ro, 0, 127⟩, ⟨1, 1, .ro, 0, 0⟩, ⟨2, 1, .ro, 0, 127⟩, ⟨16, 16, .ro, 0, 127⟩, ⟨32, 16, .ro, 0, 127⟩]⟩,
  ⟨134, [⟨0, 1, 11534344, 8, 1, 8⟩],
    [⟨0, 1, .wo, 0, 0⟩, ⟨1, 1, .ro, 0, 0⟩, ⟨2, 3, .ro, 0, 60⟩, ⟨5, 1, .ro, 0, 60⟩, ⟨6, 8, .ro, 0, 60⟩, ⟨14, 4, .ro, 0, 60⟩, ⟨18, 10, .ro, 0, 0⟩, ⟨28, 1, .ro, 0, 60⟩]⟩,
  ⟨135, [⟨0, 1, 11534352, 8, 1, 8⟩],
    [⟨0, 41, .rw, 0, 124⟩]⟩,
  ⟨136, [⟨0, 1, 11534360, 8, 1, 8⟩],
    [⟨0, 1, .wo, 0, 0⟩, ⟨1, 1, .ro, 0, 0⟩, ⟨2, 8, .ro, 0, 124⟩, ⟨16, 41, .rw, 0, 124⟩]⟩,
  ⟨137, [⟨0, 1, 11534368, 8, 1, 8⟩],
    [⟨0, 1, .wo, 0, 0⟩, ⟨1, 1, .ro, 0, 0⟩, ⟨8, 8, .wo, 0, 0⟩, ⟨16, 8, .ro, 0, 124⟩]⟩,
  ⟨138, [⟨0, 1, 11534376, 8, 1, 8⟩],
    [⟨0, 41, .rw, 0, 124⟩]⟩,
  ⟨139, [⟨0, 1, 11534384, 8, 1, 8⟩],
    [⟨0, 1, .ro, 0, 0⟩, ⟨1, 1, .rw, 1, 124⟩, ⟨2, 1, .ro, 0, 0⟩, ⟨3, 8, .ro, 0, 124⟩]⟩,
  ⟨140, [⟨0, 1, 12582912, 8, 1, 8⟩],
    [⟨0, 32, .ro, 0, 127⟩, ⟨32, 18, .ro, 0, 127⟩, ⟨50, 1, .ro, 0, 127⟩, ⟨51, 1, .ro, 0, 0⟩, ⟨52, 12, .ro, 0, 127⟩]⟩,
  ⟨141, [⟨0, 1, 12582920, 8, 1, 8⟩],
    [⟨0, 32, .rw, 0, 124⟩]⟩,
  ⟨142, [⟨0, 1, 12582928, 8, 1, 8⟩],
    [⟨0, 1, .wo, 0, 0⟩, ⟨1, 8, .ro, 0, 124⟩]⟩,
  ⟨143, [⟨0, 8, 12582976, 64, 8, 8⟩],
    [⟨0, 64, .ro, 0, 0⟩]⟩]

/-- Every register of the block. -/
def regTable : List RegSpec :=
  regTable0 ++ regTable1 ++ regTable2 ++ regTable3 ++ regTable4 ++ regTable5 ++ regTable6 ++ regTable7 ++ regTable8 ++ regTable9 ++ regTable10 ++ regTable11

end Sys2Proof.Machine
end

