-- ==== Sys2Proof/Machine/RegFile.lean ====
section
/-! DEFINITION. The register file: reset values, reading and writing of fields, address decode,
access by code (R4) and the kept-across rule (R5). A register is keyed by its number × 2^20 + its
instance; an unlisted register holds its reset value. -/
namespace Sys2Proof.Machine

/-- The register file's entries. -/
abbrev RegFile := SMap W64

def regKey (no inst : Nat) : Nat := no * 1048576 + inst
def regSpec (no : Nat) : Option RegSpec := regTable.find? fun r => r.no == no

/-- Reset image of a field list. -/
def fieldsReset : List FldSpec → Nat
  | [] => 0
  | f :: fs => setBitsN (fieldsReset fs) f.lo f.wd f.reset

/-! ### Values fused, fixed or per instance -/

/-- One bit through a CRC-8 register, polynomial x^8 + x^2 + x + 1. -/
def crc8Bit (c b : Nat) : Nat :=
  let f := (c / 128 + b) % 2
  Nat.xor (c * 2 % 256) (if f = 1 then 7 else 0)
/-- CRC-8 over the low `n` bits of `v`, most significant bit first. -/
def crc8 (v : Nat) : Nat → Nat → Nat
  | 0, c => c
  | n + 1, c => crc8 v n (crc8Bit c (v / 2 ^ n % 2))

/-- Identity fuse word without its check (Table 21-5): kind, position, stepping, capabilities. -/
def fuseBody (n : Nat) : Nat :=
  let w (kind pos step caps : Nat) : Nat := kind + 16 * pos + 4096 * step + 2 ^ 20 * caps
  if n < 24 then w 1 n 0x20 0x0F
  else if n < 48 then w 2 (n - 24) 0x11 0x08
  else if n < 64 then w 3 (0x20 + (n - 48)) 0x10 0x08
  else if n = 64 then w 4 0x30 0x11 0x18
  else w 5 0xFF 0x11 0x08
/-- Identity fuse word with CHECK. -/
def fuseWord (n : Nat) : Nat := fuseBody n + 2 ^ 56 * crc8 (fuseBody n) 56 0

/-- Station and local bundle of global bundle `n` (R219). -/
def bundleStation (n : Nat) : Nat := if n < 96 then n / 4 else if n < 128 then 0x20 + (n - 96) / 2 else 0x30
def bundleLocal (n : Nat) : Nat := if n < 96 then n % 4 else if n < 128 then (n - 96) % 2 else n - 128

/-- N, W in ms and base class of a fault kind (Table 20-2, Table 22-6); kinds not listed are reserved. -/
def kindDefaults (k : Nat) : Option (Nat × Nat × Nat) :=
  match k with
  | 0x01 => some (64, 1000, 0) | 0x02 => some (1, 600000, 2) | 0x03 => some (1, 60000, 2)
  | 0x04 => some (16, 1000, 0) | 0x05 => some (1024, 1000, 0) | 0x06 => some (1024, 1000, 0)
  | 0x07 => some (64, 1000, 0) | 0x08 => some (4, 10, 2) | 0x09 => some (1, 1000, 0)
  | 0x0A => some (8, 10, 1) | 0x0B => some (16, 100, 0) | 0x0C => some (1, 600000, 2)
  | 0x10 => some (64, 1000, 0) | 0x11 => some (1, 1000, 1) | 0x12 => some (1, 600000, 2)
  | 0x13 => some (1, 1000, 2) | 0x14 => some (4, 10, 1) | 0x15 => some (256, 1000, 0)
  | 0x16 => some (1024, 1000, 0) | 0x17 => some (1, 600000, 2)
  | 0x20 => some (65535, 1, 0) | 0x21 => some (1, 600000, 2) | 0x22 => some (65535, 1, 1)
  | 0x23 => some (65535, 1, 0)
  | 0x30 => some (1024, 1000, 0) | 0x31 => some (4, 1000, 1) | 0x32 => some (64, 60000, 0)
  | 0x33 => some (16, 60000, 1) | 0x34 => some (1, 1000, 2)
  | 0x40 => some (1024, 600000, 0) | 0x41 => some (4, 60000, 2) | 0x42 => some (4, 600000, 1)
  | 0x43 => some (1, 1000, 2) | 0x44 => some (16, 10, 1) | 0x45 => some (1, 600000, 2)
  | 0x50 => some (64, 1000, 0) | 0x51 => some (4, 60000, 1) | 0x52 => some (1, 1000, 1)
  | 0x53 => some (1024, 1000, 0) | 0x54 => some (64, 1000, 0) | 0x55 => some (64, 1000, 0)
  | 0x56 => some (1, 1000, 2) | 0x57 => some (1, 1000, 2) | 0x58 => some (4, 1000, 1)
  | 0x59 => some (65535, 1, 1)
  | 0x60 => some (4, 60000, 1) | 0x61 => some (1, 600000, 2) | 0x62 => some (2, 10000, 1)
  | 0x63 => some (1, 600000, 2)
  | 0x70 => some (65535, 1, 0) | 0x71 => some (65535, 1, 1) | 0x72 => some (65535, 1, 1)
  | 0x78 => some (65535, 1, 1)
  | 0x80 => some (64, 1000, 0) | 0x81 => some (4, 60000, 1) | 0x82 => some (1, 600000, 2)
  | 0x83 => some (1, 600000, 2) | 0x84 => some (1024, 1000, 0) | 0x85 => some (65535, 1, 0)
  | 0x86 => some (65535, 1, 1) | 0x87 => some (1, 600000, 1)
  | _ => none

/-- Reset image of a register whose instances differ, or that the spec gives as fused, fixed or
taken from flash, the cartridge or self-test (log 10, log 11). -/
def specialReset (no inst : Nat) : Option Nat :=
  if no = GLB_FUSE then some (fuseWord inst)
  else if no = HRN_BMAP then some (15 + 2 ^ 24 * bundleStation inst + 2 ^ 32 * bundleLocal inst)
  else if no = HRN_SRC then some (2 ^ 4 * (if inst < 24 then inst else 31))
  else if no = HRN_CART then some (2 ^ 40 * 3)
  else if no = FRY_CFG then some (if inst < 16 then 0 else 2 ^ 10)
  else if no = MBX_STAT then some (if inst < 16 then 0 else 2 ^ 8)
  else if no = FLT_KIND then
    some (match kindDefaults inst with
      | some (n, w, b) => n + 2 ^ 16 * w + 2 ^ 36 * b
      | none => 0)
  else if no = BWT_TIGHTEN then some (110 + 2 ^ 8 * 105 + 2 ^ 16 * 110 + 2 ^ 24 * 62)
  else if no = STL_STATUS then some (2 ^ 32 * 261120)
  else none

/-- Reset image of a register instance. -/
def regResetN (no inst : Nat) : Nat :=
  match specialReset no inst with
  | some v => v
  | none => match regSpec no with
    | some r => fieldsReset r.fields
    | none => 0

/-- The value an unlisted register holds. -/
def regDefault (key : Nat) : W64 := BitVec.ofNat 64 (regResetN (key / 1048576) (key % 1048576))

/-- Whole register. -/
def rfWord (m : RegFile) (no inst : Nat) : W64 := smGet regDefault m (regKey no inst)
def rfSetWord (m : RegFile) (no inst : Nat) (v : W64) : RegFile := smSet regDefault m (regKey no inst) v
/-- A field of a register instance. -/
def rfGet (m : RegFile) (f : Fld) (inst : Nat) : Nat := bitsN (rfWord m f.reg inst).toNat f.lo f.wd
/-- A register instance with one field replaced. -/
def rfSet (m : RegFile) (f : Fld) (inst v : Nat) : RegFile :=
  rfSetWord m f.reg inst (BitVec.ofNat 64 (setBitsN (rfWord m f.reg inst).toNat f.lo f.wd v))

/-! ### Address decode -/

/-- The instance of a segment at an address, when the address is one of its registers. -/
def Seg.at (g : Seg) (addr : Nat) : Option Nat :=
  if addr < g.base then none
  else
    let o := addr - g.base
    let i := o / g.stride
    let r := o % g.stride
    if r % g.subStride = 0 && r / g.subStride < g.sub && i * g.sub + r / g.subStride < g.n
    then some (g.first + i * g.sub + r / g.subStride) else none

def segsAt : List Seg → Nat → Option Nat
  | [], _ => none
  | g :: gs, a => match g.at a with
    | some i => some i
    | none => segsAt gs a

def findReg : List RegSpec → Nat → Option (RegSpec × Nat)
  | [], _ => none
  | r :: rs, a => match segsAt r.segs a with
    | some i => some (r, i)
    | none => findReg rs a

/-- The register at an 8-aligned address. -/
def regAt (addr : Nat) : Option (RegSpec × Nat) := findReg regTable addr

/-! ### Access by code (R4) -/

/-- What a read returns: WO fields and reserved bits read as zero. -/
def readImage : List FldSpec → Nat → Nat
  | [], _ => 0
  | f :: fs, v =>
    let r := readImage fs v
    if f.acc = .wo then r else setBitsN r f.lo f.wd (bitsN v f.lo f.wd)

/-- What the register holds after a read of bits [lo, lo + n): RC fields wholly among them return to their reset
value (R4, R371). -/
def readClear (lo n : Nat) : List FldSpec → Nat → Nat
  | [], v => v
  | f :: fs, v =>
    let v := readClear lo n fs v
    if f.acc = .rc && decide (lo ≤ f.lo) && decide (f.lo + f.wd ≤ lo + n) then setBitsN v f.lo f.wd f.reset else v

/-- What the register holds after a write of `d` whose writable bits lie in [lo, lo + n): RW fields
take the value, RWL fields while unlocked, W1C bits written 1 clear; all else is ignored. -/
def writeImage (locked : Bool) (lo n d : Nat) : List FldSpec → Nat → Nat
  | [], v => v
  | f :: fs, v =>
    let v := writeImage locked lo n d fs v
    if f.lo + f.wd ≤ lo || lo + n ≤ f.lo then v
    else match f.acc with
      | .rw => setBitsN v f.lo f.wd (bitsN d f.lo f.wd)
      | .rwl => if locked then v else setBitsN v f.lo f.wd (bitsN d f.lo f.wd)
      | .w1c => setBitsN v f.lo f.wd (Nat.land (bitsN v f.lo f.wd) (Nat.xor (bitsN d f.lo f.wd) (2 ^ f.wd - 1)))
      | _ => v

/-! ### Reset events (R5) -/

/-- Fields with a dash that show a condition which the event itself does not end: they read it again at the end of the
event (log 41). Every other field with a dash returns to its reset value. -/
def liveFields : List Fld :=
  [SMP_CTX_USED, SMP_STATE_OPEN, FAB_DIRECT_CMD_BUSY, FAB_TEAR_QUIET, GLB_PORT_LINK_UP, GLB_PORT_SPEED, GLB_PORT_WIDTH, GLB_PORT_FLIT,
    FRY_STAT_STATE, FRY_STAT_CQ_STALL, RNG_STAT_CQ_STALL, GLB_RTLOAD_BUSY, GLB_FWCORE_STATE, GLB_FWCORE_WDT_MS, PWR_STATE_STATE,
    PWR_CLK_REF_OK, PWR_CLK_CORE_LOCK, PWR_CLK_SER_LOCK, PWR_CLK_HBM_LOCK, FLT_STATUS_ABORTING, FLT_QUEUE_FULL, GLB_DIERST_HDL,
    GLB_DIERST_SHG, TWN_STATUS_PORTS_UP, SEC_STATUS_WIPING, SEC_UPD_BUSY, SEC_UPD_DEADLINE_S, SEC_ATTEST_BUSY, SEC_WIPE_BUSY,
    SEC_CARD_PRESENT, SEC_CARD_SCRIPT_RUN, STL_STATUS_SEALING, STL_WINDOW_DATA]

/-- The image of a register after an event: fields kept, and those whose lowest bits are in `live`, stay; the others take
the reset image. -/
def keepImage (event reset : Nat) (live : List Nat) : List FldSpec → Nat → Nat
  | [], _ => reset
  | f :: fs, v =>
    let r := keepImage event reset live fs v
    if f.kept.testBit event || live.contains f.lo then setBitsN r f.lo f.wd (bitsN v f.lo f.wd) else r

/-- Lowest bits of the fields of a register that an event after POR and MOD leaves showing what they show. -/
def liveLos (event no : Nat) : List Nat :=
  if event < 2 then [] else (liveFields.filter fun f => f.reg == no).map Fld.lo

/-- Apply a reset event to the listed registers it reaches. -/
def rfReset (event : Nat) (reach : Nat → Nat → Bool) : RegFile → RegFile
  | [] => []
  | (k, v) :: m =>
    let no := k / 1048576
    let inst := k % 1048576
    if reach no inst then
      let fs := match regSpec no with | some r => r.fields | none => []
      let v' := BitVec.ofNat 64 (keepImage event (regResetN no inst) (liveLos event no) fs v.toNat)
      if v' = regDefault k then rfReset event reach m else (k, v') :: rfReset event reach m
    else (k, v) :: rfReset event reach m

end Sys2Proof.Machine
end

