-- ==== Sys2Proof/Machine/State.lean ====
section
/-! DEFINITION. The state of the block as plain data: every register, buffer, queue, counter, mode
and pin the spec names, and the queue of waiting commands; and the state after reset. -/
namespace Sys2Proof.Machine

/-! ### Faults raised inside the block -/

/-- A fault event on its way to its collector (R457, Table 20-10): kind, station, unit, class when
the source itself gives one (0 NOTE to 3 FATAL), faulting address, code. -/
structure FaultEvt where
  kind : Nat
  station : Nat
  unit : Nat
  cls : Option Nat
  addr : Nat
  code : Nat
deriving DecidableEq, Repr

/-! ### The tile (03_tile.md) -/

/-- What a pending result writes when its latency expires (R55). -/
inductive Wr where
  /-- A scalar register. -/
  | s (r : BitVec 5) (v : W64)
  /-- The masked bits of a vector register. -/
  | v (r : BitVec 5) (mask val : VReg)
  /-- The masked bits of a predicate register. -/
  | p (r : BitVec 3) (mask val : W64)
  /-- Consecutive accumulator elements, by index accumulator × 1,024 + row × 32 + column. -/
  | acc (base : Nat) (vals : List W32)
  /-- A codebook register. -/
  | b (r : BitVec 2) (v : W256)
  /-- Sticky flags reaching TSTAT (R48). -/
  | flags (f : BitVec 5)
  /-- A CRW of a control register code (R135). -/
  | cr (code : BitVec 5) (v : W64)
  /-- A completion becoming visible in a counter (R64). -/
  | done (k : BitVec 4) (code : Nat)
  /-- The masked bytes of a 256 B vector store (R132). -/
  | store (addr : Nat) (mask : BitVec 64) (val : VReg)
deriving DecidableEq, Repr

/-- A result on its way: written at the end of cycle `due`; ties are ordered by the issue cycle and
the slot (R55). -/
structure Pend where
  due : Nat
  issue : Nat
  slot : Nat
  wr : Wr
deriving DecidableEq, Repr

/-- A loop-stack entry (R101). -/
structure LoopEnt where
  start : Nat
  fin : Nat
  left : Nat
deriving DecidableEq, Repr

/-- Issue control of a tile. -/
inductive Issue where
  /-- Not launched since reset. -/
  | idle
  /-- Launched: bundle 0 issues at cycle 0 of this tide tick (R201). -/
  | waiting (tick : Nat)
  /-- Issuing bundles. -/
  | issuing
  /-- END issued (R100). -/
  | ended
  /-- Stopped by a bundle fault or a job abort (R104, R463). -/
  | stopped
deriving DecidableEq, Repr

/-- An issued matrix operation not yet retired (R60, R112). -/
structure MatOp where
  /-- W stored row by row (MMAR). -/
  rowW : Bool
  o : MA
  sx : W64
  sw : W64
  sk : W64
  sm : W64
  issue : Nat
  /-- First engine cycle F. -/
  first : Nat
  /-- Engine cycles N. -/
  cycles : Nat
  started : Bool
  /-- Codebooks latched so far, span 0 first (R62, R116). -/
  latched : List W256
  /-- Units written while the operation could read them: their old contents (R98). -/
  hazOld : List (Nat × W256)
  /-- Units written after the last engine cycle: their contents before that. -/
  hazEnd : List (Nat × W256)
deriving DecidableEq, Repr

/-- A vector access or CBLD held off by engine bank reads (R71, R111). -/
inductive Held where
  | vld (t : Nat) (addr : Nat) (r : BitVec 5) (mask : W64)
  | vst (t : Nat) (addr : Nat) (mask : W64) (val : VReg)
  | cbld (t : Nat) (addr : Nat) (r : BitVec 2)
deriving DecidableEq, Repr

/-- The kinds of move command (Table 6-2). -/
inductive MvKind where
  | tpld | tpst | msend | otxa | orxa | hbrd | hbwr | ibld | kvapp | kvgth | kvbws | note | fld | fst | fatm
deriving DecidableEq, Repr

/-- A move command accepted into the queue, its registers read at issue (R95, R136). -/
structure MoveCmd where
  id : Nat
  kind : MvKind
  k : BitVec 4
  la : W64
  rb : W64
  rc : W64
  len : Nat
  osf : BitVec 25
deriving DecidableEq, Repr

/-- A started move command whose completion is not yet recorded. -/
structure ActiveMove where
  cmd : MoveCmd
  /-- Cycle in which the engine started it. -/
  start : Nat
  /-- Code so far: the one R7 places first. -/
  code : Nat
  /-- Parts (segments, lines, packets, swells) still outstanding. -/
  left : Nat
  /-- Source data captured at the start. -/
  data : List Byte
  /-- Source data was poisoned (R72). -/
  poison : Bool
deriving DecidableEq, Repr

/-- A fence waiting for commands (R157). -/
structure FenceEnt where
  k : BitVec 4
  issue : Nat
  ids : List Nat
  code : Nat
deriving DecidableEq, Repr

/-- What ends when an inbound entry has been written. -/
inductive InFin where
  /-- More entries of the same delivery follow. -/
  | more
  /-- One part of a move command, with its code. -/
  | part (id code : Nat)
  /-- A whole move command, with its code. -/
  | cmd (id code : Nat)
  /-- A note: its receiving counter, and its code. -/
  | count (k : BitVec 4) (code : Nat)
deriving DecidableEq, Repr

/-- An entry of an inbound buffer (R71): at most 128 B on their way into the tile store. The first four of a
source stand in its buffer, the rest are held at the sender by its link credits. -/
structure InEnt where
  /-- 8 Tidepool return, 9 HBM return, 10 optical receive. -/
  src : Nat
  addr : Nat
  data : List Byte
  /-- Earliest cycle of its write: one entry of a source in a cycle. -/
  due : Nat
  fin : InFin
deriving DecidableEq, Repr

/-- One tile (Table 3-1) with the hidden state of its issue, latency and move machinery. -/
structure Tile where
  /-- Its place: dense index of the die × 256 + logical tile (TCTL TILE and STATION). -/
  key : Nat
  s : SMap W64
  v : SMap VReg
  p : SMap W64
  a : SMap W32
  b : SMap W256
  k : SMap W32
  /-- Counters that have recorded a code other than OK since the last write (R64). -/
  kcode : BitVec 16
  /-- TCTL without its read-only TILE and STATION fields. -/
  tctl : W64
  tstat : W64
  tgen : W64
  store : Mem
  /-- Check-bit state of each 8 B word of the tile store: 0 good, 1 single-bit, 2 double-bit. -/
  ecc : SMap (BitVec 2)
  ibuf : SMap W256
  ieccs : SMap (BitVec 2)
  pc : BitVec 12
  loops : List LoopEnt
  issue : Issue
  /-- Earliest cycle of the next bundle (R99). -/
  nextCyc : Nat
  /-- The tide tick in which the next bundle was reached, when that tick is over (R156). -/
  reached : Option Nat
  queue : List MoveCmd
  active : List ActiveMove
  nextId : Nat
  /-- Cycle of the last command start (R74: at most one per cycle). -/
  lastStart : Nat
  /-- The last command a full queue refused: cycle and FENCE class (R74, R157). -/
  refused : Option (Nat × Option Nat)
  fences : List FenceEnt
  pend : List Pend
  mats : List MatOp
  /-- Accumulators held by MWR and MSET: accumulator and the cycle it is clear in (R119). -/
  held : List (Nat × Nat)
  delayed : List Held
  /-- First cycle in which the vector port is free of the accesses performed so far (R70). -/
  portFree : Nat
  /-- Inbound entries not yet written, oldest first. -/
  inq : List InEnt
  /-- Last cycle this tile has seen. -/
  now : Nat
  /-- Occurrence counter of this tile's free values (the model's own field). -/
  free : Nat
  /-- Faults raised by the tile and not yet taken by its cell collector. -/
  rep : List FaultEvt
  /-- Arrivals of this tile on each barrier set: total recorded, and counters of open arrivals. -/
  barr : SMap Nat
deriving DecidableEq, Repr

/-- A tile with all registers, stores and queues as R56 leaves them. -/
def Tile.reset : Tile :=
  { key := 0, s := [], v := [], p := [], a := [], b := [], k := [], kcode := 0, tctl := 0, tstat := 0, tgen := 0, store := [], ecc := [],
    ibuf := [], ieccs := [], pc := 0, loops := [], issue := .idle, nextCyc := 0, reached := none, queue := [], active := [],
    nextId := 0, lastStart := 0, refused := none, fences := [], pend := [], mats := [], held := [], delayed := [], portFree := 0, inq := [], now := 0,
    free := 0, rep := [], barr := [] }
/-- The reset tile at a place. -/
def Tile.init (key : Nat) : Tile := { Tile.reset with key := key }

/-- A clock region of a Headland die (R190): its tide counter copy and where the tick began. -/
structure Region where
  /-- Region tide counter copy. -/
  tick : Nat
  /-- Region cycle at which the copy last rose: cycle 0 of the tick. -/
  tick0 : Nat
  /-- The region has loaded a beacon since reset (R192). -/
  synced : Bool
  /-- Cycles stretched in the current tick, and since reset (R436, R437). -/
  stretched : Nat
  /-- The beacon value waiting to be loaded at tick 0 (R191). -/
  beacon : Option Nat
deriving DecidableEq, Repr

def Region.reset : Region := { tick := 0, tick0 := 0, synced := false, stretched := 0, beacon := none }

/-- A link transfer or an inbound write on its way to a tile. -/
structure LinkMsg where
  die : Nat
  src : Nat
  dst : Nat
  link : Nat
  addr : Nat
  data : List Byte
  poison : Bool
  rk : BitVec 4
  /-- Bytes its link moves in a cycle: 128 on mesh, 32 on express. -/
  width : Nat
  /-- Sender's cycle at whose end the next part can be written, and the last (R77). -/
  due : Nat
  last : Nat
  /-- The sender's command. -/
  id : Nat
deriving DecidableEq, Repr

/-- A barrier set's open arrivals: generation, member and counter (R159). -/
structure BarrEnt where
  gen : Nat
  tile : Nat
  k : BitVec 4
deriving DecidableEq, Repr

/-- Hidden state of a Headland die outside its registers and tiles. -/
structure Die where
  /-- Tide tick of the first bundle fault recorded in HDL_BFAULT_LOG (R106). -/
  bfTick : Nat
  /-- A job runs on the die: launched and not yet finished (R100, R160). -/
  running : Bool
  /-- The die's copies of the role epoch, its role and its slot (R280, R281). -/
  epoch : Nat
  role : Nat
  slot : Nat
deriving DecidableEq, Repr

def Die.reset : Die := { bfTick := 0, running := false, epoch := 0, role := 0, slot := 31 }

/-! ### Packets and what the Harbour station's accesses serve -/

/-- A fabric packet: the fields of Table 14-1 but PLANE and CRC, and the payload without padding. -/
structure Pkt where
  typ : Nat
  vc : Nat
  dst : Nat
  src : Nat
  attempt : Nat
  last : Bool
  flow : Nat
  pathEpoch : Nat
  pmask : Nat
  seq : Nat
  off : Nat
  plen : Nat
  epoch : Nat
  role : Nat
  aop : Nat
  w64 : Bool
  code : Nat
  midx : Nat
  req : Nat
  data : List Byte
deriving DecidableEq, Repr

/-- What an access of the Harbour station to HBM serves (R261). -/
inductive HrbOp where
  /-- BAR2_READ: port, address, bytes (R372). -/
  | bar2Read (port pa len : Nat)
  /-- BAR2_WRITE (R372). -/
  | bar2Write (port : Nat)
  /-- The source read and the destination write of a Ferry burst: channel and offset (R387). -/
  | fryRead (ch off : Nat)
  | fryWrite (ch off : Nat)
  /-- The access of an inbound fabric request at its target: plane and packet; the second access of an atomic holds the
  old value (R346, R347, R351). -/
  | target (plane : Nat) (pkt : Pkt)
  | atomic (plane : Nat) (pkt : Pkt) (old : Nat)
  /-- The source read of a FAB_DIRECT (operation, node, AOP, W64, LEN, OFFSET, BUF), and the landing of its data: command
  (R331). -/
  | directRead (op node aop : Nat) (w64 : Bool) (len off buf : Nat)
  | directLand (cid : Nat)
  /-- Nothing waits for it any more. -/
  | gone
deriving DecidableEq, Repr

/-! ### Tidepool and HBM (07_tidepool.md, 11_hbm_shingle.md) -/

/-- A Tidepool line (Table 7-1): data, sector masks, MOOR, POISON, and the state of its array check
bits (0 good, 1 single-bit, 2 uncorrectable). A line with no valid sector is absent, but for a moored one that is to be
fetched again (R171). -/
structure TLine where
  data : BitVec 4096
  valid : BitVec 16
  dirty : BitVec 16
  moor : Bool
  poison : Bool
  err : Nat
deriving DecidableEq, Repr
def TLine.absent : TLine := { data := 0, valid := 0, dirty := 0, moor := false, poison := false, err := 0 }

/-- The part of a TPLD that one line serves: first sector, sectors, tile-store address, and the hint; or, with `kv`, the
sectors that a KV command with UNIT = 0 waits for. -/
structure LinePart where
  tile : Nat
  id : Nat
  lo : Nat
  n : Nat
  addr : Nat
  hint : Nat
  kv : Bool
deriving DecidableEq, Repr

/-- A line fetch in flight (R168), by its number: sectors `lo` to `lo` + `n` − 1, of which those of `want` are to be
installed (none for an access past a full set) but for those written since by a TPST; the data when it has come back,
its code, and the waiting commands. -/
structure Fill where
  uid : Nat
  die : Nat
  line : Nat
  lo : Nat
  n : Nat
  want : BitVec 16
  written : BitVec 16
  data : List Byte
  back : Bool
  code : Nat
  waiters : List LinePart
deriving DecidableEq, Repr

/-- Hidden state of one die's coupler and Tidepool. -/
structure Coupler where
  /-- Failed lane groups, up and down (0–543; spares from 512) (R176, R180). -/
  failUp : List Nat
  failDn : List Nat
  /-- Lane groups already mapped onto spares (R181). -/
  mapped : List Nat
  /-- The failed sets changed and the map is due for rebuilding at slack water (R178, R180). -/
  rebuild : Bool
  /-- Delay taps and measured offsets, by direction × 1,024 + lane group (R184). -/
  tap : SMap Nat
  offset : SMap Nat
  /-- Governing temperature at the last recalibration (R186). -/
  calTemp : Nat
  /-- The rate detector asked for a recalibration (R252). -/
  calReq : Bool
  /-- Transfer errors met by the next line transfers of a direction: lane group (down groups from 1,024) and attempts
  that fail; 0 attempts is a corrected single-bit error (R178). -/
  upsets : List (Nat × Nat)
  /-- The maintenance operation in progress: its OP, INCL_MOORED, the lines not yet handled, its outcome so far (R170). -/
  maint : Option (Nat × Bool × List Nat × Nat)
  /-- Lines unmoored in a cycle of a region, for moors of the same cycle: region, cycle, lines (R169). -/
  unmoored : Nat × Nat × List Nat
  /-- Writes of TPSTs not yet completed: tile, command, line, its sectors, the line as it was (R175). -/
  undo : List (Nat × Nat × Nat × BitVec 16 × TLine)
  /-- The Harbour directs a retraining: retention precedes it (R173). -/
  retrain : Bool
  /-- Width last published, for the Strandline record (R181). -/
  width : Nat
deriving DecidableEq, Repr
def Coupler.reset : Coupler :=
  { failUp := [], failDn := [], mapped := [], rebuild := false, tap := [], offset := [], calTemp := 0, calReq := false,
    upsets := [], maint := none, unmoored := (0, 0, []), undo := [], retrain := false, width := 0 }

/-- A memory-channel message (Table 11-2), or a queued request or response not yet wholly sent: `off`
is the first unit still to be sent. `bad` marks poisoned units. -/
structure MMsg where
  typ : Nat
  rid : Nat
  code : Nat
  pa : Nat
  len : Nat
  off : Nat
  stream : Nat
  kvop : Nat
  data : List Byte
  bad : List Bool
deriving DecidableEq, Repr

/-- Where a memory request's outcome goes. -/
inductive MDest where
  /-- A move command of a tile: tile, command, tile-store address. -/
  | tile (tile id addr : Nat)
  /-- A Tidepool fill, by its number. -/
  | fill (uid : Nat)
  /-- A Tidepool write-back of a line. -/
  | wback (line : Nat)
  /-- An access of the Harbour station. -/
  | hrb (op : HrbOp)
deriving DecidableEq, Repr

/-- A memory-channel request of a Headland station or the Harbour station (R262, R265), by a number of its own: waiting
in its port, without an RID, or outstanding. -/
structure MemReq where
  uid : Nat
  q : Nat
  k : Nat
  rid : Nat
  kind : Nat
  pa : Nat
  len : Nat
  /-- The bytes an access smaller than its units means: offset and count (R372). -/
  meant : Option (Nat × Nat)
  dest : MDest
  /-- KV: tile and stream, for the order of R271. -/
  stream : Nat
  /-- Wall count at issue. -/
  wall : Nat
  /-- Segments received: first unit and units. -/
  seen : List (Nat × Nat)
  code : Nat
  /-- Data and poison marks of a Harbour read. -/
  data : List Byte
  bad : List Bool
  /-- Its request swell has failed in delivery and makeup (R265). -/
  doomed : Bool
deriving DecidableEq, Repr

/-- A request in a Shingle (R263, R264, R270): for a write or a KV command the data received so far, for a read the data
as it stood at the arrival. -/
structure ShgJob where
  k : Nat
  q : Nat
  msg : MMsg
  /-- Wall count at arrival. -/
  wall : Nat
  /-- Segments received: first unit and units. -/
  seen : List (Nat × Nat)
deriving DecidableEq, Repr

/-- Hidden state of a Shingle die. -/
structure Shg where
  /-- Requests complete with TARGET_LOST until a swap names the station (R275, R276). -/
  lost : Bool
  /-- Generation of the storage key (R268); 0 before any key. -/
  key : Nat
  /-- Refresh band evaluated at tick 1,008, taking effect in the quiet ticks (R272). -/
  bandNext : Nat
  /-- A corrected block that the scrub has read and not yet rewritten, with its data and form, and whether a write has
  reached it since (R274). -/
  scrub : Option (Nat × List Byte × Bool)
  scrubHit : Bool
deriving DecidableEq, Repr
def Shg.reset : Shg := { lost := false, key := 0, bandNext := 0, scrub := none, scrubHit := false }

/-- What disturbs a stored block (R268): an error that the on-die code corrects, and the symbols of its 72 that differ
from what was written, by place and difference. -/
structure BlkErr where
  onDie : Bool
  syms : List (Nat × Nat)
deriving DecidableEq, Repr
def BlkErr.none : BlkErr := { onDie := false, syms := [] }

/-- A KV command that a Tidepool executes (R305): its tile and number, region of the tile, operation, stream, base, data,
poison marks; sectors read past a full set, by unit address; fetches it waits for; its code so far. -/
structure KvJob where
  die : Nat
  tile : Nat
  id : Nat
  kvop : Nat
  stream : Nat
  base : Nat
  data : List Byte
  bad : List Bool
  buf : List (Nat × List Byte × Bool)
  waits : Nat
  code : Nat
deriving DecidableEq, Repr

/-- A header written by a KV command of a Shingle: stack, requester, identifier, base, and the block before and after. -/
structure KvUndo where
  k : Nat
  q : Nat
  rid : Nat
  base : Nat
  old : List Byte
  new : List Byte
deriving DecidableEq, Repr

/-- An access of the Harbour station that has ended: what it serves, its code, the data read and the poison of each unit. -/
structure HrbEnd where
  op : HrbOp
  code : Nat
  data : List Byte
  bad : List Bool
deriving DecidableEq, Repr

/-! ### Tide schedule and Harene crossbar (08_tide_schedule.md, 09_harene_crossbar.md) -/

/-- Progress of an optical arm. -/
inductive ArmPhase where
  /-- Registered, its slot not yet decided. -/
  | armed
  /-- Handover complete by the cut-off. -/
  | ready
  /-- Marked MISSED at the cut-off. -/
  | missed
  /-- Data swell sent. -/
  | sent (told : Bool)
  /-- Null swell sent, or the slot failed at the receiver; `told` once MISSED is recorded. -/
  | failed (told : Bool)
  /-- Makeup sent in a tick. -/
  | made (tick : Nat)
deriving DecidableEq, Repr

/-- An armed transmit slot (R143). -/
structure TxArm where
  tick : Nat
  wg : Nat
  tile : Nat
  id : Nat
  addr : Nat
  start : Nat
  data : List Byte
  bad : List Bool
  deferred : Bool
  phase : ArmPhase
deriving DecidableEq, Repr

/-- An armed drop-port slot (R144). -/
structure RxArm where
  tick : Nat
  dp : Nat
  tile : Nat
  id : Nat
  addr : Nat
  deferred : Bool
  phase : ArmPhase
deriving DecidableEq, Repr

/-- A failed slot of this cycle, as a report lists it (Table 8-8), and the station that reports it. -/
structure FailEnt where
  sstn : Nat
  swg : Nat
  tick : Nat
  dport : Nat
  dst : Nat
deriving DecidableEq, Repr

/-- A swell on the layer (Table 9-3); SSTN and DST are station IDs. -/
structure Swell where
  kind : Nat
  missed : Bool
  sstn : Nat
  swg : Nat
  dst : Nat
  dport : Nat
  tick : Nat
  tag : Nat
  bad : List Bool
  payload : List Byte
deriving DecidableEq, Repr

/-- A note queued at a station (R148 to R150, R208). -/
structure NoteMsg where
  /-- Sender and receiver dense indices. -/
  src : Nat
  dst : Nat
  tile : Nat
  id : Nat
  role : Nat
  epoch : Nat
  dest : Nat
  data : List Byte
  poison : Bool
  /-- Note swells carrying it that failed. -/
  tries : Nat
  /-- The cycle's note tick, plus one, in which it was sent and not yet judged; 0 when not sent. -/
  sent : Nat
  /-- A ROLE_MOVED reply: the record (Table under R150). -/
  reply : Option Nat
deriving DecidableEq, Repr

/-- The beacon of a cycle (Table 8-9). -/
structure BeaconMsg where
  tick0 : Nat
  wall0 : Nat
  swap : Nat
  turn : Nat
  idleNext : Bool
  pwr : Nat
  opt : Nat
  level : Nat
deriving DecidableEq, Repr

/-- One station's schedule state, by dense index q (Table 9-1). -/
structure Stn where
  bufA : Mem
  bufB : Mem
  /-- Some buffer is active (R197). -/
  hasActive : Bool
  tx : List TxArm
  rx : List RxArm
  /-- Slots of this cycle that failed here (R204). -/
  fails : List FailEnt
  /-- The report it sent, and a bit for each tick it has sent in: its report ticks (1, 2 and 4) and beacon ticks (8, 16). -/
  report : List FailEnt
  told : Nat
  /-- Slots, and makeup ticks, in which a swell arrived: tick and drop port. -/
  got : List (Nat × Nat)
  /-- Swells of this cycle kept for makeup (R262). -/
  kept : List Swell
  /-- A report swell of this cycle was not received (R207). -/
  noReport : Bool
  /-- The beacon received this cycle; copies that failed. -/
  beacon : Option BeaconMsg
  badCopies : Nat
  /-- A swap announced to this station, and whether it is a role turn (R209). -/
  swapAnn : Bool
  turnAnn : Bool
  /-- Optical mode its serializers run in, and the one its last beacon names (R222): 1 is Calm. -/
  opt : Nat
  optTo : Nat
  /-- Link to the layer is up: the die is out of reset and its serializers are locked. -/
  up : Bool
deriving DecidableEq, Repr
def Stn.reset : Stn :=
  { bufA := [], bufB := [], hasActive := false, tx := [], rx := [], fails := [], report := [], told := 0, got := [], kept := [],
    noReport := false, beacon := none, badCopies := 0, swapAnn := false, turnAnn := false, opt := 0, optTo := 0, up := true }

/-- A swap request (R201): stations by dense index, role turn, and the modes byte when it starts a plan. -/
structure SwapReq where
  stations : List Nat
  turn : Bool
  modes : Option Nat
deriving DecidableEq, Repr

/-- A latched swap: the request, and the role, slot and RESTART of each rank as they were at the latch (R282). -/
structure SwapHeld where
  req : SwapReq
  map : List (Nat × Nat × Bool)
deriving DecidableEq, Repr

/-- Module-level schedule state of the Harbour die. -/
structure Tide where
  /-- The dividers are aligned and the counts run (R189, R433). -/
  aligned : Bool
  /-- The first reference tick edge after alignment has passed. -/
  started : Bool
  /-- Swaps requested, oldest first, and the one latched. -/
  swapReqs : List SwapReq
  swapLatched : Option SwapHeld
  /-- Modes the next active cycle runs. -/
  pwrNext : Nat
  optNext : Nat
  /-- Every tide cycle is idle while jobs are parked (R428). -/
  parked : Bool
  /-- Makeup assignment of this cycle (R205): makeup tick and failure. -/
  assign : List (Nat × FailEnt)
  /-- A requested, and a latched, module role change: role, forwarding rank (R293). -/
  mroleReq : Option (Nat × Nat)
  mroleLatched : Option (Nat × Nat)
  /-- Announced bundle maps: bundle, SPARE_FOR, SPARE_USE, EFFECT (R231). -/
  maps : List (Nat × Nat × Nat × Nat)
  /-- Table load in progress: dense index, buffer B, image poisoned (R200). -/
  load : Option (Nat × Bool × Bool)
  /-- Beacon of the cycle as sent. -/
  beacon : Option BeaconMsg
deriving DecidableEq, Repr
def Tide.reset : Tide :=
  { aligned := false, started := false, swapReqs := [], swapLatched := none, pwrNext := 1, optNext := 0, parked := false,
    assign := [], mroleReq := none, mroleLatched := none, maps := [], load := none, beacon := none }

/-- What the block sends out of itself, in order. -/
inductive Out where
  /-- An MSI-X message: port and vector (R374). -/
  | msix (port vector : Nat)
  /-- A probe burst of an open fibre port (R256). -/
  | probe (port : Nat)
  /-- An error reported through AER (Table 16-4): 0 fatal internal error, 1 unsupported request, 2 completer
  abort, 3 poisoned TLP received, 4 completion timeout. -/
  | aer (port err : Nat)
  /-- A write to a host's memory, with EP set when poisoned. -/
  | hostWrite (port addr : Nat) (data : List Byte) (ep : Bool)
  /-- A value returned to a reader: a register, a BAR2 read, an SMBus reply. -/
  | reply (data : List Byte) (poison : Bool)
  /-- A read that completes with an error code (R375). -/
  | replyError (code : Nat)
  /-- Bytes sent on a fabric port. -/
  | fabric (plane : Nat) (data : List Byte)
  /-- A receive buffer unit's credit returned to a switch plane. -/
  | credit (plane vc : Nat)
  /-- A twin frame: port, kind, fields. -/
  | twin (port kind : Nat) (data : List Byte)
  /-- A twin frame with a payload: port, type, header bytes 0 to 11, what the payload says, and whether a drill has
  corrupted it. -/
  | twinItem (port kind : Nat) (head : List Byte) (item : TwinItem) (bad : Bool)
  /-- SMB_ALERT_N: a new fault record or a Breakwater trip (Table 1-6). -/
  | alert
  /-- Bytes written to a service card file. -/
  | card (file : Nat) (data : List Byte)
deriving DecidableEq, Repr

/-! ### Light sources and calibration (10_light_and_calibration.md) -/

/-- Hidden state of a comb source. -/
structure Src where
  /-- Lowest line fades of the last second, newest first, in 0.01 dB (R242). -/
  hist : List Int
  /-- It served a position, or was READY, before a Becalmed entry (R241). -/
  served : Bool
  /-- Wall count at which its SWAP_DUE was set (R244), and whether it is below −2.0 dB with no spare on the way (R243). -/
  dueAt : Nat
  alone : Bool
  /-- Wall counts in LIT, STANDBY or READY short of an hour, and the wall count up to which they are counted (R258). -/
  litTicks : Nat
  litSince : Nat
  /-- Commissioning levels of its lines, in the flash commissioning tables (R254). -/
  levels : List Nat
deriving DecidableEq, Repr
def Src.reset : Src :=
  { hist := [], served := false, dueAt := 0, alone := false, litTicks := 0, litSince := 0, levels := [] }

/-- A switchover wanted or running on a bundle (R231 to R233). -/
structure Careen where
  bundle : Nat
  pos : Nat
  /-- Tide counter value from which the map applies. -/
  effect : Nat
  /-- The map has been applied. -/
  applied : Bool
  /-- Its return has been announced; it is abandoned and returns with the next switchover (R233). -/
  back : Bool
  cut : Bool
deriving DecidableEq, Repr

/-- Light and ring calibration of the module. -/
structure Light where
  srcs : SMap Src
  /-- Spare reserved for a source (R244): spare and source. -/
  reserved : List (Nat × Nat)
  /-- Spares brought to full output for a swap: spare, source served, wall count of full output. -/
  raising : List (Nat × Nat × Nat)
  /-- Positions without light (R246). -/
  darkPos : List Nat
  /-- Dark logical waveguides: bundle and position (R233). -/
  darkWg : List (Nat × Nat)
  /-- Quarantined waveguides awaiting a switchover: bundle and position (R233). -/
  quar : List (Nat × Nat)
  careens : List Careen
  /-- Positions still to be calibrated, while a recalibration runs (R251). -/
  todo : List (Nat × Nat)
  /-- A recalibration has been requested. -/
  request : Bool
  /-- A rate detector has tripped since the last tick 1,008. -/
  tripped : Bool
  /-- Reference temperature, bias band and target band of each station. -/
  ref : SMap Nat
  band : SMap Nat
  bandTo : SMap Nat
  /-- Ring sets without lock: station, source station, waveguide (dense indices); a station's own
  waveguide is its modulators. -/
  lost : List (Nat × Nat × Nat)
  /-- Last Brisk traffic of each bundle: corrected and received symbols per millisecond, newest first. -/
  sym : SMap (List (Nat × Nat))
  /-- Stations that have missed an announced map write not yet applied, and those that keep an old map: station and
  bundle, and the old SPARE_FOR and SPARE_USE (R231). -/
  missed : List (Nat × Nat)
  stale : List (Nat × Nat × Nat × Nat)
  /-- An inserted cartridge emits no light until the next module reset (R253). -/
  noLight : Bool
deriving DecidableEq, Repr
def Light.reset : Light :=
  { srcs := [], reserved := [], raising := [], darkPos := [], darkWg := [], quar := [], careens := [], todo := [],
    request := false, tripped := false, ref := [], band := [], bandTo := [], lost := [], sym := [], missed := [], stale := [], noLight := false }

/-! ### Sampler (13_speculation_sampling.md) -/

/-- A record in the sampler intake (Table 13-4). -/
structure SRec where
  kind : Nat
  stream : Nat
  step : Nat
  node : Nat
  slice : Nat
  nslice : Nat
  part : Nat
  last : Bool
  body : List Byte
  /-- Sending station. -/
  sstn : Nat
  poison : Bool
deriving DecidableEq, Repr

/-- A node context of the intake (R309): parts held, as slice, part and LAST; candidates as token and
logit code. -/
structure NodeCtx where
  node : Nat
  nslice : Nat
  parts : List (Nat × Nat × Bool)
  cands : List (Nat × Nat)
  /-- Every token a slice of the node has brought. -/
  seen : List Nat
  poison : Bool
deriving DecidableEq, Repr

/-- One stream's hidden sampler state. -/
structure Smp where
  /-- The open step's tree: token and parent of each node; empty while no step is open. -/
  tree : List (Nat × Nat)
  treePoison : Bool
  ctxs : List NodeCtx
  /-- The step met a context shortage. -/
  short : Bool
  /-- Active tide cycles since the first record of the step. -/
  cycles : Nat
  /-- Latest closed result record; empty while there is none (R315). -/
  result : List Byte
  /-- Token records waiting for ring space (R317), or for the twin's acknowledgement (R503). -/
  waiting : List (List Byte)
deriving DecidableEq, Repr
def Smp.reset : Smp :=
  { tree := [], treePoison := false, ctxs := [], short := false, cycles := 0, result := [], waiting := [] }

/-! ### Rack fabric (14_rack_fabric.md, 15_fabric_memory_semantics.md) -/

/-- A request packet of a command, from its start to its acknowledgement. -/
structure FabPkt where
  cid : Nat
  pkt : Pkt
  /-- Replica entry it was aimed under (R362). -/
  repl : Option Nat
  /-- It has its REQ_ID (atomics). -/
  named : Bool
  /-- Waiting to be sent, or sent again. -/
  queued : Bool
  /-- Wall count of the last sending, or of the detour that restarted its timer. -/
  sent : Option Nat
deriving DecidableEq, Repr

/-- A fabric command whose packets are not all acknowledged. -/
structure FabCmd where
  cid : Nat
  flow : Nat
  rank : Nat
  typ : Nat
  /-- Die, tile and move command; none for FAB_DIRECT or after a reset of the die. -/
  tile : Option (Nat × Nat × Nat)
  direct : Bool
  /-- Local range: tile-store address, or HBM address for FAB_DIRECT. -/
  addr : Nat
  code : Nat
  /-- The reply record of R294 has been written. -/
  replied : Bool
  /-- Bytes of the local range that returned data may fill. -/
  room : Nat
  /-- Writes of returned data into HBM that have not ended (FAB_DIRECT). -/
  landing : Nat
  /-- Fabric address and code of the first packet that failed with a code FAB_REQLOG records (R368). -/
  first : Option (Nat × Nat)
deriving DecidableEq, Repr

/-- A packet bound for a port outside the flows: plane and packet. -/
abbrev FabOut := Nat × Pkt

/-- An inbound context (R335): highest sequence number seen and the applied ones of its window. -/
structure InCtx where
  node : Nat
  flow : Nat
  top : Nat
  done : List Nat
deriving DecidableEq, Repr

/-- A reply cache entry (R358), with the wall count of its answer. -/
structure Reply where
  node : Nat
  req : Nat
  flow : Nat
  seq : Nat
  code : Nat
  old : Nat
  wall : Nat
deriving DecidableEq, Repr

/-- A packet held back by a Squall drill: plane, bytes, packets still to overtake it, wall count. -/
structure SquallHold where
  plane : Nat
  data : List Byte
  left : Nat
  since : Nat
deriving DecidableEq, Repr

/-- Hidden state of the fabric ports. -/
structure Fab where
  cmds : List FabCmd
  pkts : List FabPkt
  nextCid : Nat
  /-- Next REQ_ID, and the wall count of each one's last sending (R357). -/
  nextReq : Nat
  reqSent : SMap Nat
  outq : List FabOut
  /-- Send credits, and receive units not yet returned, by plane × 4 + VC (R326). -/
  credits : SMap Nat
  held : SMap Nat
  /-- All eight lanes of a plane's link hold lock. -/
  link : List Nat
  /-- Wall counts of flow detours away from each plane in the last 1 ms (R336). -/
  detours : SMap (List Nat)
  /-- Flows whose plane went DOWN and that have not detoured yet; flows that may return home. -/
  downFlows : List Nat
  mayReturn : List Nat
  ctxs : List InCtx
  cache : List Reply
  /-- Atomics at this target, in arrival order: plane, packet, and whether its access runs (R356). -/
  atoms : List (Nat × Pkt × Bool)
  /-- Wall count at which QUIET ends. -/
  quiet : Nat
  /-- Squall: packets held back, and the wall count of the drill's start. -/
  squall : List SquallHold
  squallAt : Nat
  /-- Draws of the drill's Philox stream made since its start (R342). -/
  draws : Nat
deriving DecidableEq, Repr
def Fab.reset : Fab :=
  { cmds := [], pkts := [], nextCid := 0, nextReq := 0, reqSent := [], outq := [], credits := [], held := [], link := [],
    detours := [], downFlows := [], mayReturn := [], ctxs := [], cache := [], atoms := [], quiet := 0, squall := [], squallAt := 0, draws := 0 }


/-! ### Host ports and Ferry (16_host_ports_ferry.md) -/

/-- One port's function outside its registers: its MSI-X table masks and pending bits, and the
configuration-space bits the block acts on (R374, R379). -/
structure Port where
  mask : BitVec 256
  pend : BitVec 256
  funcMask : Bool
  enable : Bool
  busMaster : Bool
  /-- Base-2 logarithm of the BAR2 size, 30 to 41. -/
  bar2Log : Nat
  /-- Wall count at which the link last went down. -/
  downAt : Nat
deriving DecidableEq, Repr
/-- Vectors masked, MSI-X and bus mastering off, as the PCIe base specification resets them (log 29). -/
def Port.reset : Port :=
  { mask := BitVec.allOnes 256, pend := 0, funcMask := false, enable := false, busMaster := false, bar2Log := 41, downAt := 0 }

/-- A burst in flight: its offset and length; the source data once it has been read, with poison marks; and whether its
write runs (R386, R387). -/
structure FryBurst where
  off : Nat
  len : Nat
  data : Option (List Byte × List Bool)
  writing : Bool
deriving DecidableEq, Repr

/-- A running Ferry descriptor (Table 16-6). -/
structure FryDesc where
  src : Nat
  dst : Nat
  len : Nat
  /-- Side, FIX and FW of source and destination. -/
  ss : Nat
  sfix : Bool
  sfw : Nat
  ds : Nat
  dfix : Bool
  dfw : Nat
  irq : Bool
  tag : Nat
  index : Nat
  /-- Bytes whose bursts have started. -/
  next : Nat
  /-- Bursts in flight. -/
  bursts : List FryBurst
  written : Nat
  code : Nat
  fault : Nat
  /-- No further burst starts. -/
  stop : Bool
deriving DecidableEq, Repr

/-- Hidden state of a Ferry channel. -/
structure Fry where
  /-- Phase of the completion queue (R381). -/
  phase : Bool
  cur : Option FryDesc
  /-- A record held by a full queue: its bytes, and whether its vector is signalled. -/
  held : Option (List Byte × Bool)
deriving DecidableEq, Repr
def Fry.reset : Fry := { phase := true, cur := none, held := none }

/-! ### Rings, jobs and mailboxes (17_rings_mailboxes.md, 20_faults_breakwater.md) -/

/-- A submission entry taken and not yet completed (Table 17-2). -/
structure Taken where
  idx : Nat
  opcode : Nat
  tag : Nat
  param : Nat
  stream : Nat
  started : Bool
  /-- Code and DETAIL once its work has ended. -/
  done : Option (Nat × Nat)
deriving DecidableEq, Repr

/-- Hidden state of a ring pair. -/
structure Ring where
  taken : List Taken
  /-- Streams it started that still belong to it (R398). -/
  streams : List Nat
  /-- Last heartbeat word read. -/
  lastHb : Nat
  /-- The ring has been enabled since the last MOD (R408). -/
  used : Bool
  /-- Index, tail and RUNNING as the header's snapshot last recorded them (R395). -/
  snap : Nat × Nat × Nat
deriving DecidableEq, Repr
def Ring.reset : Ring := { taken := [], streams := [], lastHb := 0, used := false, snap := (0, 0, 0) }

/-- How far a job has come (R401, R463). -/
inductive JobPhase where
  /-- Its swap is requested and not yet latched. -/
  | requested
  /-- Its swap is latched and has not taken effect. -/
  | latched
  | running
  /-- It is aborting; with `afterSwap` a latched swap takes effect before step 4 of R463 (R464). -/
  | aborting (afterSwap : Bool)
deriving DecidableEq, Repr

/-- A job: a plan launched from a ring, or taken over by a twin. -/
structure Job where
  /-- Ring instance and submission index; none for a plan taken over. -/
  ring : Option (Nat × Nat)
  plan : Nat
  /-- Headland dies that run it, and stations whose tables it loaded (dense indices). -/
  dies : List Nat
  stations : List Nat
  phase : JobPhase
  /-- Wall count at which its abort began. -/
  since : Nat
deriving DecidableEq, Repr

/-! ### Firmware complex (18_mousk_firmware.md) -/

/-- Hidden state of the firmware complex. -/
structure Fw where
  /-- Shared SRAM outside the note queues, by offset (Table 18-3): the images; kernel data stays free for cores. -/
  sram : Mem
  /-- M_PLAIN of the installed runtime image; empty while none is installed. -/
  rtPlain : List Byte
  /-- Address a runtime load in progress was given. -/
  rtAddr : Nat
  /-- Note channels: queued 256 B slots, oldest first; channels whose owner has opened them (R430). -/
  chans : SMap (List (List Byte))
  opened : List Nat
  /-- Wall counts of each core's stops, newest first (R425). -/
  stops : SMap (List Nat)
  /-- Wall count at which a core stopped. -/
  since : SMap Nat
  /-- S0 failed its reset self-test (R418). -/
  s0Bad : Bool
  /-- Slot the flash boot record names: B when set (R418). -/
  bootSlot : Bool
  /-- Supervisor: 0 running or not started, 1 stopped, 2 reset with the Boot ROM due, 3 rebuilding its state,
  4 held stopped. -/
  phase : Nat
  /-- Wall counts of failed supervisor restarts (R429). -/
  supFails : List Nat
deriving DecidableEq, Repr
def Fw.reset : Fw :=
  { sram := [], rtPlain := [], rtAddr := 0, chans := [], opened := [], stops := [], since := [], s0Bad := false,
    bootSlot := false, phase := 0, supFails := [] }

/-! ### Clocks, power and temperature (19_clocks_power_thermal.md); reset (21_reset_and_retention.md) -/

/-- Hidden state of power, clocks and temperature sensing. Temperatures are in 0.1 °C. -/
structure Pwr where
  /-- Bus samples of the last 1 ms, newest first: wall count, 10 mV units, 10 mA units (R438). -/
  samples : List (Nat × Nat × Nat)
  /-- Consecutive governor evaluations below 95 % of the limit (R439). -/
  below : Nat
  /-- Stations (dense indices) whose core, serializer or HBM PLL is out of lock (R433). -/
  coreOut : List Nat
  serOut : List Nat
  hbmOut : List Nat
  /-- Excluded sensors of each die by fuse index, one bit each (R449). -/
  excl : SMap Nat
  /-- Hottest sensor of each die not excluded, by fuse index; 65 is the laser cartridge. -/
  own : SMap Nat
  /-- Ring-derived, and governing, temperature of each station. -/
  ring : SMap Nat
  gov : SMap Nat
  /-- Consecutive samples at which a Headland's estimate exceeded its own reading by over 8 °C (R451). -/
  run : SMap Nat
  /-- Wall count until which a station samples at 20 kHz after a rate trip (R448). -/
  fastTo : SMap Nat
  /-- Dies left without a sensor, by fuse index (R449). -/
  blind : List Nat
  /-- The low-power state on the way is Becalmed. -/
  becalmed : Bool
  /-- An entry has been carried out and no exit yet. -/
  asleep : Bool
deriving DecidableEq, Repr
def Pwr.reset : Pwr :=
  { samples := [], below := 0, coreOut := [], serOut := [], hbmOut := [], excl := [], own := [], ring := [], gov := [],
    run := [], fastTo := [], blind := [], becalmed := false, asleep := false }

/-- Reset pins and events in progress. -/
structure Rst where
  /-- The Harbour standby converter runs (R480). -/
  powered : Bool
  /-- A MOD is asserted and not yet released. -/
  held : Bool
  /-- The next release runs in POR form. -/
  por : Bool
  /-- Dies in DIE reset (dense indices): wall count of the assertion, and whether HOLD keeps it (R477). -/
  dies : SMap (Nat × Bool)
  /-- Headland dies held until MOD after a fuse mismatch (R485). -/
  bad : List Nat
  /-- SMB_ADDR_SEL is tied to ground: address 0x59 instead of 0x58 (R15). -/
  addrSel : Bool
  /-- SMBus replies last measured, by command code (R453). -/
  smbus : SMap (List Byte)
deriving DecidableEq, Repr
def Rst.reset : Rst := { powered := true, held := true, por := true, dies := [], bad := [], addrSel := false, smbus := [] }

/-! ### Fault collection and Breakwater (20_faults_breakwater.md) -/

/-- A source instance away from rest (R458). -/
structure FltInst where
  kind : Nat
  station : Nat
  unit : Nat
  base : Nat
  cls : Nat
  count : Nat
  /-- A window is open, and the wall count at which it closes. -/
  window : Bool
  close : Nat
  /-- Its quarantine has been carried out (R462). -/
  quar : Bool
deriving DecidableEq, Repr

/-- A fault record (Table 20-10) on its way up: its 32 B image, level and station. -/
structure FltRec where
  level : Nat
  station : Nat
  /-- Block or region within the die. -/
  child : Nat
  data : List Byte
deriving DecidableEq, Repr

/-- Hidden state of fault collection and Breakwater. -/
structure Flt where
  insts : List FltInst
  /-- Records buffered in the collectors, oldest first (R457). -/
  recs : List FltRec
  /-- The record queue's memory, by slot. -/
  queue : SMap (List Byte)
  /-- Wall counts of each Breakwater channel's disagreements in the last second (R467). -/
  disagree : SMap (List Nat)
  /-- Quarantine list of the Strandline record: kind, station, unit (R462). -/
  quarList : List (Nat × Nat × Nat)
  /-- Dies that a row without a spare keeps from launching until MOD (R462). -/
  noSpare : List Nat
  /-- Failed tiles whose row shift waits: row instance and physical position (R80). -/
  pendRows : List (Nat × Nat)
deriving DecidableEq, Repr
def Flt.reset : Flt := { insts := [], recs := [], queue := [], disagree := [], quarList := [], noSpare := [], pendRows := [] }

/-! ### Twin (22_twin.md) -/

/-- A DELTA or BULK frame sent and not yet acknowledged: DSEQ, type, item, port, wall count of its sending. -/
structure TwinSent where
  dseq : Nat
  typ : Nat
  item : TwinItem
  port : Nat
  at_ : Nat
deriving DecidableEq, Repr

/-- An open delta (R501): the stream, its step, registered regions whose gather has not been reported, and the
items of Table 22-3 gathered so far and captured at the close. -/
structure OpenDelta where
  stream : Nat
  step : Nat
  need : List Nat
  gathers : List TwinItem
  rest : List TwinItem
deriving DecidableEq, Repr

/-- Token records of a step that wait for the twin's acknowledgement (R503): the DSEQ that follows its sealed
delta, once sealed. -/
structure TwinGate where
  stream : Nat
  step : Nat
  recs : List (List Byte)
  upTo : Option Nat
deriving DecidableEq, Repr

/-- A KVGTH that a Shingle has carried out on a region: requester, identifier, stack, stream, base, old BERM, n
and bytes per entry; `told` once its KVDONE has come. -/
structure Gather where
  q : Nat
  rid : Nat
  k : Nat
  stream : Nat
  base : Nat
  berm : Nat
  n : Nat
  size : Nat
  told : Bool
deriving DecidableEq, Repr

/-- A token record in a host ring that the host may not have consumed (R502). -/
structure RingRec where
  stream : Nat
  ring : Nat
  idx : Nat
  seq : Nat
  data : List Byte
deriving DecidableEq, Repr

/-- A frame a drill holds back: port, frames still to overtake it, wall count, and what is then sent. -/
structure TwinHeld where
  port : Nat
  left : Nat
  since : Nat
  frame : Out
deriving DecidableEq, Repr

/-- Hidden state of the twin controller. -/
structure Twn where
  /-- Pairing has completed and no failure has been declared since. -/
  paired : Bool
  /-- Ports on which a valid heartbeat has come since the last declaration. -/
  heard : List Nat
  /-- Peer's STATE and WANT as last heard, and whether it reports that its side may complete pairing. -/
  peerState : Nat
  peerWant : Nat
  peerReady : Bool
  /-- Wall counts of the last valid frame and heartbeat by port, and of the heartbeats last sent. -/
  rxWall : SMap Nat
  hbWall : SMap Nat
  sentHb : Nat
  /-- Silence has been declared and no heartbeat has come since. -/
  declared : Bool
  /-- Wall counts since which the return condition holds, and of the last HEALTH frame. -/
  healthyFrom : Nat
  healthWall : Nat
  /-- Windward: next DSEQ, frames not acknowledged, open deltas, gated records, gathers. -/
  next : Nat
  unacked : List TwinSent
  deltas : List OpenDelta
  gates : List TwinGate
  gathers : List Gather
  /-- The bulk copies of this pairing have begun; streams copied (windward) or whose copy has been applied (lee). -/
  bulked : Bool
  copied : List Nat
  /-- Streams whose last delta exceeded 8 MiB: stream, the DSEQ after it, whether its hold has been counted. -/
  big : List (Nat × Nat × Bool)
  written : List RingRec
  /-- Every next step is held for a handback (R507). -/
  hold : Bool
  /-- Lee: next DSEQ to apply, frames received ahead of it, broken streams, replay records of each stream as SEQ
  and slot, oldest first. -/
  expect : Nat
  ahead : List (Nat × TwinItem)
  broken : List Nat
  replay : SMap (List (Nat × Nat))
  /-- The launch image is loaded and arming has not ended. -/
  arming : Bool
  /-- The armed image: plan, stations, dies of its turn, modes byte. -/
  image : Option (Nat × List Nat × List Nat × Nat)
  /-- Streams whose open step a job abort closed, to be copied. -/
  stale : List Nat
  /-- Switchover: replay records written. -/
  replayed : Bool
  bistRow : Nat
  /-- Tile rows that have shifted on an armed module and are to be written again from the image (R509). -/
  rewrite : List Nat
  squall : List TwinHeld
deriving DecidableEq, Repr
def Twn.reset : Twn :=
  { paired := false, heard := [], peerState := 0, peerWant := 0, peerReady := false, rxWall := [], hbWall := [], sentHb := 0,
    declared := false, healthyFrom := 0, healthWall := 0, next := 0, unacked := [], deltas := [], gates := [], gathers := [],
    bulked := false, copied := [], big := [], written := [], hold := false, expect := 0, ahead := [], broken := [],
    replay := [], arming := false, image := none, stale := [], replayed := false, bistRow := 0, rewrite := [], squall := [] }


/-- A supervisor slot of the flash (R513, R516): state 0 EMPTY, 1 GOOD, 2 PENDING, 3 REJECTED; version, security
version, M_PLAIN and the image. -/
structure Slot where
  st : Nat
  version : Nat
  svn : Nat
  mplain : List Byte
  image : List Byte
deriving DecidableEq, Repr
def Slot.empty : Slot := { st := 0, version := 0, svn := 0, mplain := leBytes 32 0, image := [] }

/-- What the signing engine signs (R518). -/
inductive SignJob where
  /-- A report over a nonce: to an HBM address, or to the card. -/
  | report (nonce : List Byte) (addr : Nat) (card : Bool)
  /-- A seal: SEQ and CHAIN. -/
  | seal (seq : Nat) (chain : List Byte)
deriving DecidableEq, Repr

/-- The service card in its slot (R519). -/
structure Card where
  cid : Nat
  /-- P16IMAGE.BIN, when present. -/
  image : Option CardFile
  scripts : List CardFile
deriving DecidableEq, Repr

/-- Hidden state of security and the life cycle. -/
structure Sec where
  slotA : Slot
  slotB : Slot
  /-- Minimum SVN of container types 3 and 4 (R515). -/
  minSvn : SMap Nat
  /-- M_PLAIN of the running supervisor. -/
  supPlain : List Byte
  /-- Wall count at which the confirmation window ends (R524). -/
  deadline : Nat
  /-- The ready standby core takes over at the end of the next tick 1,023 (R523). -/
  handover : Bool
  /-- Signatures requested, oldest first. -/
  engine : List SignJob
  /-- The wipe record: nonce, address, and whether a card asked for it (R530). -/
  wipe : Option (List Byte × Nat × Bool)
  /-- The wipe's steps up to the MOD request are done. -/
  wiped : Bool
  /-- The stacks are already under new keys: step 3, or a POR, has been. -/
  stacksDone : Bool
  /-- Last wipe attestation, in the key store. -/
  wipeAtt : List Byte
  /-- Generation of the user-area key. -/
  userKey : Nat
  card : Option Card
  /-- CID of the card last used and scripts of it completed (key store). -/
  lastCid : Nat
  scriptsDone : Nat
  /-- Rest of the running script, and the wall count a WAIT holds it to. -/
  script : List Byte
  waitTo : Nat
deriving DecidableEq, Repr
/-- Slot A holds a good image and slot B is empty (log 11). -/
def Sec.reset : Sec :=
  { slotA := { Slot.empty with st := 1 }, slotB := Slot.empty, minSvn := [], supPlain := leBytes 32 0, deadline := 0,
    handover := false, engine := [], wipe := none, wiped := false, stacksDone := false, wipeAtt := [], userKey := 0, card := none, lastCid := 0,
    scriptsDone := 0, script := [], waitTo := 0 }


/-! ### Strandline record and security (23_security_lifecycle.md) -/

/-- The Strandline record in flash. -/
structure Stl where
  /-- Entries by SEQ, 64 B each; slots torn by power loss. -/
  entries : SMap (List Byte)
  torn : List Nat
  /-- Entries raised while no supervisor runs: type and body (R427). -/
  waiting : List (Nat × List Byte)
  /-- Chain digest of the last seal, and the first SEQ it does not cover (R526). -/
  chain : List Byte
  next : Nat
  /-- Signature blocks: the current one and the older one. -/
  cur : List Byte
  old : List Byte
  /-- Power-on seconds before the last boot, and at the last seal; seals written (R525 to R527). -/
  baseS : Nat
  lastSeal : Nat
  seals : Nat
  /-- Energy in nJ, thermal cycles, whether 80 °C has been exceeded, 10 µs samples by temperature band (DAILY). -/
  energy : Nat
  thermal : Nat
  hot : Bool
  bandS : SMap Nat
  /-- Trips, wipes and confirmed updates of the summary (Table 23-9). -/
  trips : Nat
  updates : Nat
  /-- SMBus entry pointer, and 32 B units of the signature block already read. -/
  ptr : Nat
  sigPtr : Nat
  /-- Baseline spare use: tiles, lane groups, waveguides (R532). -/
  baseline : Nat × Nat × Nat
  /-- Serial number of the cartridge last commissioned (R254). -/
  cart : Nat
  /-- Commissioning levels of its sources' lines, as the record holds them (R254). -/
  levels : SMap (List Nat)
deriving DecidableEq, Repr
def Stl.reset : Stl :=
  { entries := [], torn := [], waiting := [], chain := List.replicate 32 0, next := 0, cur := [], old := [],
    baseS := 0, lastSeal := 0, seals := 0, energy := 0, thermal := 0, hot := false, bandS := [], trips := 0, updates := 0,
    ptr := 0, sigPtr := 0, baseline := (0, 0, 0), cart := 0, levels := [] }

/-- The whole block. -/
structure State where
  /-- Registers of BAR0 and BAR4. -/
  regs : RegFile
  /-- Tiles, by die × 256 + logical tile. -/
  tiles : SMap Tile
  /-- Clock regions, by die × 4 + region. -/
  regions : SMap Region
  /-- Mesh and express transfers on their way. -/
  links : List LinkMsg
  /-- Open barrier arrivals, by die × 16 + set. -/
  barrs : SMap (List BarrEnt)
  dies : SMap Die
  /-- Tidepool lines, by die × 2^32 + line address. -/
  pool : SMap TLine
  fills : List Fill
  couplers : SMap Coupler
  /-- Commissioned tap band values held in flash, by (die × 12 + band) × 2,048 + lane group index (R184). -/
  bandTap : SMap Nat
  /-- HBM bytes by module physical address; the form stored (R269: inverted is poisoned) and
  the disturbances met since, by 64 B block. -/
  hbm : Mem
  hbmPoison : SMap Bool
  undec : SMap BlkErr
  /-- Requests of the ports, oldest first: number of the next, those outstanding, those waiting for a place among the
  1,024 or for an RID with their message, and identifiers not to be reused before a wall count. -/
  reqNo : Nat
  mreqs : List MemReq
  mwait : List (MemReq × MMsg)
  ridHold : List (Nat × Nat × Nat × Nat)
  /-- Accesses of the Harbour station that have ended, to be taken up by what they serve. -/
  hrbDone : List HrbEnd
  /-- KV commands that Tidepools execute, oldest first; and the headers that the Shingles' KV commands wrote whose
  KVDONE has not reached its requester (R275). -/
  kvs : List KvJob
  kvUndo : List KvUndo
  /-- Memory-channel queues of the ports: sender, receiver (dense indices), message, oldest first. -/
  mout : List (Nat × Nat × MMsg)
  /-- Messages taken from swells: receiver, sender, message, oldest first. -/
  inbox : List (Nat × Nat × MMsg)
  jobs : List ShgJob
  shgs : SMap Shg
  /-- Stations by dense index. -/
  stns : SMap Stn
  /-- Swells on the layer. -/
  air : List Swell
  tide : Tide
  notes : List NoteMsg
  light : Light
  /-- Sampler intake, and streams. -/
  intake : List SRec
  smps : SMap Smp
  /-- Host ports, Ferry channels, and the channel that last started a burst at each priority level. -/
  ports : SMap Port
  frys : SMap Fry
  fryLast : SMap Nat
  /-- Ring pairs, by host × 64 + ring; jobs; the wall count since which no ring is ACTIVE and no job runs. -/
  rings : SMap Ring
  plans : List Job
  calmSince : Nat
  fw : Fw
  flt : Flt
  fab : Fab
  stl : Stl
  pwr : Pwr
  rst : Rst
  sec : Sec
  twn : Twn
  /-- What the block has sent out, oldest first. -/
  out : List Out
  /-- Fault events raised and not yet counted. -/
  raised : List FaultEvt
  /-- Occurrence counter of free values (the model's own field). -/
  free : Nat
  /-- Commands waiting, first in, first out. -/
  pending : List Instr
deriving DecidableEq, Repr

/-- No command of this model ends in a fault. -/
inductive Fault where
deriving DecidableEq, Repr

/-- Why a command has no meaning. -/
inductive Refusal where
  /-- Raised by the dispatch for a command not yet modelled; safe. -/
  | notModelled (mnemonic : String)
deriving DecidableEq, Repr

/-- The module right after a power-on reset, held until MODULE_RESET_RELEASE: every register at its reset value,
no store, buffer, queue or record holding anything, an empty command queue. -/
def State.reset : State :=
  { regs := [], tiles := [], regions := [], links := [], barrs := [], dies := [], pool := [], fills := [], couplers := [],
    bandTap := [], hbm := [], hbmPoison := [], undec := [], reqNo := 0, mreqs := [], mwait := [], ridHold := [], hrbDone := [], kvs := [], kvUndo := [], mout := [], inbox := [], jobs := [],
    shgs := [], stns := [], air := [], tide := Tide.reset, notes := [], light := Light.reset, intake := [], smps := [],
    ports := [], frys := [], fryLast := [], rings := [], plans := [], calmSince := 0, fw := Fw.reset, flt := Flt.reset,
    fab := Fab.reset, stl := Stl.reset, pwr := Pwr.reset, rst := Rst.reset, sec := Sec.reset, twn := Twn.reset, out := [],
    raised := [], free := 0, pending := [] }

end Sys2Proof.Machine
end

