-- ==== Sys2Proof/Machine/Tile.lean ====
section
/-! DEFINITION. One tile: register and store access, results on their way, the tile generator,
completion counters and the matrix engine (03_tile.md, 05_matrix_vector_ops.md). -/
namespace Sys2Proof.Machine

/-! ### Registers (R54) -/

def Tile.rdS (t : Tile) (r : BitVec 5) : W64 := if r = 0 then 0 else smGet (fun _ => 0) t.s r.toNat
def Tile.wrS (t : Tile) (r : BitVec 5) (v : W64) : Tile :=
  if r = 0 then t else { t with s := smSet (fun _ => 0) t.s r.toNat v }
def Tile.rdV (t : Tile) (r : BitVec 5) : VReg := smGet (fun _ => 0) t.v r.toNat
def Tile.wrV (t : Tile) (r : BitVec 5) (mask val : VReg) : Tile :=
  { t with v := smSet (fun _ => 0) t.v r.toNat (maskBits mask (t.rdV r) val) }
/-- P0 reads as all ones. -/
def Tile.rdP (t : Tile) (r : BitVec 3) : W64 :=
  if r = 0 then BitVec.allOnes 64 else smGet (fun _ => 0) t.p r.toNat
def Tile.wrP (t : Tile) (r : BitVec 3) (mask val : W64) : Tile :=
  if r = 0 then t else { t with p := smSet (fun _ => 0) t.p r.toNat (maskBits mask (t.rdP r) val) }
def Tile.rdK (t : Tile) (k : BitVec 4) : W32 := smGet (fun _ => 0) t.k k.toNat
def Tile.wrK (t : Tile) (k : BitVec 4) (v : W32) : Tile := { t with k := smSet (fun _ => 0) t.k k.toNat v }
def Tile.rdB (t : Tile) (r : BitVec 2) : W256 := smGet (fun _ => 0) t.b r.toNat
/-- Index of accumulator element (i, j) of A`a`. -/
def accIdx (a i j : Nat) : Nat := a * 1024 + i * 32 + j
def Tile.rdA (t : Tile) (idx : Nat) : W32 := smGet (fun _ => 0) t.a idx

/-! ### Completion counters (R63, R64) -/

/-- Record one completion with a code of Table 0-3 in a counter value; `seen` says that a code other than OK has been
recorded since the last write, so that CODE stays (R64). -/
def kRecord (seen : Bool) (v : W32) (code : Nat) : W32 :=
  let n := v.toNat
  let n := if seen || code = 0 then n else setBitsN n 20 8 code
  if code = 0x0C then BitVec.ofNat 32 (setBitsN n 28 1 1)
  else
    let c := bitsN n 0 20
    let n := if c = 1048575 then setBitsN (setBitsN n 0 20 0) 30 1 1 else setBitsN n 0 20 (c + 1)
    BitVec.ofNat 32 (if code = 0 then n else setBitsN n 29 1 1)

/-- Whether a counter has recorded a code other than OK since it was last written. -/
def Tile.kSeen (t : Tile) (k : BitVec 4) : Bool := t.kcode.getLsbD k.toNat
/-- The value a counter takes when it records a completion. -/
def Tile.kNext (t : Tile) (k : BitVec 4) (code : Nat) : W32 := kRecord (t.kSeen k) (t.rdK k) code
/-- Record a completion in a counter. -/
def Tile.count (t : Tile) (k : BitVec 4) (code : Nat) : Tile :=
  { t.wrK k (t.kNext k code) with kcode := if code = 0 then t.kcode else t.kcode ||| ((1 : BitVec 16) <<< k.toNat) }

/-! ### Tile store (R69 to R72) -/

/-- Tile-store size. -/
def storeSize : Nat := 0x100000
def Tile.unit (t : Tile) (u : Nat) : W256 := BitVec.ofNat 256 (memNat t.store (32 * u) 32)
def Tile.bytes (t : Tile) (a n : Nat) : List Byte := memBytes t.store a n

/-- Whether a word of [a, a+n), going on at 0 past the top, holds an error of the given kind (1 single-bit, 2
double-bit). -/
def eccIn (m : SMap (BitVec 2)) (kind : BitVec 2) (a n : Nat) : Bool :=
  m.any fun e => decide (e.2 = kind) &&
    ((decide (e.1 * 8 < a + n) && decide (a < e.1 * 8 + 8)) || decide (e.1 * 8 + storeSize < a + n))

def faultOf (kind addr : Nat) : FaultEvt := ⟨kind, 0, 0, none, addr, 0⟩
def Tile.report (t : Tile) (kind addr : Nat) : Tile := { t with rep := t.rep ++ [faultOf kind addr] }

/-- Whether a word lies in [a, a+n), going on at 0 past the top. -/
def wordIn (a n w : Nat) : Bool :=
  (decide (w * 8 < a + n) && decide (a < w * 8 + 8)) || decide (w * 8 + storeSize < a + n)

/-- Report every word with an error of a kind that `read` covers, by its address. -/
def Tile.reportWords (t : Tile) (read : Nat → Bool) (kind : BitVec 2) (fault : Nat) : Tile :=
  { t with rep := t.rep ++ (t.ecc.filter fun e => decide (e.2 = kind) && read e.1).map fun e => faultOf fault (e.1 * 8) }

/-- Faults of a read of [a, a+n): every single-bit error is corrected and counted (kind 0x01); a double-bit error is
reported when the reader is a vector load (kind 0x02). -/
def Tile.readFaults (t : Tile) (vector : Bool) (a n : Nat) : Tile :=
  let t := t.reportWords (wordIn a n) 1 0x01
  if vector then t.reportWords (wordIn a n) 2 0x02 else t

/-- Keep what a matrix operation may still read of a unit about to change (R98): its contents
before the first write while it may be read, and before the first write afterwards. -/
def MatOp.note (now u : Nat) (old : W256) (m : MatOp) : MatOp :=
  if now < m.first + m.cycles then
    if m.hazOld.any (fun e => e.1 == u) then m else { m with hazOld := (u, old) :: m.hazOld }
  else if m.hazEnd.any (fun e => e.1 == u) then m else { m with hazEnd := (u, old) :: m.hazEnd }

def Tile.noteWrite (t : Tile) (u : Nat) : Tile :=
  if t.mats.isEmpty then t else { t with mats := t.mats.map (MatOp.note t.now u (t.unit u)) }

/-- Check bits after a write of bytes [a, a+n): a covered word is good again; a partly covered
word has a single-bit error corrected and keeps a double-bit error (R72). -/
def eccWrite (m : SMap (BitVec 2)) (a n : Nat) : SMap (BitVec 2) :=
  m.filter fun e =>
    let touched := decide (e.1 * 8 < a + n) && decide (a < e.1 * 8 + 8)
    let covered := decide (a ≤ e.1 * 8) && decide (e.1 * 8 + 8 ≤ a + n)
    !touched || (!covered && decide (e.2 = 2))

/-- Whether a write of [a, a+n) covers only part of a word. -/
def partWord (a n w : Nat) : Bool :=
  decide (w * 8 < a + n) && decide (a < w * 8 + 8) && !(decide (a ≤ w * 8) && decide (w * 8 + 8 ≤ a + n))

def noteUnits : Nat → Nat → Tile → Tile
  | _, 0, t => t
  | u, n + 1, t => noteUnits (u + 1) n (t.noteWrite u)

/-- Write consecutive bytes of the tile store. -/
def Tile.writeBytes (t : Tile) (a : Nat) (bs : List Byte) : Tile :=
  if bs.isEmpty then t else
  let n := bs.length
  let t := noteUnits (a / 32) ((a + n - 1) / 32 + 1 - a / 32) t
  let t := t.reportWords (partWord a n) 1 0x01
  { t with store := memStore t.store a bs, ecc := eccWrite t.ecc a n }

/-- The address of lane `i` of a 256 B access: it wraps at the top in 32 B units (R132). -/
def laneAddr (a i : Nat) : Nat := (a + 4 * i) % storeSize

/-- Write the enabled lanes of a vector store: 8 B words whose two lanes are both enabled are
covered whole, the others are merged (R72, R132). -/
def writeLanes (a : Nat) (mask : W64) (val : VReg) : List Nat → Tile → Tile
  | [], t => t
  | w :: ws, t =>
    let lo := mask.getLsbD (2 * w)
    let hi := mask.getLsbD (2 * w + 1)
    let b := leBytes 8 (elemN 64 w val.toNat)
    let t := if lo && hi then t.writeBytes (laneAddr a (2 * w)) b
             else if lo then t.writeBytes (laneAddr a (2 * w)) (b.take 4)
             else if hi then t.writeBytes (laneAddr a (2 * w + 1)) (b.drop 4)
             else t
    writeLanes a mask val ws t

/-- The 2,048 bits a vector load reads. -/
def Tile.loadLanes (t : Tile) (a : Nat) : VReg :=
  BitVec.ofNat 2048 (packN 256 ((List.range 8).map fun i => memNat t.store ((a + 32 * i) % storeSize) 32))

/-! ### Codebook latching and pending results (R55, R62, R116) -/

def isCove (f : BitVec 4) : Bool := f = 0xA || f = 0xB
def isIntF (f : BitVec 4) : Bool := f = 8 || f = 9
def MatOp.nch (m : MatOp) : Nat := m.sk.toNat % 1024
/-- Cycles per chunk (Table 5-3). -/
def chunkCycles (wf xf : BitVec 4) (spr : Bool) : Nat :=
  let w := max (fmtBits wf.toNat) (fmtBits xf.toNat)
  let c := if 16 ≤ w then 64 else if w = 8 then 32 else 16
  if spr then c / 2 else c
def MatOp.spans (m : MatOp) : Nat := if isCove m.o.wf then m.nch / 8 else 0
def MatOp.latchCycle (m : MatOp) (n : Nat) : Nat := m.first + 8 * n * chunkCycles m.o.wf m.o.xf m.o.spr

def latchGo (t : Tile) (e : Nat) : Nat → MatOp → MatOp
  | 0, m => m
  | fuel + 1, m =>
    if m.latched.length < m.spans && m.latchCycle m.latched.length ≤ e then
      latchGo t e fuel { m with latched := m.latched ++ [t.rdB (m.o.bc + BitVec.ofNat 2 m.latched.length)] }
    else m

/-- Latch every span whose first engine cycle is not after cycle `e`. -/
def Tile.latchUpTo (t : Tile) (e : Nat) : Tile :=
  if t.mats.isEmpty then t else { t with mats := t.mats.map fun m => latchGo t e 128 m }

/-- Writable bits of TCTL (Table 3-3). -/
def tctlMask : W64 := 0x0000FFFFFFFF003F

/-- Write a control register (R135). -/
def Tile.writeCr (t : Tile) (code : BitVec 5) (v : W64) : Tile :=
  if code = 0 then { t with tctl := v &&& tctlMask }
  else if code = 1 then { t with tstat := t.tstat &&& ~~~v }
  else if code = 3 then { t with tgen := v }
  else if 16 ≤ code.toNat then
    { t.wrK (code.setWidth 4) (v.setWidth 32 &&& 0x7FFFFFFF) with kcode := t.kcode &&& ~~~((1 : BitVec 16) <<< (code.toNat % 16)) }
  else t

/-- A result reaches its destination at the end of cycle `e`. -/
def Tile.apply (t : Tile) (e : Nat) : Wr → Tile
  | .s r v => t.wrS r v
  | .v r m x => t.wrV r m x
  | .p r m x => t.wrP r m x
  | .acc i vs => { t with a := smSplice (fun _ => 0) t.a i vs }
  | .b r v => let t := t.latchUpTo e; { t with b := smSet (fun _ => 0) t.b r.toNat v }
  | .flags f => { t with tstat := t.tstat ||| f.setWidth 64 }
  | .cr c v => t.writeCr c v
  | .done k c => t.count k c
  | .store a m x => writeLanes a m x (List.range 32) { t with now := max t.now e }

/-- Flags and completions are recorded on top of a write of the same cycle (R64, R66). -/
def Wr.late : Wr → Nat
  | .flags _ => 1
  | .done _ _ => 1
  | _ => 0

/-- Order of application within the list of pending results. -/
def Pend.before (a b : Pend) : Bool :=
  if a.due ≠ b.due then decide (a.due < b.due)
  else if a.wr.late ≠ b.wr.late then decide (a.wr.late < b.wr.late)
  else if a.issue ≠ b.issue then decide (a.issue < b.issue)
  else decide (a.slot ≤ b.slot)

def pendInsert (x : Pend) : List Pend → List Pend
  | [] => [x]
  | y :: ys => if y.before x then y :: pendInsert x ys else x :: y :: ys

/-- Put a result on its way: issued in cycle `c` with latency `l` (R96). -/
def Tile.post (t : Tile) (c l slot : Nat) (w : Wr) : Tile :=
  { t with pend := pendInsert ⟨c + l - 1, c, slot, w⟩ t.pend }

def applyPends (e : Nat) : List Pend → Tile → Tile
  | [], t => t
  | p :: ps, t => if p.due < e then applyPends e ps (t.apply p.due p.wr) else applyPends e ps t

/-- Apply every result due before cycle `c`. -/
def Tile.applyBefore (t : Tile) (c : Nat) : Tile :=
  { applyPends c t.pend t with pend := t.pend.filter fun p => !decide (p.due < c) }

/-! ### Held accesses (R71, R111, R117) -/

/-- Mask of the lanes spread over the 2,048 bits. -/
def laneMask (p : W64) : VReg := BitVec.ofNat 2048 (spreadMask 32 64 p.toNat)

/-- Perform a vector access or CBLD in cycle `x`. -/
def Tile.perform (t : Tile) (x : Nat) : Held → Tile
  | .vld c a r m =>
    if storeSize ≤ a then { t with pend := pendInsert ⟨x + 4, c, 2, .v r (laneMask m) 0⟩ t.pend, portFree := x + 1 }
    else
      let t := t.readFaults true a 256
      { t with pend := pendInsert ⟨x + 4, c, 2, .v r (laneMask m) (t.loadLanes a)⟩ t.pend, portFree := x + 1 }
  | .vst c a m v => { t with pend := pendInsert ⟨x + 1, c, 2, .store a m v⟩ t.pend, portFree := x + 1 }
  | .cbld c a r =>
    let t := t.readFaults false a 32
    { t with pend := pendInsert ⟨x + 4, c, 3, .b r (BitVec.ofNat 256 (memNat t.store a 32))⟩ t.pend }

def Held.cyc : Held → Nat | .vld c _ _ _ => c | .vst c _ _ _ => c | .cbld c _ _ => c

/-! ### The matrix engine (R107 to R116) -/

/-- Start address of an operand with bits [4:0] ignored (R110). -/
def align32 (a : Nat) : Nat := a / 32 * 32

def MatOp.xAddr (m : MatOp) : Nat := align32 m.sx.toNat
def MatOp.wAddr (m : MatOp) : Nat := align32 m.sw.toNat
def MatOp.xsAddr (m : MatOp) : Nat := align32 (bitsN m.sk.toNat 16 20)
def MatOp.wsAddr (m : MatOp) : Nat := align32 (bitsN m.sm.toNat 0 20)
def MatOp.mdAddr (m : MatOp) : Nat := align32 (bitsN m.sm.toNat 20 20)
/-- Bytes per chunk of X and W (R110). -/
def MatOp.cx (m : MatOp) : Nat := 4 * fmtBits m.o.xf.toNat
def MatOp.cw (m : MatOp) : Nat := 4 * fmtBits m.o.wf.toNat / (if m.o.spr then 2 else 1)
def scaleSize (f : BitVec 4) : Nat := if isIntF f then 2 else 1
/-- Cove block pitch, codebook field and index bytes (Table 2-4, Table 5-2). -/
def MatOp.pitch (m : MatOp) : Nat := if m.o.wf = 0xB then 128 else if m.o.spr then 96 else 160
def MatOp.cbBytes (m : MatOp) : Nat := if m.o.wf = 0xB then 16 else 32
def MatOp.ixBytes (m : MatOp) : Nat := if m.o.wf = 0xB then 96 else if m.o.spr then 64 else 128

/-- The byte ranges the operation reads as operands: start and length. -/
def MatOp.ranges (m : MatOp) : List (Nat × Nat) :=
  let k := m.nch
  if k = 0 then [] else
  [(m.xAddr, 32 * k * m.cx)]
  ++ (if m.o.xsc then [(m.xsAddr, 32 * k * scaleSize m.o.xf)] else [])
  ++ (if isCove m.o.wf then
        (List.range (32 * (k / 8))).map fun b => (m.wAddr + b * m.pitch + m.cbBytes, m.ixBytes)
      else [(m.wAddr, 32 * k * (if m.rowW then 4 * fmtBits m.o.wf.toNat else m.cw))])
  ++ (if m.o.wsc then [(m.wsAddr, 32 * k * scaleSize m.o.wf)] else [])
  ++ (if m.o.spr then [(m.mdAddr, 32 * k * 4)] else [])

/-- Whether the operation reads a byte of bank `b` (R71). -/
def MatOp.readsBank (m : MatOp) (b : Nat) : Bool :=
  m.ranges.any fun r =>
    decide (0 < r.2) && (decide (32 ≤ (r.1 + r.2 - 1) / 32 + 1 - r.1 / 32)
      || decide ((b + 32 - r.1 / 32 % 32) % 32 < (r.1 + r.2 - 1) / 32 + 1 - r.1 / 32))

/-- The operand arrays of Table 5-2 that the operation reads, whole: a Cove W array begins with its first codebook
field and ends with the indices of its last block. -/
def MatOp.arrays (m : MatOp) : List (Nat × Nat) :=
  let w := (m.wAddr, if m.nch < 8 then 0 else (32 * (m.nch / 8) - 1) * m.pitch + m.cbBytes + m.ixBytes)
  if m.nch = 0 then [] else if isCove m.o.wf then w :: m.ranges else m.ranges

/-- The lowest out-of-range operand address, if any operand array is out of range (R115). -/
def MatOp.badAddr (m : MatOp) : Option Nat :=
  let bad := m.arrays.filterMap fun r =>
    if storeSize ≤ r.1 then some r.1 else if storeSize < r.1 + r.2 then some storeSize else none
  match bad with
  | [] => none
  | a :: as => some (as.foldl min a)
/-- An operand error of either kind (R115). -/
def MatOp.opError (m : MatOp) : Bool := m.badAddr.isSome || (isCove m.o.wf && m.nch % 8 != 0)

/-- A unit as the operation reads it: for a unit written while it could be read, the old or the
new contents, which one being left open (R98). -/
def Tile.matUnit (t : Tile) (m : MatOp) (u : Nat) : W256 :=
  let cur := match m.hazEnd.find? (fun e => e.1 == u) with
    | some e => e.2
    | none => t.unit u
  match m.hazOld.find? (fun e => e.1 == u) with
  | some e => if Config.freeTile t.key t.free u % 2 = 0 then e.2 else cur
  | none => cur

def Tile.matByte (t : Tile) (m : MatOp) (a : Nat) : Byte :=
  if m.hazOld.isEmpty && m.hazEnd.isEmpty then memGet t.store a
  else (t.matUnit m (a / 32)).extractLsb' (8 * (a % 32)) 8

def Tile.matNat (t : Tile) (m : MatOp) (a n : Nat) : Nat :=
  leNat ((List.range n).map fun i => t.matByte m (a + i))

/-- A matrix element code as a value. -/
def elemVal (f : BitVec 4) (code : Nat) : FVal :=
  if isIntF f then intVal (fmtBits f.toNat) code
  else match fmtOf f.toNat with
    | some ff => decodeF ff code
    | none => decodeF bf16 code

/-- A block scale as a value: FP16 for integers, E8M0 otherwise, 1 when the operand has none. -/
def scaleVal (on : Bool) (f : BitVec 4) (code : Nat) : FVal :=
  if !on then .fin false 1 0
  else if isIntF f then decodeF fp16 code
  else match e8m0 code with
    | none => .nan true
    | some k => .fin false 1 k

/-- Multiply by a block scale; a NaN scale gives NaN and sets NV (R29, R50). -/
def scaleBy (sc e : FVal) : FVal × Flags :=
  match sc with
  | .nan _ => (.nan false, fNV)
  | _ => mulV e sc

/-- The block scale and the 32 elements of X row `i`, chunk `c`. -/
def Tile.xChunk (t : Tile) (m : MatOp) (i c : Nat) : FVal × List FVal :=
  let blk := i * m.nch + c
  let n := t.matNat m (m.xAddr + blk * m.cx) m.cx
  let sz := scaleSize m.o.xf
  let sc := scaleVal m.o.xsc m.o.xf (t.matNat m (m.xsAddr + blk * sz) sz)
  (sc, (unpackN (fmtBits m.o.xf.toNat) 32 n).map (elemVal m.o.xf))

/-- Spread the 16 stored values of a sparse chunk over its 32 positions (R35); `none` marks a
malformed group (R36). -/
def expandSparse (stored : List FVal) (md : Nat) : List FVal × Bool :=
  let bad := (List.range 8).any fun g => decide (bitsN md (4 * g + 2) 2 ≤ bitsN md (4 * g) 2)
  ((List.range 32).map fun e =>
    let g := e / 4
    let i0 := bitsN md (4 * g) 2
    let i1 := bitsN md (4 * g + 2) 2
    if i1 ≤ i0 then .fin false 0 0
    else if e % 4 = i0 then stored.getD (2 * g) (.fin false 0 0)
    else if e % 4 = i1 then stored.getD (2 * g + 1) (.fin false 0 0)
    else .fin false 0 0, bad)

/-- The block scale and the 32 elements of W column `j`, chunk `c`, and whether its metadata is malformed. -/
def Tile.wChunk (t : Tile) (m : MatOp) (j c : Nat) : (FVal × List FVal) × Bool :=
  let k := m.nch
  let w := fmtBits m.o.wf.toNat
  let cnt := if m.o.spr then 16 else 32
  let codes : List Nat :=
    if isCove m.o.wf then
      let blk := m.wAddr + (j * (k / 8) + c / 8) * m.pitch + m.cbBytes
      unpackN w cnt (t.matNat m blk m.ixBytes / 2 ^ (w * cnt * (c % 8)))
    else if m.rowW then
      (List.range 32).map fun r =>
        let row := m.wAddr + (32 * c + r) * (4 * w)
        elemN w j (t.matNat m row (4 * w))
    else unpackN w cnt (t.matNat m (m.wAddr + (j * k + c) * m.cw) m.cw)
  let vals : List FVal :=
    if isCove m.o.wf then
      let cb := (m.latched.getD (c / 8) 0).toNat
      codes.map fun ix => decodeF bf16 (elemN 16 (if m.o.wf = 0xB then ix % 8 else ix) cb)
    else codes.map (elemVal m.o.wf)
  let (vals, bad) := if m.o.spr then expandSparse vals (t.matNat m (m.mdAddr + (j * k + c) * 4) 4) else (vals, false)
  let sz := scaleSize m.o.wf
  let sc := scaleVal m.o.wsc m.o.wf (t.matNat m (m.wsAddr + (j * k + c) * sz) sz)
  ((sc, vals), bad)

/-- Powers of two in a magnitude moved to its exponent. -/
def stripTwos : Nat → Nat → Int → Nat × Int
  | 0, m, x => (m, x)
  | n + 1, m, x => if m % 2 = 0 && m != 0 then stripTwos n (m / 2) (x + 1) else (m, x)

/-- A finite value with an odd magnitude, unless it is zero. -/
def FVal.odd : FVal → FVal
  | .fin s m x => let r := stripTwos 64 m x; .fin s r.1 r.2
  | v => v

/-- The largest unit of which all nonzero values are multiples, as an exponent. -/
def unitOf : List FVal → Option Int
  | [] => none
  | .fin _ m x :: vs =>
    if m = 0 then unitOf vs
    else match unitOf vs with
      | none => some x
      | some y => some (if x ≤ y then x else y)
  | _ :: vs => unitOf vs

/-- Sum of finite values in units of 2^z, signed or of the magnitudes. -/
def sumUnits (z : Int) (signed : Bool) (vs : List FVal) : Int :=
  vs.foldl (fun a v => match v with
    | .fin s m x => let k : Int := (m * 2 ^ (x - z).toNat : Nat); if s && signed then a - k else a + k
    | _ => a) 0

/-- Whether every order and grouping of the products sums exactly in FP32 (so R51 leaves nothing open): they are
multiples of one unit not below FP32's least, and their magnitudes sum to at most 2^24 units within its range. -/
def orderFree (vs : List FVal) : Bool :=
  let vs := vs.map FVal.odd
  match unitOf vs with
  | none => true
  | some z =>
    let n := (sumUnits z false vs).natAbs
    decide (-149 ≤ z) && decide (n ≤ 2 ^ 24) && decide ((Nat.log2 n : Int) + z < 128)

/-- Exact sum of products (R50): NaN and infinity under R40, a sum of zeros signed under R41. -/
def sumV (vs : List FVal) : FVal × Flags :=
  let neg := fun v => match v with | FVal.fin s _ _ => s | _ => false
  if vs.any FVal.isNan then (.nan false, 0)
  else if vs.contains (.inf false) then (if vs.contains (.inf true) then (.nan false, fNV) else (.inf false, 0))
  else if vs.contains (.inf true) then (.inf true, 0)
  else
    match unitOf vs with
    | none => (.fin (vs.all neg) 0 0, 0)
    | some z => let v := sumUnits z true vs; (.fin (decide (v < 0)) v.natAbs z, 0)

/-- The 32 products of a chunk; integer zero has no sign. -/
def products (int : Bool) (xs ws : List FVal) : List (FVal × Flags) :=
  List.zipWith (fun x w => match mulV x w with
    | (.fin s m e, f) => (.fin (s && !(int && m == 0)) m e, f)
    | p => p) xs ws

def orFlags (fs : List Flags) : Flags := fs.foldl (· ||| ·) 0

/-- The value an opaque sum stands for. -/
def chunkOpen (r : Nat × Bool × Nat × Int × BitVec 5) : FVal × Flags :=
  let (k, s, m, x, f) := r
  (if k = 0 then .fin s m x else if k = 1 then .inf s else .nan false, f &&& ~~~fDZ)

def rneEnv : FEnv := ⟨.rne, false, false⟩

/-- Chunk sum. With `free`, R51: scaled elements, the sum in an open order and grouping where that matters. Otherwise
R50: the exact sum of the unscaled products, times the two scales, rounded once to FP32. -/
def chunkVal (free : Bool) (int : Bool) (key idx pos : Nat) (x w : FVal × List FVal) : FVal × Flags :=
  if free then
    let xs := x.2.map (scaleBy x.1)
    let ws := w.2.map (scaleBy w.1)
    let ps := products int (xs.map (·.1)) (ws.map (·.1))
    let fl := orFlags ((xs ++ ws ++ ps).map (·.2))
    let vs := ps.map (·.1)
    let r := sumV vs
    match r.1 with
    | .fin _ _ _ =>
      if orderFree vs then (r.1, fl)
      else
        let q := chunkOpen (Config.chunkSum (vs.map fun p => match p with | .fin s m y => (s, m, y) | _ => (false, 0, 0))
          key (idx * 2 ^ 20 + pos))
        (q.1, fl ||| q.2)
    | v => (v, fl ||| r.2)
  else
    let ps := products int x.2 w.2
    let r := sumV (ps.map (·.1))
    let a := scaleBy x.1 r.1
    let b := scaleBy w.1 a.1
    let d := deliver fp32 rneEnv 0 b.1
    (decodeF fp32 d.1, orFlags (ps.map (·.2)) ||| r.2 ||| a.2 ||| b.2 ||| d.2)

/-- a + s with one RNE rounding into FP32 (R49). The engine has no denormal control (R46); an overflow gives infinity, as
in step 4 of R50, whatever TCTL SAT says (log 90). -/
def addRne (a : Nat) (s : FVal) : Nat × Flags :=
  let (v, f) := addV .rne (decodeF fp32 a) s
  let r := deliver fp32 rneEnv 0 v
  (r.1, f ||| r.2)

def FVal.isFin : FVal → Bool | .fin _ _ _ => true | _ => false

/-- One compensated step (R52): accumulator, companion, flags. -/
def compStep (a c : Nat) (s : FVal) : Nat × Nat × Flags :=
  let (t, f) := addRne a s
  if (decodeF fp32 a).isFin && s.isFin && (decodeF fp32 t).isFin then
    let (sum, _) := addV .rne (decodeF fp32 a) s
    let (e, _) := addV .rne sum (decodeF fp32 t).neg
    let (t', g) := addRne c e
    (t, t', f ||| g)
  else (t, c, f)

/-- Accumulate the chunks of one element: accumulator, companion, flags. -/
def accElem (t : Tile) (m : MatOp) (free : Bool) (xs : List (FVal × List FVal)) (ws : List ((FVal × List FVal) × Bool))
    (pos : Nat) : Nat → Nat → Nat → Nat × Nat × Flags :=
  fun a c fl =>
    (List.zip xs ws).zipIdx.foldl (fun (acc : Nat × Nat × Flags) e =>
      let (a, c, f) := acc
      let (s, g) := chunkVal free (isIntF m.o.wf) t.key t.free (pos * 1024 + e.2) e.1.1 e.1.2.1
      let g := if e.1.2.2 then g ||| fNV else g
      if m.o.cmp then let (a', c', h) := compStep a c s; (a', c', f ||| g ||| h)
      else let (a', h) := addRne a s; (a', c, f ||| g ||| h)) (a, c, BitVec.ofNat 5 fl)

/-- The operation's result: elements of AD, of the companion, and flags (R108, R114, R115). -/
def Tile.matResult (t : Tile) (m : MatOp) : List Nat × List Nat × Flags :=
  if m.opError then (List.replicate 1024 (nanCode fp32), List.replicate 1024 (nanCode fp32), fNV)
  else
    let k := m.nch
    let free := isCove m.o.wf || decide (16 ≤ fmtBits m.o.wf.toNat) || decide (16 ≤ fmtBits m.o.xf.toNat)
    let xs := (List.range 32).map fun i => (List.range k).map fun c => t.xChunk m i c
    let ws := (List.range 32).map fun j => (List.range k).map fun c => t.wChunk m j c
    let ad := m.o.ad.toNat
    let els := (List.range 1024).map fun p =>
      let i := p / 32
      let j := p % 32
      let a := if m.o.acc then (t.rdA (ad * 1024 + p)).toNat else 0
      let c := if m.o.acc then (t.rdA ((ad + 1) % 4 * 1024 + p)).toNat else 0
      accElem t m free (xs.getD i []) (ws.getD j []) p a c 0
    (els.map (·.1), els.map (·.2.1), els.foldl (fun f e => f ||| e.2.2) 0)

/-- A matrix operation retires: accumulators written, flags at TSTAT, ADDR_FAULT reported. -/
def Tile.retireMat (t : Tile) (m : MatOp) : Tile :=
  let (as, cs, f) := t.matResult m
  let ad := m.o.ad.toNat
  let a := smSplice (fun _ => 0) t.a (ad * 1024) (as.map (BitVec.ofNat 32))
  let a := if m.o.cmp then smSplice (fun _ => 0) a ((ad + 1) % 4 * 1024) (cs.map (BitVec.ofNat 32)) else a
  let t := { t with a := a, tstat := t.tstat ||| f.setWidth 64, free := t.free + 1 }
  match m.badAddr with
  | some x => t.report 0x04 x
  | none => t

/-- Cycle in which the busy bits are clear again (R113). -/
def MatOp.clear (m : MatOp) : Nat := m.first + m.cycles + 13

/-- An operation reaches its first engine cycle: it takes the executing position, and the single-bit errors of the
words it reads are corrected and counted, each once (R72). -/
def Tile.startMat (t : Tile) (c : Nat) : Tile :=
  let new := t.mats.filter fun m => !m.started && decide (m.first < c)
  let t := new.foldl (fun t m => t.reportWords (fun w => m.ranges.any fun r => decide (0 < r.2) && wordIn r.1 r.2 w) 1 0x01) t
  { t with mats := t.mats.map fun m => if m.first < c then { m with started := true } else m }

/-- Retire the operations whose busy bits are clear by the beginning of cycle `c`, oldest first; what was due in or
before the cycle in which the flags of each reach TSTAT has been applied by then (R66, R113). -/
def retireGo (c : Nat) : List MatOp → Tile → Tile
  | [], t => t
  | m :: ms, t =>
    if m.clear ≤ c then
      let t := ((t.applyBefore m.clear).latchUpTo (m.clear - 1)).startMat m.clear
      retireGo c ms ({ t with mats := t.mats.drop 1 }.retireMat (t.mats.headD m))
    else t

/-- Start, latch and retire what the engine has reached by the beginning of cycle `c`. -/
def Tile.engine (t : Tile) (c : Nat) : Tile :=
  if t.mats.isEmpty then t.applyBefore c else
  (((retireGo c t.mats t).applyBefore c).latchUpTo (c - 1)).startMat c

/-- No access waits more than 8 cycles (R71, R111). -/
def forceHeld (c : Nat) : List Held → Tile → Tile
  | [], t => t
  | h :: hs, t =>
    if h.cyc + 8 < c then forceHeld c hs ((t.engine (h.cyc + 8)).perform (h.cyc + 8) h)
    else forceHeld c hs { t with delayed := t.delayed ++ [h] }

/-- Bring the tile to the beginning of cycle `c`: everything due before it has happened. -/
def Tile.settle (t : Tile) (c : Nat) : Tile :=
  let t := (forceHeld c t.delayed { t with delayed := [] }).engine c
  { t with now := max t.now c, held := t.held.filter fun h => decide (c < h.2) }

/-! ### The accumulator and pending interlocks (R60, R61) -/

def MatOp.names (m : MatOp) (a : Nat) : Bool :=
  decide (m.o.ad.toNat = a) || (m.o.cmp && decide (m.o.ad.toNat + 1 = a))

def Tile.pendingFull (t : Tile) (c : Nat) : Bool := t.mats.any fun m => decide (c < m.first)
def Tile.executing (t : Tile) (c : Nat) : Option MatOp :=
  t.mats.find? fun m => decide (m.first ≤ c) && decide (c < m.first + m.cycles)
def Tile.accBusy (t : Tile) (c a : Nat) : Bool :=
  t.mats.any (fun m => m.names a && decide (c < m.clear)) || t.held.any (fun h => decide (h.1 = a) && decide (c < h.2))

/-- Stall of a matrix-slot operation naming the accumulators `as`; `chain` is the destination of
an accumulating MMA or MMAR. -/
def Tile.matStall (t : Tile) (c : Nat) (as : List Nat) (chain : Option Nat) : Bool :=
  t.pendingFull c ||
  as.any fun a =>
    t.accBusy c a &&
    match chain, t.executing c with
    | some d, some x => !(decide (x.o.ad.toNat = d) && x.names a && !(t.held.any fun h => decide (h.1 = a) && decide (c < h.2)))
    | _, _ => true

/-! ### The generator (R68): Philox-4x32-10 -/

/-- One Philox round on counter words and key words. -/
def philoxRound (c : Nat × Nat × Nat × Nat) (k0 k1 : Nat) : Nat × Nat × Nat × Nat :=
  let (c0, c1, c2, c3) := c
  let p0 := 0xD2511F53 * c0
  let p1 := 0xCD9E8D57 * c2
  let hi (p : Nat) : Nat := p / 2 ^ 32
  let lo (p : Nat) : Nat := p % 2 ^ 32
  (Nat.xor (Nat.xor (hi p1) c1) k0, lo p1, Nat.xor (Nat.xor (hi p0) c3) k1, lo p0)

def philoxGo : Nat → Nat × Nat × Nat × Nat → Nat → Nat → Nat × Nat × Nat × Nat
  | 0, c, _, _ => c
  | n + 1, c, k0, k1 =>
    philoxGo n (philoxRound c k0 k1) ((k0 + 0x9E3779B9) % 2 ^ 32) ((k1 + 0xBB67AE85) % 2 ^ 32)

/-- Philox-4x32-10 on four counter words and two key words. -/
def philox (c0 c1 c2 c3 k0 k1 : Nat) : List Nat :=
  let (a, b, c, d) := philoxGo 10 (c0, c1, c2, c3) k0 k1
  [a, b, c, d]

/-- Value `n` of the tile's generator (R68). -/
def tileRandom (seed station tile n : Nat) : Nat :=
  let w := (philox (n / 8 % 2 ^ 32) (n / 8 / 2 ^ 32) 0 0 seed (station * 256 + tile)).getD (n % 8 / 2) 0
  if n % 2 = 0 then w % 65536 else w / 65536

end Sys2Proof.Machine
end

