-- ==== Sys2Proof/Machine/Flags.lean ====
section
/-! DEFINITION. Rounding settings and flag results of the vector unit: the mode in force (R37, R39),
element-wise evaluation with predication, flags and generator values (R47, R48, R58, R123). -/
namespace Sys2Proof.Machine

/-- TCTL fields. -/
def Tile.rmode (t : Tile) : Nat := bitsN t.tctl.toNat 0 3
def Tile.satOn (t : Tile) : Bool := t.tctl.getLsbD 3
def Tile.srOn (t : Tile) : Bool := t.tctl.getLsbD 4
def Tile.flushOn (t : Tile) : Bool := t.tctl.getLsbD 5
def Tile.seed (t : Tile) : Nat := bitsN t.tctl.toNat 16 32

/-- The mode of a code: 5 to 7 act as RNE, SR without its enable acts as RNE (R37, R39). -/
def modeOf (srOn : Bool) (code : Nat) : RMode :=
  match code with
  | 1 => .rtz | 2 => .rdn | 3 => .rup
  | 4 => if srOn then .sr else .rne
  | _ => .rne

/-- Settings of an operation whose RM field is `rm`; 7 names TCTL RMODE. -/
def Tile.env (t : Tile) (rm : BitVec 3) : FEnv :=
  ⟨modeOf t.srOn (if rm = 7 then t.rmode else rm.toNat), t.satOn, t.flushOn⟩

/-- Element `e` of width `w` lies in lane `e·w ÷ 32` (R58). -/
def laneOf (w e : Nat) : Nat := e * w / 32

/-- Evaluate the enabled elements in ascending order: values (0 where disabled), joined flags, and
the generator values consumed (R39, R48). -/
def mapElems (rnd : Nat → Nat) (draw : Bool) (en : Nat → Bool) (f : Nat → Nat → Nat × Flags) :
    List Nat → Nat → List Nat × Flags × Nat
  | [], k => ([], 0, k)
  | e :: es, k =>
    if en e then
      let r := f e (if draw then rnd k else 0)
      let rest := mapElems rnd draw en f es (if draw then k + 1 else k)
      (r.1 :: rest.1, r.2 ||| rest.2.1, rest.2.2)
    else
      let rest := mapElems rnd draw en f es k
      (0 :: rest.1, rest.2.1, rest.2.2)

/-- The generator value `k` values ahead (R68). -/
def Tile.rnd (t : Tile) (station tile k : Nat) : Nat :=
  tileRandom t.seed station tile ((t.tgen.toNat + k) % 2 ^ 64)

/-- Advance the generator by the values consumed. -/
def Tile.drew (t : Tile) (k : Nat) : Tile := { t with tgen := t.tgen + BitVec.ofNat 64 k }

/-- Post flags, if any were raised. -/
def Tile.postFlags (t : Tile) (c l slot : Nat) (f : Flags) : Tile :=
  if f = 0 then t else t.post c l slot (.flags f)

end Sys2Proof.Machine
end

