-- ==== Sys2Proof/Machine/Operands.lean ====
section
/-! DEFINITION. Operand forms of the vector and scalar slots: element reads, broadcast scalars,
immediates, the shared shapes of vector operations (R58, R89, R90, R121, R123). -/
namespace Sys2Proof.Machine

def slotScalar : Nat := 1
def slotVector : Nat := 2
def slotMatrix : Nat := 3
def slotMove : Nat := 4

/-- A 30-bit immediate sign-extended (R89). -/
def immS (o : SI) : W64 := o.imm.signExtend 64

/-- Post the enabled lanes of a vector result. -/
def Tile.postLanes (t : Tile) (pt : At) (l : Nat) (vd : BitVec 5) (p : W64) (val : Nat) : Tile :=
  t.post pt.cyc l slotVector (.v vd (laneMask p) (BitVec.ofNat 2048 val))

/-- An element-wise floating-point operation in format code `fmt` (0 FP32, 1 FP16, 2 BF16): `f` gives
element `e` its code and flags, with the generator value `u` when `rounds` and SR is in force. -/
def vecFp (pt : At) (vd : BitVec 5) (pr : BitVec 3) (fmt : BitVec 4) (rm : BitVec 3) (lat : Nat) (rounds : Bool)
    (f : FFmt → FEnv → Nat → Nat → Nat × Flags) (t : Tile) : Tile :=
  let ff := (fmtOf fmt.toNat).getD fp32
  let w := ff.width
  let env := t.env rm
  let p := t.rdP pr
  let r := mapElems (t.rnd pt.die.val pt.tile.val) (rounds && env.md == .sr)
    (fun e => p.getLsbD (laneOf w e)) (f ff env) (List.range (2048 / w)) 0
  ((t.postLanes pt lat vd p (packN w r.1)).postFlags pt.cyc lat slotVector r.2.1).drew r.2.2

/-- Element `e` of a register image in a format. -/
def el (ff : FFmt) (v : VReg) (e : Nat) : Nat := elemN ff.width e v.toNat

/-- Round an exact value under the environment. -/
def finish (ff : FFmt) (env : FEnv) (u : Nat) (r : FVal × Flags) : Nat × Flags :=
  let d := deliver ff env u r.1
  (d.1, r.2 ||| d.2)

/-- Add, multiply and fused multiply-add of element codes (R40, R41, R46, R124). -/
def fAdd (ff : FFmt) (env : FEnv) (u a b : Nat) : Nat × Flags :=
  finish ff env u (addV env.md (readF ff env.flush a) (readF ff env.flush b))
def fSub (ff : FFmt) (env : FEnv) (u a b : Nat) : Nat × Flags :=
  finish ff env u (addV env.md (readF ff env.flush a) (readF ff env.flush b).neg)
def fMul (ff : FFmt) (env : FEnv) (u a b : Nat) : Nat × Flags :=
  finish ff env u (mulV (readF ff env.flush a) (readF ff env.flush b))
def fFma (ff : FFmt) (env : FEnv) (u a b c : Nat) : Nat × Flags :=
  let vc := readF ff env.flush c
  let m := mulV (readF ff env.flush a) (readF ff env.flush b)
  let r := addV env.md m.1 vc
  finish ff env u (r.1, m.2 ||| r.2)

/-- Reciprocal (R124, Table 5-7). -/
def fRcp (ff : FFmt) (env : FEnv) (u a : Nat) : Nat × Flags :=
  match readF ff env.flush a with
  | .nan sig => (nanCode ff, if sig then fNV else 0)
  | .inf s => (ff.signed s 0, 0)
  | .fin s m x =>
    if m = 0 then (infCode ff s, fDZ)
    else let (q, y, tail) := recipMag m x; roundF ff env.md u env.sat env.flush s q y tail

/-- Square root. -/
def fSqrt (ff : FFmt) (env : FEnv) (u a : Nat) : Nat × Flags :=
  match readF ff env.flush a with
  | .nan sig => (nanCode ff, if sig then fNV else 0)
  | .inf s => if s then (nanCode ff, fNV) else (infCode ff false, 0)
  | .fin s m x =>
    if m = 0 then (ff.signed s 0, 0)
    else if s then (nanCode ff, fNV)
    else let (q, y, tail) := sqrtMag m x; roundF ff env.md u env.sat env.flush false q y tail

/-- Reciprocal square root, faithful. -/
def fRsq (ff : FFmt) (env : FEnv) (a : Nat) : Nat × Flags :=
  match readF ff env.flush a with
  | .nan sig => (nanCode ff, if sig then fNV else 0)
  | .inf s => if s then (nanCode ff, fNV) else (0, 0)
  | .fin s m x =>
    if m = 0 then (infCode ff s, fDZ)
    else if s then (nanCode ff, fNV)
    else let (q, y, tail) := rsqrtMag m x; faithful ff env 0x1A a 0 false q y tail

/-- 2 to an exact value, faithful (VEXP2, VEXD). -/
def fExp2 (ff : FFmt) (env : FEnv) (op a b : Nat) (v : FVal × Flags) : Nat × Flags :=
  match v.1 with
  | .nan sig => (nanCode ff, v.2 ||| (if sig then fNV else 0))
  | .inf s => (if s then 0 else infCode ff false, v.2)
  | .fin s m x =>
    let (q, y, inex) := exp2Mag s m x
    let r := faithful ff env op a b false q y inex
    (r.1, v.2 ||| r.2)

/-- log2, faithful. -/
def fLog2 (ff : FFmt) (env : FEnv) (a : Nat) : Nat × Flags :=
  match readF ff env.flush a with
  | .nan sig => (nanCode ff, if sig then fNV else 0)
  | .inf s => if s then (nanCode ff, fNV) else (infCode ff false, 0)
  | .fin s m x =>
    if m = 0 then (infCode ff true, fDZ)
    else if s then (nanCode ff, fNV)
    else let (sg, q, y, inex) := log2Mag m x; faithful ff env 0x1C a 0 sg q y inex

/-- Sign operations: a NaN becomes the canonical NaN (R40). -/
def fSign (ff : FFmt) (env : FEnv) (f : Bool → Bool) (a : Nat) : Nat × Flags :=
  match decodeF ff a with
  | .nan sig => (nanCode ff, if sig then fNV else 0)
  | _ =>
    let c := flushCode ff env.flush a
    (ff.signed (f (c / ff.signBit % 2 == 1)) (c % ff.signBit), 0)

/-- The broadcast scalar of a VS operation: S[SB][31:0], or [15:0] for 16-bit formats (R121). -/
def Tile.bcast (t : Tile) (ff : FFmt) (sb : BitVec 5) : Nat := (t.rdS sb).toNat % 2 ^ ff.width

/-- An integer lane operation (R58, R121): 64 lanes of 32 bits, no flag. -/
def vecInt (pt : At) (vd : BitVec 5) (pr : BitVec 3) (lat : Nat) (f : Nat → W32) (t : Tile) : Tile :=
  t.postLanes pt lat vd (t.rdP pr) (packN 32 ((List.range 64).map fun i => (f i).toNat))

/-- Lane `i` of a register. -/
def lane (v : VReg) (i : Nat) : W32 := v.extractLsb' (32 * i) 32

/-- A scalar result of latency `l`. -/
def Tile.postS (t : Tile) (pt : At) (l : Nat) (sd : BitVec 5) (v : W64) : Tile :=
  t.post pt.cyc l slotScalar (.s sd v)

/-- Conversion of one element code between formats (R42 to R46). -/
def convElem (f t : Nat) (env : FEnv) (u a : Nat) : Nat × Flags :=
  let v := match fmtOf f with
    | some ff => readF ff env.flush a
    | none => intVal (fmtBits f) a
  match fmtOf t with
  | some tf =>
    match v with
    | .nan sig => (nanCode tf, if tf.nan.isNone || sig then fNV else 0)
    | .inf s => (infCode tf s, if tf.inf.isNone then fNV else 0)
    | .fin s m x => roundF tf env.md u env.sat env.flush s m x false
  | none => toIntN (fmtBits t) env.md u v

/-- Whether a conversion rounds, and so consumes generator values under SR: not when it widens into
FP32, FP16 or BF16 (R39, R42). -/
def convRounds (f t : Nat) : Bool := !(decide (fmtBits f < fmtBits t) && decide (t ≤ 2))

/-- Scale code of an MX block and flags (R45 steps 1 and 2); `none` is the NaN scale. -/
def mxScale (ff tf : FFmt) (flush : Bool) (codes : List Nat) : Option Nat :=
  let vs := codes.map (readF ff flush)
  if vs.any (fun v => match v with | .fin _ _ _ => false | _ => true) then none
  else
    let emax : Int := if tf = e4m3 then 8 else if tf = e5m2 then 15 else if tf = e3m2 then 4 else 2
    -- ⌊log2 |v|⌋ of the nonzero values
    let logs := vs.filterMap fun v => match v with
      | .fin _ m x => if m = 0 then none else some ((Nat.log2 m : Int) + x)
      | _ => none
    match logs with
    | [] => some 0
    | l :: ls =>
      let top := ls.foldl max l
      some (max 0 (min 254 (top - emax + 127))).toNat

end Sys2Proof.Machine
end

