-- ==== Sys2Proof/Machine/Ops.lean ====
section
/-! DEFINITION. The named operations over the state: registers, tiles, regions, faults raised, and
the shared shapes of slot operations. -/
namespace Sys2Proof.Machine

/-- What a meaning answers. -/
abbrev Res := Host.Outcome State Fault Refusal

/-! ### Registers -/

/-- Read a field of a register instance. -/
def State.rd (s : State) (f : Fld) (inst : Nat := 0) : Nat := rfGet s.regs f inst
/-- Write a field of a register instance. -/
def State.wr (s : State) (f : Fld) (inst v : Nat) : State := { s with regs := rfSet s.regs f inst v }
/-- Write a whole register instance. -/
def State.wrWord (s : State) (no inst : Nat) (v : W64) : State := { s with regs := rfSetWord s.regs no inst v }
/-- Add to a count that stops at its maximum. -/
def State.bump (s : State) (f : Fld) (inst n : Nat) : State := s.wr f inst (satAdd f.wd (s.rd f inst) n)
/-- Set or clear a one-bit field. -/
def State.flag (s : State) (f : Fld) (inst : Nat) (b : Bool) : State := s.wr f inst (if b then 1 else 0)
def State.on (s : State) (f : Fld) (inst : Nat := 0) : Bool := s.rd f inst != 0

/-- Governing, and ring-derived, temperature of a station in 0.1 °C. -/
def State.govT (s : State) (q : Nat) : Nat := smGet (fun _ => 0) s.pwr.gov q
def State.ringT (s : State) (q : Nat) : Nat := smGet (fun _ => 0) s.pwr.ring q

/-- The next free value, advancing the occurrence counter. -/
def State.fresh (s : State) : Nat × State := (Config.freeNat s.free, { s with free := s.free + 1 })

/-! ### Faults -/

/-- Queue a fault event for its collector. -/
def State.raise (s : State) (e : FaultEvt) : State := { s with raised := s.raised ++ [e] }
/-- An event of a kind at a station and unit. -/
def State.fault (s : State) (kind station unit : Nat) : State := s.raise ⟨kind, station, unit, none, 0, 0⟩

/-! ### Tiles and regions -/

def tileKey (d : Fin 24) (t : Fin 256) : Nat := d.val * 256 + t.val
def State.tile (s : State) (k : Nat) : Tile := smGet Tile.init s.tiles k
def State.setTile (s : State) (k : Nat) (t : Tile) : State :=
  { s with tiles := smSet Tile.init s.tiles k t }
/-- Clock region of a logical tile: rows 4g to 4g + 3 (03_tile.md). -/
def regionKey (d t : Nat) : Nat := d * 4 + t / 64
def State.region (s : State) (k : Nat) : Region := smGet (fun _ => Region.reset) s.regions k
def State.setRegion (s : State) (k : Nat) (r : Region) : State :=
  { s with regions := smSet (fun _ => Region.reset) s.regions k r }
def State.die (s : State) (d : Nat) : Die := smGet (fun _ => Die.reset) s.dies d
def State.setDie (s : State) (d : Nat) (x : Die) : State := { s with dies := smSet (fun _ => Die.reset) s.dies d x }
/-- Region tide counter of a tile (R67). -/
def State.tick (s : State) (pt : At) : Nat := (s.region (regionKey pt.die.val pt.tile.val)).tick

/-- Store a tile back; the faults it raised go to its cell collector. -/
def State.putTile (s : State) (d t : Nat) (x : Tile) : State :=
  let s' := s.setTile (d * 256 + t) { x with rep := [] }
  { s' with raised := s'.raised ++ x.rep.map fun e => { e with station := d, unit := t } }

/-- Act on the tile of a command, brought to the beginning of its cycle. -/
def State.onTile (s : State) (pt : At) (f : Tile → Tile) : State :=
  s.putTile pt.die.val pt.tile.val (f ((s.tile (tileKey pt.die pt.tile)).settle pt.cyc))

/-- Capabilities in force (Table 21-6). -/
def State.caps (s : State) : Nat := s.rd GLB_CAPS_ENABLED

/-- Record a bundle fault of a tile in HDL_BFAULT_LOG (R106): the fault of the lowest tide tick, and within one tick of
the lowest logical tile, whatever the order in which the faults are taken. -/
def State.logBundleFault (s : State) (d t pc slot cause tick : Nat) : State :=
  let fill (s : State) : State :=
    ((((s.wr HDL_BFAULT_LOG_TILE d t).wr HDL_BFAULT_LOG_PC d pc).wr HDL_BFAULT_LOG_SLOT d slot).wr
      HDL_BFAULT_LOG_CAUSE d cause)
  let s' := if s.on HDL_BFAULT_LOG_VALID d then
      let s1 := s.wr HDL_BFAULT_LOG_MULTI d 1
      if tick < (s.die d).bfTick || ((s.die d).bfTick = tick && t < s.rd HDL_BFAULT_LOG_TILE d) then
        (fill s1).setDie d { s.die d with bfTick := tick }
      else s1
    else ((fill s).wr HDL_BFAULT_LOG_VALID d 1).setDie d { s.die d with bfTick := tick }
  s'.bump HDL_BFAULT_LOG_COUNT d 1

/-- A bundle faults (R104): nothing of it issues, the tile stops issuing and a SEVERE fault is raised and logged: kind
0x03, and for a double-bit error at fetch (cause 0xC) kind 0x02, which Table 20-2 gives it (log 86). -/
def State.bundleFault (s : State) (pt : At) (slot cause : Nat) : State :=
  let t := (s.tile (tileKey pt.die pt.tile)).settle pt.cyc
  let s := s.putTile pt.die.val pt.tile.val (if cause = 12 then { t with issue := .stopped }.report 0x02 (32 * t.pc.toNat)
    else { t with issue := .stopped }.report 0x03 0)
  s.logBundleFault pt.die.val pt.tile.val t.pc.toNat slot cause (s.tick pt)

/-- A slot operation: its effect on the tile, or the bundle fault its encoding meets. -/
def slotOp (pt : At) (slot cause : Nat) (f : Tile → Tile) (s : State) : State :=
  if cause = 0 then s.onTile pt f else s.bundleFault pt slot cause

end Sys2Proof.Machine
end

