-- ==== Sys2Proof/Machine/Strandline.lean ====
section
/-! DEFINITION. The Strandline record's entries (R525 to R527) and the supervisor that writes them. -/
namespace Sys2Proof.Machine

/-! ### The supervisor (Table 18-7) -/

def coreOff : Nat := 0
def coreStandby : Nat := 1
def coreRunning : Nat := 2
def coreRestarting : Nat := 3
def coreFailed : Nat := 4
def coreHeld : Nat := 5
/-- A supervisor runs. -/
def State.supUp (s : State) : Bool :=
  !s.on GLB_FWSTAT_SUP_DEAD && s.rd GLB_FWCORE_STATE (s.rd GLB_FWSTAT_ACTIVE_SUP) == coreRunning

/-! ### Appending -/

def State.onStl (s : State) (f : Stl → Stl) : State := { s with stl := f s.stl }
/-- Lifetime power-on seconds. -/
def State.powerS (s : State) : Nat := s.stl.baseS + s.rd TID_WALL_TICKS / 100000000

/-- Bytes 0 to 59 of an entry, and the whole entry. -/
def stlHead (seq time typ : Nat) (body : List Byte) : List Byte :=
  leBytes 8 seq ++ leBytes 8 time ++ leBytes 1 typ ++ leBytes 3 0 ++ (body ++ leBytes (40 - body.length) 0).take 40
def stlEntry (seq time typ : Nat) (body : List Byte) : List Byte :=
  let h := stlHead seq time typ body
  h ++ leBytes 4 (crc32c h)

/-- STL_WINDOW shows the entry STL_READ names, zero beyond NEXT_SEQ (Table 23-12). -/
def State.stlWindow (s : State) : State :=
  let e := smGet (fun _ => []) s.stl.entries (s.rd STL_READ_SEQ)
  (List.range 8).foldl (fun s w => s.wr STL_WINDOW_DATA w (leNat ((e.drop (8 * w)).take 8))) s

/-- An entry is written at NEXT_SEQ; with no entry left it is dropped and counted. -/
def State.stlWrite (s : State) (typ : Nat) (body : List Byte) : State :=
  let free := s.rd STL_STATUS_FREE
  if free = 0 then s.bump STL_STATUS_DROPPED 0 1
  else
    let seq := s.rd STL_STATUS_NEXT_SEQ
    let s := s.onStl fun r => { r with entries := smSet (fun _ => []) r.entries seq (stlEntry seq s.powerS typ body) }
    (((s.wr STL_STATUS_NEXT_SEQ 0 (seq + 1)).wr STL_STATUS_FREE 0 (free - 1)).flag STL_STATUS_NEAR_FULL 0
      (decide (free - 1 ≤ 4096))).stlWindow

/-- An entry is raised: written by the supervisor, or kept until one runs again (R427). -/
def State.strand (s : State) (typ : Nat) (body : List Byte) : State :=
  if s.supUp then s.stlWrite typ body else s.onStl fun r => { r with waiting := r.waiting ++ [(typ, body)] }
/-- Entries of a supervisor's gap are written in their order. -/
def State.stlFlush (s : State) : State :=
  let w := s.stl.waiting
  w.foldl (fun s e => s.stlWrite e.1 e.2) (s.onStl fun r => { r with waiting := [] })

/-! ### Entries (Table 23-8) -/

/-- SPARE: kind 1 tile, 2 lane group, 3 waveguide, 4 laser; cause 0 self-test, 1 quarantine. -/
def State.stlSpare (s : State) (kind station unit cause : Nat) : State :=
  s.strand 5 (leBytes 1 kind ++ leBytes 1 station ++ leBytes 2 unit ++ leBytes 1 cause)
/-- SWAP of a laser source. -/
def State.stlSwap (s : State) (old new pos fade why : Nat) : State :=
  s.strand 6 (leBytes 1 old ++ leBytes 1 new ++ leBytes 1 pos ++ leBytes 2 fade ++ leBytes 1 why)
/-- GRADE or its pending mark changes: reason 1 self-test, 2 launch, 3 commissioning. -/
def State.stlGrade (s : State) (old new reason pending : Nat) : State :=
  s.strand 7 (leBytes 1 old ++ leBytes 1 new ++ leBytes 1 reason ++ leBytes 1 (s.rd HRN_OPTSEL_CALM_WHY) ++ leBytes 1 pending)
/-- A Squall drill starts (1) or ends (2). -/
def State.stlDrill (s : State) (what : Nat) : State :=
  s.strand 13 (leBytes 1 what ++ leBytes 1 (s.rd FAB_SQUALL_CTRL_TARGET) ++ leBytes 1 (s.rd FAB_SQUALL_CTRL_PORTS))
/-- A coupler's width changes. -/
def State.stlWidth (s : State) (station width : Nat) : State := s.strand 15 (leBytes 1 station ++ leBytes 2 width)

end Sys2Proof.Machine
end

