-- ==== Sys2Proof/Machine/Control.lean ====
section
/-! DEFINITION. The control slot (R87, R88, R97, R99 to R102, R155 to R161). -/
namespace Sys2Proof.Machine

/-! ### The end of a die's work (R80, R100) -/

/-- Row shifts of a die that waited for its job's end (R80). On an armed module a shift clears ARMED until the row is
written again (R509). -/
def State.shiftRows (s : State) (d : Nat) : State :=
  (List.range 16).foldl (fun s r =>
    let i := d * 16 + r
    if s.on HDL_ROWMAP_PENDING i then
      let n := popN 18 (s.rd HDL_ROWMAP_FAILED i)
      let s := (s.flt.pendRows.filter fun p => p.1 == i).foldl (fun s p => s.stlSpare 1 d (18 * r + p.2) 1) s
      let s := { s with flt := { s.flt with pendRows := s.flt.pendRows.filter fun p => p.1 != i } }
      let s := if s.on TWN_STATUS_ARMED || !s.twn.rewrite.isEmpty then
        { s.wr TWN_STATUS_ARMED 0 0 with twn := { s.twn with rewrite := s.twn.rewrite ++ [i] } } else s
      ((s.wr HDL_ROWMAP_PENDING i 0).wr HDL_ROWMAP_SPARES_USED i (min n 2)).flag HDL_ROWMAP_UNREPAIRED i (decide (2 < n))
    else s) s

/-- A die's work is finished (R100): LOCK clears and pending row shifts apply. -/
def State.finishDie (s : State) (d : Nat) : State :=
  ((s.setDie d { s.die d with running := false }).wr TPL_CTRL_LOCK d 0).shiftRows d

/-- A tile has issued END: the die is finished when every active tile has. -/
def State.endTile (s : State) (d : Nat) : State :=
  if (s.die d).running && (List.range 256).all fun t => (s.tile (d * 256 + t)).issue == .ended then s.finishDie d else s

/-- The bundle after `pc` when nothing branches, under the loop stack, top first (R101). -/
def loopNext (pc : Nat) : List LoopEnt → Nat × List LoopEnt
  | [] => ((pc + 1) % 4096, [])
  | e :: es =>
    if pc = e.fin then
      if 1 < e.left then (e.start, { e with left := e.left - 1 } :: es) else loopNext pc es
    else ((pc + 1) % 4096, e :: es)

/-- Go on to the next bundle in the next cycle. -/
def Tile.advance (t : Tile) (c : Nat) : Tile :=
  let r := loopNext t.pc.toNat t.loops
  { t with pc := BitVec.ofNat 12 r.1, loops := r.2, nextCyc := c + 1, reached := none }

/-- A taken branch: entries whose range does not hold the target are dropped; the target issues three
cycles later (R99, R101). -/
def Tile.branch (t : Tile) (c : Nat) (tgt : BitVec 12) : Tile :=
  { t with pc := tgt, nextCyc := c + 3, reached := none,
           loops := t.loops.filter fun e => decide (e.start ≤ tgt.toNat) && decide (tgt.toNat ≤ e.fin) }

/-- BRC conditions (Table 4-4). -/
def brcTaken (cond : Nat) (v : W64) : Bool :=
  match cond with
  | 0 => true
  | 1 => v == 0
  | 2 => v != 0
  | 3 => decide (v.toInt < 0)
  | 4 => decide (0 ≤ v.toInt)
  | 5 => decide (0 < v.toInt)
  | 6 => decide (v.toInt ≤ 0)
  | _ => false

def execNop (_ : At) (s : State) : Res := .next s

def execBrc (pt : At) (o : CBrc) (s : State) : Res :=
  .next (slotOp pt 0 (causeBrc o) (fun t =>
    if brcTaken o.cond.toNat (t.rdS o.sa) then t.branch pt.cyc o.tgt else t.advance pt.cyc) s)

/-- EPCHK branches when the die's copy of the role epoch differs from S[SA][15:0] (R161). -/
def execEpchk (pt : At) (o : CEpchk) (s : State) : Res :=
  .next (slotOp pt 0 0 (fun t =>
    if (s.die pt.die.val).epoch ≠ (t.rdS o.sa).toNat % 65536 then t.branch pt.cyc o.tgt else t.advance pt.cyc) s)

/-- Bundle-fault cause of a LOOP at issue (R102, Table 4-12). -/
def loopCause (t : Tile) (fin : BitVec 12) : Nat :=
  let pc := t.pc.toNat
  firstCause [(9, decide (fin.toNat < pc + 1)),
    (10, decide (4 ≤ t.loops.length) || t.loops.any fun e => decide (e.fin < fin.toNat)),
    (11, t.loops.any fun e => decide (e.fin = pc))]

/-- LOOP and LOOPI with their count (R99, R101, R102). -/
def loopOp (pt : At) (count : Tile → Nat) (fin : BitVec 12) (s : State) : State :=
  let t := (s.tile (tileKey pt.die pt.tile)).settle pt.cyc
  slotOp pt 0 (loopCause t fin) (fun t =>
    let n := count t
    if n = 0 then { t with pc := fin + 1, nextCyc := pt.cyc + 3, reached := none }
    else { t with loops := ⟨t.pc.toNat + 1, fin.toNat, n⟩ :: t.loops, pc := t.pc + 1, nextCyc := pt.cyc + 1,
                  reached := none }) s

def execLoop (pt : At) (o : CLoop) (s : State) : Res :=
  .next (loopOp pt (fun t => (t.rdS o.sa).toNat % 2 ^ 32) o.fin s)
def execLoopi (pt : At) (o : CLoopi) (s : State) : Res := .next (loopOp pt (fun _ => o.cnt.toNat) o.fin s)

/-- WAITC's condition (R97): the visible COUNT is at least VAL, or bits [19:0] of S[SA]. -/
def waitcOk (t : Tile) (o : CWaitc) : Bool :=
  let v := if o.src then (t.rdS (o.val.setWidth 5)).toNat % 2 ^ 20 else o.val.toNat
  decide (v ≤ bitsN (t.rdK o.k).toNat 0 20)

/-- WAITC: its bundle issues in this cycle if the counter has reached the value, else nothing
happens (R155). -/
def execWaitc (pt : At) (o : CWaitc) (s : State) : Res :=
  .next (slotOp pt 0 (causeWaitc o) (fun t => if waitcOk t o then t.advance pt.cyc else t) s)

/-- TIDEW's target tick: S[SA] plus OFF sign-extended, modulo 2^64 (R88). -/
def tidewTarget (t : Tile) (o : CTidew) : Nat := (t.rdS o.sa + o.off.signExtend 64).toNat
/-- TIDEW's condition: the region counter exceeds the target, or this is cycle 0 of the target tick. -/
def tidewOk (t : Tile) (r : Region) (c : Nat) (o : CTidew) : Bool :=
  decide (tidewTarget t o < r.tick) || (decide (r.tick = tidewTarget t o) && decide (c = r.tick0))
/-- Whether the target had already passed when the bundle was reached: in an earlier tick, or in this one (R156). -/
def tidewPassed (t : Tile) (r : Region) (o : CTidew) : Bool := decide (tidewTarget t o < t.reached.getD r.tick)
/-- The region's tick `old` ends as cycle `c` begins: a bundle reached before stays reached in that tick (R156). -/
def Tile.tickOver (old c : Nat) (t : Tile) : Tile :=
  let here := match t.issue with
    | .issuing => true
    | .waiting T => decide (T ≤ old)
    | _ => false
  if here && t.reached.isNone && decide (t.nextCyc < c) then { t with reached := some old } else t

/-- TIDEW: issues at cycle 0 of its tick; a passed target issues at once with a NOTE (kind 0x05). -/
def execTidew (pt : At) (o : CTidew) (s : State) : Res :=
  let r := s.region (regionKey pt.die.val pt.tile.val)
  .next (slotOp pt 0 0 (fun t =>
    if tidewOk t r pt.cyc o then
      (if tidewPassed t r o then t.report 0x05 (tidewTarget t o) else t).advance pt.cyc
    else t) s)

def execEndIssue (pt : At) (s : State) : Res :=
  .next ((s.onTile pt fun t => { t with issue := .ended }).endTile pt.die.val)

/-! ### Fences (R157, R158) -/

/-- FSET class of a move command: bit number, if any. -/
def fenceClass (k : MvKind) (osf : BitVec 25) : Option Nat :=
  match k with
  | .msend => some 0
  | .tpst => some 1
  | .hbwr => some 2
  | .note => some 3
  | .fst | .fatm => some 4
  | .otxa => some 5
  | .kvapp | .kvgth | .kvbws => some (if osf.getLsbD 6 then 2 else 1)
  | _ => none

def inFset (f : BitVec 8) (c : MoveCmd) : Bool :=
  match fenceClass c.kind c.osf with
  | some b => f.getLsbD b
  | none => false

/-- FENCE: it waits for the selected commands issued before it and not yet completed (log 91). A selected command of
its own bundle that the full queue refused has completed with CAPACITY, which counts (R157, R158). -/
def fenceIssue (pt : At) (o : CFence) (t : Tile) : Tile :=
  let refused := match t.refused with
    | some (c, some b) => decide (c = pt.cyc) && o.fset.getLsbD b
    | _ => false
  let ids := (t.queue.filter (inFset o.fset)).map (·.id)
    ++ ((t.active.map (·.cmd)).filter (inFset o.fset)).map (·.id)
  { t with fences := t.fences ++ [⟨o.k, pt.cyc, ids, if refused then 0x0B else 0⟩] }

def execFence (pt : At) (o : CFence) (s : State) : Res :=
  .next (slotOp pt 0 (causeFence o) (fun t => (fenceIssue pt o t).advance pt.cyc) s)

/-- The code R7 places first of two. -/
def codeRank (c : Nat) : Nat :=
  match c with
  | 0x05 => 1 | 0x04 => 2 | 0x09 => 3 | 0x03 => 4 | 0x02 => 5 | 0x06 => 6 | 0x0A => 7 | 0x0B => 8
  | 0x07 => 9 | 0x08 => 10 | 0x0C => 11 | 0x01 => 12 | _ => 13
def worstCode (a b : Nat) : Nat := if codeRank b < codeRank a then b else a
/-- The code R7 places first among the conditions that hold. -/
def armCode (cs : List (Nat × Bool)) : Nat := cs.foldl (fun c x => if x.2 then worstCode c x.1 else c) 0

/-- A command's completion reaches the fences that wait for it. -/
def fenceDone (id code : Nat) (f : FenceEnt) : FenceEnt :=
  if f.ids.contains id then { f with ids := f.ids.filter (· != id), code := worstCode f.code code } else f

/-- FENCE_RECORD: every fence with nothing outstanding, issued in an earlier cycle, records once in
its counter. -/
def execFenceRecord (pt : At) (s : State) : Res :=
  .next (s.onTile pt fun t =>
    let ready := t.fences.filter fun f => f.ids.isEmpty && decide (f.issue < pt.cyc)
    let t := { t with fences := t.fences.filter fun f => !(f.ids.isEmpty && decide (f.issue < pt.cyc)) }
    ready.foldl (fun t f => t.post pt.cyc 1 0 (.done f.k f.code)) t)

/-! ### Barriers (R159) -/

/-- Members of a set. -/
def State.isMember (s : State) (d set t : Nat) : Bool :=
  (s.rd HDL_BARSET_MEMBERS (d * 64 + set * 4 + t / 64)).testBit (t % 64)
def State.members (s : State) (d set : Nat) : List Nat := (List.range 256).filter fun t => s.isMember d set t
def Tile.arrivals (t : Tile) (set : Nat) : Nat := smGet (fun _ => 0) t.barr set
/-- Arrivals of the slowest member. -/
def State.slowest (s : State) (d set : Nat) : Nat :=
  match (s.members d set).map fun m => (s.tile (d * 256 + m)).arrivals set with
  | [] => 0
  | a :: as => as.foldl min a
def State.barr (s : State) (d set : Nat) : List BarrEnt := smGet (fun _ => []) s.barrs (d * 16 + set)
def State.setBarr (s : State) (d set : Nat) (l : List BarrEnt) : State :=
  { s with barrs := smSet (fun _ => []) s.barrs (d * 16 + set) l }

/-- BARR: an arrival, or CAPACITY beyond three ahead of the slowest member, PERM from a non-member,
OK on an empty set. -/
def barrArrive (pt : At) (o : CBarr) (s : State) : State :=
  let d := pt.die.val
  let me := pt.tile.val
  let set := o.bset.toNat
  let now (code delay : Nat) (s : State) : State :=
    s.onTile pt fun t => { t with pend := pendInsert ⟨pt.cyc + delay, pt.cyc, 0, .done o.k code⟩ t.pend }
  if (s.members d set).isEmpty then now 0 1 s
  else if !s.isMember d set me then now 0x05 0 s
  else
    let mine := (s.tile (tileKey pt.die pt.tile)).arrivals set
    if s.slowest d set + 3 ≤ mine then now 0x0B 0 s
    else
      let s := s.onTile pt fun t => { t with barr := smSet (fun _ => 0) t.barr set (mine + 1) }
      s.setBarr d set (s.barr d set ++ [⟨mine + 1, me, o.k⟩])

def execBarr (pt : At) (o : CBarr) (s : State) : Res :=
  .next ((barrArrive pt o s).onTile pt fun t => t.advance pt.cyc)

def recordEach (d cyc : Nat) : List BarrEnt → State → State
  | [], s => s
  | b :: bs, s =>
    let t := (s.tile (d * 256 + b.tile)).settle cyc
    recordEach d cyc bs (s.putTile d b.tile (t.post cyc 1 0 (.done b.k 0)))

/-- BARRIER_RELEASE: arrivals of the generations that every member has reached record OK, each in the
counter its BARR named. -/
def execBarrierRelease (die : Fin 24) (set : Fin 16) (cyc : Nat) (s : State) : Res :=
  let g := s.slowest die.val set.val
  let l := s.barr die.val set.val
  let rel := l.filter fun b => decide (b.gen ≤ g)
  .next (recordEach die.val cyc rel (s.setBarr die.val set.val (l.filter fun b => !decide (b.gen ≤ g))))

end Sys2Proof.Machine
end

