-- ==== Sys2Proof/Machine/Move.lean ====
section
/-! DEFINITION. The move engine (R74, R136 to R138, R141, R142, R154) and the links (R76, R77): the
queue, starting and completing commands, MSEND and IBLD. -/
namespace Sys2Proof.Machine

/-! ### Error codes (Table 0-3) -/
def cOK : Nat := 0x00
def cPOISON : Nat := 0x01
def cTARGET_LOST : Nat := 0x02
def cROLE_MOVED : Nat := 0x03
def cADDR_FAULT : Nat := 0x04
def cPERM : Nat := 0x05
def cSTALE_ATOMIC : Nat := 0x06
def cABORTED : Nat := 0x07
def cTIMEOUT : Nat := 0x08
def cUNSUPPORTED : Nat := 0x09
def cREPLICA_WRITE : Nat := 0x0A
def cCAPACITY : Nat := 0x0B
def cMISSED : Nat := 0x0C

/-- A command with its registers read at issue; LEN = 0 takes S[SC][15:0] (R95, R136). -/
def mkMove (kind : MvKind) (o : MV) (t : Tile) : MoveCmd :=
  let rc := t.rdS o.sc
  { id := t.nextId, kind := kind, k := o.k, la := t.rdS o.sa, rb := t.rdS o.sb, rc := rc,
    len := if o.len = 0 then rc.toNat % 65536 else o.len.toNat, osf := o.osf }

/-- Record a completion in a counter in cycle `c` (visible in the next). -/
def Tile.record (t : Tile) (c : Nat) (k : BitVec 4) (code : Nat) : Tile := t.post c 1 slotMove (.done k code)

/-- Accept a command into the queue; into a full queue it is not executed, records CAPACITY and
raises a NOTE (R74, kind 0x06). -/
def Tile.enqueue (t : Tile) (c : Nat) (m : MoveCmd) : Tile :=
  if 32 ≤ t.queue.length then
    { (t.record c m.k cCAPACITY).report 0x06 0 with refused := some (c, fenceClass m.kind m.osf) }
  else { t with queue := t.queue ++ [m], nextId := t.nextId + 1 }

/-- A move-slot operation issues: it enters the queue. -/
def issueMove (pt : At) (kind : MvKind) (o : MV) (t : Tile) : Tile := t.enqueue pt.cyc (mkMove kind o t)

/-- Local range of a command: aligned start and byte length. -/
def MoveCmd.la32 (m : MoveCmd) : Nat := align32 m.la.toNat
def MoveCmd.bytes (m : MoveCmd) : Nat := 32 * m.len
/-- The local range lies in the tile store (R136). -/
def MoveCmd.localOk (m : MoveCmd) : Bool := decide (m.la.toNat < storeSize) && decide (m.la32 + m.bytes ≤ storeSize)
/-- An OSF field, by slot bit. -/
def MoveCmd.osfAt (m : MoveCmd) (lo w : Nat) : Nat := bitsN m.osf.toNat (lo - 39) w

/-- A started command goes on with `left` parts outstanding. -/
def Tile.activate (t : Tile) (c : Nat) (m : MoveCmd) (code left : Nat) (data : List Byte) (poison : Bool) : Tile :=
  { t with active := t.active ++ [⟨m, c, code, left, data, poison⟩], lastStart := c }

/-- The data a move command reads from its local range, and whether a double-bit error poisons it (R72). -/
def Tile.readLocal (t : Tile) (m : MoveCmd) : Tile × List Byte × Bool :=
  (t.readFaults false m.la32 m.bytes, t.bytes m.la32 m.bytes, eccIn t.ecc 2 m.la32 m.bytes)

/-- The command with an id completes with a code: one completion in its counter, and its fences see
it (R137, R157). -/
def Tile.finishMove (t : Tile) (c id code : Nat) : Tile :=
  match t.active.find? (fun a => a.cmd.id == id) with
  | none => t
  | some a =>
    let t := t.record c a.cmd.k code
    { t with active := t.active.filter (fun a => a.cmd.id != id), fences := t.fences.map (fenceDone id code) }

/-- One part of a command ends with a code; the code kept is the one R7 places first. -/
def ActiveMove.part (id code : Nat) (a : ActiveMove) : ActiveMove :=
  if a.cmd.id = id then { a with left := a.left - 1, code := worstCode a.code code } else a
def Tile.movePart (t : Tile) (id code : Nat) : Tile := { t with active := t.active.map (ActiveMove.part id code) }

/-- Act on a tile at the last cycle it has seen. -/
def State.onTileNow (s : State) (d t : Nat) (f : Tile → Tile) : State := s.putTile d t (f (s.tile (d * 256 + t)))

/-! ### Links (R76, R77) -/

/-- The logical tile a link reaches, if it lies inside the grid. Links 0 to 3 are mesh N, E, S, W and
4 to 7 express N, E, S, W. -/
def linkTarget (t link : Nat) : Option Nat :=
  let r := t / 16
  let c := t % 16
  let k := if link < 4 then 1 else 4
  match link % 4 with
  | 0 => if k ≤ r then some ((r - k) * 16 + c) else none
  | 1 => if c + k < 16 then some (r * 16 + (c + k)) else none
  | 2 => if r + k < 16 then some ((r + k) * 16 + c) else none
  | _ => if k ≤ c then some (r * 16 + (c - k)) else none

/-- Hop latency in cycles (R77). -/
def linkLatency (src dst link : Nat) : Nat :=
  if link < 4 then (if link % 2 = 1 then 2 else if src / 64 = dst / 64 then 2 else 4)
  else if link % 2 = 1 then 3 else 5

/-- Bytes a link moves in a cycle. -/
def linkWidth (link : Nat) : Nat := if link < 4 then 128 else 32
/-- Cycles a transfer of `len` units holds its link: 128 B per cycle on mesh, 32 B on express. -/
def linkCycles (len link : Nat) : Nat := if link < 4 then (len + 3) / 4 else len

/-- A command ends at its start with a code. -/
def State.endAt (s : State) (pt : At) (m : MoveCmd) (code : Nat) : State :=
  s.onTile pt fun t => t.activate pt.cyc m code 0 [] false
/-- A command ends at its start with ADDR_FAULT; the address goes to the cell collector (R69, R466). -/
def State.endFault (s : State) (pt : At) (m : MoveCmd) (addr : Nat) : State :=
  s.onTile pt fun t => (t.report 0x04 addr).activate pt.cyc m cADDR_FAULT 0 [] false
/-- The first address of a range outside the tile store. -/
def outAddr (a : Nat) : Nat := if storeSize ≤ a then a else storeSize

/-- Start MSEND (R142): the checks, then the transfer behind earlier ones on the same link. -/
def startMsend (pt : At) (m : MoveCmd) (s : State) : State :=
  let link := m.osfAt 39 4
  let ra := align32 m.rb.toNat
  match linkTarget pt.tile.val link with
  | none => s.endFault pt m m.rb.toNat
  | some dst =>
    if m.len = 0 then s.endAt pt m cOK
    else if !m.localOk then s.endFault pt m (outAddr m.la.toNat)
    else if storeSize ≤ m.rb.toNat || storeSize < ra + m.bytes then s.endFault pt m (outAddr m.rb.toNat)
    else
      let t := (s.tile (tileKey pt.die pt.tile)).settle pt.cyc
      let (t, data, poison) := t.readLocal m
      let s := s.putTile pt.die.val pt.tile.val (t.activate pt.cyc m (if poison then cPOISON else cOK) 1 data poison)
      let ahead := s.links.filter fun l =>
        l.die == pt.die.val && l.src == pt.tile.val && l.link == link
      let lat := linkLatency pt.tile.val dst link
      let free := ahead.foldl (fun x l => max x (l.last + 2 - lat)) pt.cyc
      { s with links := s.links ++ [⟨pt.die.val, pt.tile.val, dst, link, ra, data, poison, BitVec.ofNat 4 (m.osfAt 43 4),
                                     linkWidth link, free + lat - 1, free + linkCycles m.len link + lat - 2, m.id⟩] }

/-- For source units the plan overwrote before the transfer was acknowledged, the old or the new data
was sent, which being left open (R98). -/
def openUnits (free : Nat) : Nat → List Byte → List Byte → List Byte
  | 0, old, _ => old
  | n + 1, old, new =>
    let o := old.take 32
    let w := new.take 32
    (if o == w || Config.freeItem free n % 2 = 0 then o else w) ++ openUnits free n (old.drop 32) (new.drop 32)

/-- The bytes a transfer still has to write, as the sender's store has them now. -/
def LinkMsg.current (l : LinkMsg) (snd : Tile) : List Byte :=
  match snd.active.find? (fun a => a.cmd.id == l.id) with
  | some a => (snd.bytes a.cmd.la32 a.cmd.bytes).drop (a.data.length - l.data.length)
  | none => l.data

/-- The first `n` bytes still to be written leave the sender and land at the receiver in its cycle `rcyc`; the next part
follows in the sender's cycle `next` at the earliest. -/
def State.landLink (s : State) (l : LinkMsg) (n next rcyc : Nat) : State :=
  let snd := s.tile (l.die * 256 + l.src)
  let data := openUnits s.free ((min n l.data.length + 31) / 32) (l.data.take n) ((l.current snd).take n)
  let s := { s with links := s.links.map fun x => if x == l then { l with addr := l.addr + n, data := l.data.drop n, due := next } else x,
                    free := s.free + 1 }
  let rcv := (s.tile (l.die * 256 + l.dst)).settle rcyc
  s.putTile l.die l.dst (rcv.writeBytes l.addr data)

/-- LINK_DELIVERY: the parts of a sender's oldest transfer on a link that can be written by the end of the sender's
cycle are written at the receiver, one in a cycle from cycle X + L − 1 (R77). With the last unit the receiver's counter
RK records and the sender's part ends. -/
def execLinkDelivery (pt : At) (link : BitVec 3) (rcyc : Nat) (s : State) : Res :=
  let mine := fun l : LinkMsg => l.die == pt.die.val && l.src == pt.tile.val && l.link == link.toNat
  match s.links.find? mine with
  | none => .next s
  | some l =>
    if pt.cyc < l.due then .next s else
    let n := (pt.cyc + 1 - l.due) * l.width
    let s := (s.onTile pt id).landLink l n (pt.cyc + 1) rcyc
    if n < l.data.length then .next s else
    let code := if l.poison then cPOISON else cOK
    let s := { s with links := s.links.eraseP mine }
    let s := s.onTile pt fun t => t.movePart l.id code
    .next (s.putTile l.die l.dst ((s.tile (l.die * 256 + l.dst)).record rcyc l.rk code))

/-! ### Inbound buffers (R71) -/

/-- Entries of at most 128 B; the last carries what ends with the delivery. -/
def inEntries (src : Nat) : Nat → Nat → List Byte → InFin → List InEnt
  | 0, a, bs, fin => [⟨src, a, bs, 0, fin⟩]
  | n + 1, a, bs, fin =>
    if bs.length ≤ 128 then [⟨src, a, bs, 0, fin⟩]
    else ⟨src, a, bs.take 128, 0, .more⟩ :: inEntries src n (a + 128) (bs.drop 128) fin

/-- A delivery reaches a tile's inbound buffer: 8 Tidepool return, 9 HBM return, 10 optical receive. -/
def Tile.inbound (t : Tile) (src addr : Nat) (bs : List Byte) (fin : InFin) : Tile :=
  { t with inq := t.inq ++ inEntries src (bs.length / 128) addr bs fin }

/-- What ends with an entry. -/
def Tile.inEnd (t : Tile) (c : Nat) : InFin → Tile
  | .more => t
  | .part id code => t.movePart id code
  | .cmd id code => t.finishMove c id code
  | .count k code => t.record c k code

/-- The oldest entry of a source is written into the tile store in cycle `c`; the next follows a cycle later. -/
def Tile.drain (t : Tile) (c src : Nat) : Tile :=
  match t.inq.find? (fun e => e.src == src) with
  | none => t
  | some e =>
    if c < e.due then t else
    let q := (t.inq.eraseP fun e => e.src == src).map fun x => if x.src = src then { x with due := c + 1 } else x
    ({ t with inq := q }.writeBytes e.addr e.data).inEnd c e.fin

/-- INBOUND_BUFFER_DRAIN: a source's inbound buffer writes its oldest entry and frees it, so its credits release the
sender (R71). Sources: 0 to 3 mesh N, E, S, W; 4 to 7 express, whose parts are in the sender's cycle `scyc`; 8
Tidepool return, 9 HBM return, 10 optical receive. The command names the port that is served (log 20). -/
def execInboundBufferDrain (pt : At) (source : InPort) (s : State) : Res :=
  match source with
  | .tidepool => .next (s.onTile pt fun t => t.drain pt.cyc 8)
  | .hbm => .next (s.onTile pt fun t => t.drain pt.cyc 9)
  | .optical => .next (s.onTile pt fun t => t.drain pt.cyc 10)
  | .link n scyc =>
  match s.links.find? (fun l : LinkMsg => l.die == pt.die.val && l.dst == pt.tile.val
    && (l.link + 2) % 4 + l.link / 4 * 4 == n.val) with
  | none => .next s
  | some l =>
    if scyc < l.due || l.data.length ≤ l.width then .next s
    else .next ((s.putTile l.die l.src ((s.tile (l.die * 256 + l.src)).settle scyc)).landLink l l.width (scyc + 1) pt.cyc)

/-! ### IBLD (R73, R141) -/

def startIbld (pt : At) (m : MoveCmd) (s : State) : State :=
  if m.len = 0 then s.endAt pt m cOK
  else if !m.localOk then s.endFault pt m (outAddr m.la.toNat)
  else if 4096 < m.rb.toNat % 4096 + m.len then s.endFault pt m (32 * 4096)
  else s.onTile pt fun t =>
    let (t, data, poison) := t.readLocal m
    t.activate pt.cyc m (if poison then cPOISON else cOK) 0 data poison

/-- Consecutive 32 B units of a byte list. -/
def units32 : Nat → List Byte → List W256
  | 0, _ => []
  | n + 1, bs => BitVec.ofNat 256 (leNat (bs.take 32)) :: units32 n (bs.drop 32)

/-- The instruction-buffer writes of an IBLD land by its completion. -/
def commitIbld (a : ActiveMove) (t : Tile) : Tile :=
  if a.cmd.kind = .ibld && !a.data.isEmpty then
    let b := a.cmd.rb.toNat % 4096
    { t with ibuf := smSplice (fun _ => 0) t.ibuf b (units32 (a.data.length / 32) a.data),
             ieccs := eccWrite t.ieccs (32 * b) a.data.length }
  else t

/-- The bundle at an index as fetched: while an IBLD into it is not complete, the old or the new
bundle, which being left open (R73). -/
def fetchBundle (t : Tile) (pc : Nat) : W256 :=
  let old := smGet (fun _ => 0) t.ibuf pc
  match t.active.find? (fun a => a.cmd.kind == .ibld && decide (a.cmd.rb.toNat % 4096 ≤ pc)
      && decide (pc < a.cmd.rb.toNat % 4096 + a.data.length / 32)) with
  | none => old
  | some a =>
    let new := BitVec.ofNat 256 (leNat ((a.data.drop (32 * (pc - a.cmd.rb.toNat % 4096))).take 32))
    if Config.freeTile t.key t.free pc % 2 = 0 then old else new

end Sys2Proof.Machine
end

