-- ==== Sys2Proof/Machine/Stations.lean ====
section
/-! DEFINITION. Stations of the Harene layer, their tide table buffers and slots (R197 to R199, R215,
R219), and the accessors of the module's other state. -/
namespace Sys2Proof.Machine

/-! ### Accessors -/

def State.stn (s : State) (q : Nat) : Stn := smGet (fun _ => Stn.reset) s.stns q
def State.setStn (s : State) (q : Nat) (x : Stn) : State := { s with stns := smSet (fun _ => Stn.reset) s.stns q x }
def State.coupler (s : State) (d : Nat) : Coupler := smGet (fun _ => Coupler.reset) s.couplers d
def State.setCoupler (s : State) (d : Nat) (x : Coupler) : State :=
  { s with couplers := smSet (fun _ => Coupler.reset) s.couplers d x }
def State.shg (s : State) (k : Nat) : Shg := smGet (fun _ => Shg.reset) s.shgs k
def State.setShg (s : State) (k : Nat) (x : Shg) : State := { s with shgs := smSet (fun _ => Shg.reset) s.shgs k x }
def State.emit (s : State) (o : Out) : State := { s with out := s.out ++ [o] }
def State.wall (s : State) : Nat := s.rd TID_WALL_TICKS
def State.ticks (s : State) : Nat := s.rd TID_COUNTER_TICKS
/-- Tick within the tide cycle. -/
def State.tk (s : State) : Nat := s.ticks % 1024
def State.idle (s : State) : Bool := s.on TID_STATUS_IDLE_NOW
def State.calm (s : State) : Bool := s.on TID_STATUS_OPT_MODE

/-! ### Stations (Table 9-1) -/

/-- Station ID of a dense index. -/
def stnId (q : Nat) : Nat := if q < 24 then q else q + 8
/-- Dense index of a valid station ID. -/
def stnQ (id : Nat) : Option Nat :=
  if id < 0x18 then some id else if 0x20 ≤ id ∧ id ≤ 0x30 then some (id - 8) else none
/-- Egress waveguides, which equal the drop ports. -/
def wgCount (q : Nat) : Nat := if q < 24 then 60 else if q < 40 then 30 else 45
/-- Global bundle of a logical egress waveguide (R219). -/
def wgBundle (q w : Nat) : Nat := (if q < 24 then 4 * q else if q < 40 then 96 + 2 * (q - 24) else 128) + w / 15

/-! ### Tide tables -/

/-- The buffer that governs the current cycle. -/
def State.activeBuf (s : State) (q : Nat) : Mem :=
  if s.on STN_TIDE_ACTIVE q then (s.stn q).bufB else (s.stn q).bufA
def State.otherBuf (s : State) (q : Nat) : Mem :=
  if s.on STN_TIDE_ACTIVE q then (s.stn q).bufA else (s.stn q).bufB

/-- Transmit entry (Table 8-4) of a buffer. -/
def txWord (buf : Mem) (t w : Nat) : Nat := memNat buf ((t * 64 + w) * 8) 8
/-- Drop record (Table 8-5) of a buffer. -/
def rxWord (buf : Mem) (t d : Nat) : Nat := memNat buf (0x80000 + (t * 64 + d) * 4) 4

structure TxEnt where
  valid : Bool
  dst : Nat
  dport : Nat
  src : Nat
  srck : Nat
  tag : Nat
deriving DecidableEq, Repr
structure RxEnt where
  valid : Bool
  sstn : Nat
  swg : Nat
  dtile : Nat
  dkind : Nat
  tag6 : Nat
deriving DecidableEq, Repr

def txEnt (w : Nat) : TxEnt := ⟨w.testBit 0, bitsN w 1 8, bitsN w 9 6, bitsN w 15 8, bitsN w 23 2, bitsN w 32 16⟩
def rxEnt (w : Nat) : RxEnt := ⟨w.testBit 0, bitsN w 1 8, bitsN w 9 6, bitsN w 15 8, bitsN w 23 2, bitsN w 25 7⟩

/-- The service schedule (R266): Harbour waveguides 2k and 2k + 1 to drop ports 28 and 29 of stack k,
and its waveguides 28 and 29 back. -/
def serviceTx (q w : Nat) : TxEnt :=
  if q = 40 ∧ w < 32 then ⟨true, 0x20 + w / 2, 28 + w % 2, 0, 1, 0⟩
  else if 24 ≤ q ∧ q < 40 ∧ (w = 28 ∨ w = 29) then ⟨true, 0x30, 2 * (q - 24) + (w - 28), 0, 1, 0⟩
  else ⟨false, 0, 0, 0, 0, 0⟩
def serviceRx (q d : Nat) : RxEnt :=
  if q = 40 ∧ d < 32 then ⟨true, 0x20 + d / 2, 28 + d % 2, 0, 1, 0⟩
  else if 24 ≤ q ∧ q < 40 ∧ (d = 28 ∨ d = 29) then ⟨true, 0x30, 2 * (q - 24) + (d - 28), 0, 1, 0⟩
  else ⟨false, 0, 0, 0, 0, 0⟩

/-- The entry and the record in force at a station in a tick 0–1,007 of the cycle. -/
def State.txAt (s : State) (q t w : Nat) : TxEnt :=
  if (s.stn q).hasActive then txEnt (txWord (s.activeBuf q) t w) else serviceTx q w
def State.rxAt (s : State) (q t d : Nat) : RxEnt :=
  if (s.stn q).hasActive then rxEnt (rxWord (s.activeBuf q) t d) else serviceRx q d

/-- Swell payload in 32 B units in the mode in force (R143). -/
def State.payUnits (s : State) : Nat := if s.calm then 24 else 32

/-- Some transmit entry of a buffer is a memory-channel slot toward a station. -/
def txSlots (buf : Mem) (dst : Nat) : Bool :=
  buf.any fun e => e.1 < 0x80000 && e.1 % 8 == 0 &&
    (let x := txEnt (memNat buf e.1 8); x.valid && x.srck == 1 && x.dst == dst)
/-- Some drop record of a buffer is a memory-channel slot from a station. -/
def rxSlots (buf : Mem) (src : Nat) : Bool :=
  buf.any fun e => decide (0x80000 ≤ e.1) && e.1 < 0xC0000 && e.1 % 4 == 0 &&
    (let x := rxEnt (memNat buf e.1 4); x.valid && x.dkind == 1 && x.sstn == src)
/-- Whether a Headland station's active table gives a slot each way to a stack (R261). -/
def State.memSlots (s : State) (q k : Nat) : Bool :=
  (s.stn q).hasActive && txSlots (s.activeBuf q) (0x20 + k) && rxSlots (s.activeBuf q) (0x20 + k)

end Sys2Proof.Machine
end

