-- ==== Sys2Proof/Machine/Hbm.lean ====
section
/-! DEFINITION. HBM, its Shingle dies and the memory channel (11_hbm_shingle.md). -/
namespace Sys2Proof.Machine

/-! ### Addresses (R259, R260) -/

def holeBase : Nat := 0x1400000000
/-- The range lies wholly in one stack's populated 80 GiB. -/
def paOk (pa len : Nat) : Bool := decide (pa < 2 ^ 41) && decide (pa % 2 ^ 37 < holeBase) && decide (pa % 2 ^ 37 + len ≤ holeBase)
def paStack (pa : Nat) : Nat := pa / 2 ^ 37 % 16

/-- SHG_ERRLOG takes an event; while VALID is 1 only MULTI and COUNT change (R277). -/
def State.shgLog (s : State) (k offset cause station : Nat) : State :=
  let s := if s.on SHG_ERRLOG_VALID k then s.wr SHG_ERRLOG_MULTI k 1
    else (((s.wr SHG_ERRLOG_OFFSET k offset).wr SHG_ERRLOG_CAUSE k cause).wr SHG_ERRLOG_STATION k station).wr SHG_ERRLOG_VALID k 1
  s.bump SHG_ERRLOG_COUNT k 1

/-- The first faulting address of a range that is not `paOk`: its start, or the hole it runs into. -/
def faultPa (pa : Nat) : Nat := if 2 ^ 41 ≤ pa ∨ holeBase ≤ pa % 2 ^ 37 then pa else pa / 2 ^ 37 * 2 ^ 37 + holeBase
/-- An address fault of a station's access to a range (R260, R466): a hole is logged at the owning stack; address bits
[63:41] report to the tile's own cell collector. -/
def State.paFault (s : State) (station tile pa : Nat) : State :=
  if pa < 2 ^ 41 then s.shgLog (paStack pa) (faultPa pa % 2 ^ 37) 0 station
  else s.raise ⟨0x04, station, tile, none, pa, cADDR_FAULT⟩

/-! ### Stored blocks (R268, R269, Table 11-5) -/

def State.blkErr (s : State) (b : Nat) : BlkErr := smGet (fun _ => BlkErr.none) s.undec b
def State.setErr (s : State) (b : Nat) (e : BlkErr) : State := { s with undec := smSet (fun _ => BlkErr.none) s.undec b e }
/-- The form in which a block was written: inverted check bytes say that it is poisoned. -/
def State.stored (s : State) (b : Nat) : Bool := smGet (fun _ => false) s.hbmPoison b
def State.setPoison (s : State) (b : Nat) (p : Bool) : State := { s with hbmPoison := smSet (fun _ => false) s.hbmPoison b p }
/-- The form in which a block decodes: `some true` is the poisoned one, `none` neither. -/
def State.blkForm (s : State) (b : Nat) : Option Bool :=
  if (s.blkErr b).syms.isEmpty then some (s.stored b) else (blkSeen (s.stored b) (s.blkErr b).syms).1
/-- A read of a block is poisoned. -/
def State.blkPoison (s : State) (b : Nat) : Bool := s.blkForm b != some false
/-- The 64 B that a read of a block delivers: corrected, or decrypted as they are. The cipher turns a changed byte into
another 16 B sub-block. -/
def State.blkBytes (s : State) (b : Nat) : List Byte :=
  let old := memBytes s.hbm (64 * b) 64
  if (s.blkErr b).syms.isEmpty then old
  else
    let d := (blkSeen (s.stored b) (s.blkErr b).syms).2
    (List.range 4).flatMap fun i =>
      let x := (d.drop (16 * i)).take 16
      let o := (old.drop (16 * i)).take 16
      if x.all (· == 0) then o else leBytes 16 (Config.xtsFlip (s.shg (paStack (64 * b))).key (64 * b + 16 * i) (leNat o) (packN 8 x))
/-- A block is written again as it was read, in a form. -/
def State.fixBlk (s : State) (b : Nat) (data : List Byte) (p : Bool) : State :=
  (({ s with hbm := memStore s.hbm (64 * b) data }).setErr b BlkErr.none).setPoison b p
/-- More disturbances meet a stored block. -/
def State.upsetBlk (s : State) (b : Nat) (onDie : Bool) (syms : List (Nat × Nat)) : State :=
  let e := s.blkErr b
  let w := errWord (e.syms ++ syms)
  s.setErr b ⟨e.onDie || onDie, ((List.range 72).map fun i => (i, w.getD i 0)).filter (·.2 != 0)⟩

/-- The Shingle reads and decodes a block for a request: corrections count, and a block that decodes in
neither form is rewritten poisoned, logged and reported. -/
def State.decodeBlk (s : State) (station b : Nat) : State :=
  let k := paStack (64 * b)
  let e := s.blkErr b
  let s := if e.onDie then s.bump SHG_ECC_CORR_DIE k 1 else s
  match s.blkForm b with
  | some _ => if e.syms.isEmpty then s else (s.bump SHG_ECC_CORR_SHG k 1).fault 0x40 (0x20 + k) 0
  | none => (((s.fixBlk b (s.blkBytes b) true).shgLog k (64 * b % 2 ^ 37) 1 station).bump SHG_ECC_UNCORR k 1).fault 0x41 (0x20 + k) 0

/-- Blocks that a range touches. -/
def blocks (pa len : Nat) : List Nat :=
  if len = 0 then [] else (List.range ((pa + len - 1) / 64 + 1 - pa / 64)).map (pa / 64 + ·)

/-- Bytes of a range as a read delivers them. -/
def State.hbmBytes (s : State) (pa len : Nat) : List Byte :=
  if (blocks pa len).all fun b => (s.blkErr b).syms.isEmpty then memBytes s.hbm pa len
  else (((blocks pa len).flatMap s.blkBytes).drop (pa % 64)).take len
/-- A read: data, and whether any block is poisoned. -/
def State.hbmRead (s : State) (station pa len : Nat) : State × List Byte × Bool :=
  let p := (blocks pa len).any s.blkPoison
  let s := (blocks pa len).foldl (fun s b => s.decodeBlk station b) s
  (s, s.hbmBytes pa len, p)
/-- Poison of each 32 B unit of a range. -/
def State.unitPoison (s : State) (pa units : Nat) : List Bool :=
  (List.range units).map fun u => s.blkPoison ((pa + 32 * u) / 64)

/-- One block of a write: a partial write is a read-modify-write that keeps poison; a whole write
clears it; incoming poison sets it (R269). -/
def State.writeBlk (s : State) (station pa len : Nat) (bad : Bool) (b : Nat) : State :=
  let whole := decide (pa ≤ 64 * b) && decide (64 * b + 64 ≤ pa + len)
  let old := s.blkPoison b
  let s := if whole then s else
    let s := s.decodeBlk station b
    s.fixBlk b (s.blkBytes b) old
  let s := (s.setPoison b (bad || (!whole && old))).setErr b BlkErr.none
  let k := paStack (64 * b)
  match (s.shg k).scrub with
  | some (off, _) => if off = 64 * b % 2 ^ 37 then s.setShg k { s.shg k with scrubHit := true } else s
  | none => s

/-- A write of bytes; `bad` marks poisoned 32 B units counted from `pa`. -/
def State.hbmWrite (s : State) (station pa : Nat) (data : List Byte) (bad : List Bool) : State :=
  let n := data.length
  let badIn (b : Nat) : Bool := (List.range bad.length).any fun u =>
    bad.getD u false && decide ((pa + 32 * u) / 64 ≤ b) && decide (b ≤ (pa + 32 * u + 31) / 64)
  let s := (blocks pa n).foldl (fun s b => s.writeBlk station pa n (badIn b) b) s
  { s with hbm := memStore s.hbm pa data }

/-- Zero-fill of a whole stack after key generation (R268). -/
def State.zeroStack (s : State) (k : Nat) : State :=
  let keep (a : Nat) : Bool := a / 2 ^ 37 != k
  { s with hbm := s.hbm.filter fun e => keep e.1, hbmPoison := s.hbmPoison.filter fun e => keep (64 * e.1),
           undec := s.undec.filter fun e => keep (64 * e.1) }

/-! ### The Harbour station's own structures (log 21) -/

/-- Whether the Harbour station can reach a stack: a stack in reset is lost (R275); without slots both ways an access
times out (R266). -/
def State.harbourPath (s : State) (k : Nat) : Nat :=
  if (s.shg k).lost then cTARGET_LOST
  else if (s.stn 40).hasActive && !(txSlots (s.activeBuf 40) (0x20 + k) && rxSlots (s.activeBuf 40) (0x20 + k)) then cTIMEOUT
  else if !(s.stn 40).hasActive && (s.stn (24 + k)).hasActive &&
      !(txSlots (s.activeBuf (24 + k)) 0x30 && rxSlots (s.activeBuf (24 + k)) 0x30) then cTIMEOUT
  else cOK

/-- A read and a write of rings, tables, images and records, in one step (log 21). -/
def State.hrbRead (s : State) (pa len : Nat) : State × List Byte × Nat :=
  if !paOk pa len then (s.paFault 0x30 0 pa, [], cADDR_FAULT)
  else match s.harbourPath (paStack pa) with
    | 0 => let (s, d, p) := s.hbmRead 0x30 pa len; (s, d, if p then cPOISON else cOK)
    | c => (if c = cTIMEOUT then s.fault 0x44 0x30 0 else s, [], c)
def State.hrbWrite (s : State) (pa : Nat) (data : List Byte) (bad : List Bool) : State × Nat :=
  if !paOk pa data.length then (s.paFault 0x30 0 pa, cADDR_FAULT)
  else match s.harbourPath (paStack pa) with
    | 0 => (s.hbmWrite 0x30 pa data bad, cOK)
    | c => (if c = cTIMEOUT then s.fault 0x44 0x30 0 else s, c)

/-! ### Messages (R263, Table 11-2) -/

def mRD : Nat := 1
def mWR : Nat := 2
def mRDATA : Nat := 3
def mWACK : Nat := 4
def mKVCMD : Nat := 5
def mKVDONE : Nat := 6

/-- Units of data a message kind carries. -/
def MMsg.units (m : MMsg) : Nat := m.data.length / 32

/-- Header unit of a segment of `seg` units. -/
def MMsg.header (m : MMsg) (seg : Nat) : Nat :=
  m.typ + 2 ^ 8 * m.rid + 2 ^ 20 * m.code + 2 ^ 32 * m.pa + 2 ^ 80 * (m.len % 2 ^ 16) + 2 ^ 96 * m.off
    + 2 ^ 112 * seg + 2 ^ 120 * m.stream + 2 ^ 126 * m.kvop

/-- Fill a payload of `room` units from a queue, oldest first: the payload, its poison marks, and what
stays queued (R262). -/
def fillGo : Nat → Nat → List MMsg → List Byte × List Bool × List MMsg
  | 0, _, ms => ([], [], ms)
  | _, _, [] => ([], [], [])
  | f + 1, room, m :: ms =>
    let rest := m.units - m.off
    if room = 0 ∨ (0 < rest ∧ room < 2) then ([], [], m :: ms)
    else
      let seg := min (min rest (room - 1)) 31
      let d := (m.data.drop (32 * m.off)).take (32 * seg)
      let bad := (List.range seg).map fun u => m.bad.getD (m.off + u) false
      let m' := { m with off := m.off + seg }
      let (ds, bs, left) := fillGo f (room - 1 - seg) (if m'.off < m.units then m' :: ms else ms)
      (leBytes 32 (m.header seg) ++ d ++ ds, (bad.any id) :: bad ++ bs, left)

/-- Messages of a payload up to the first malformed one, and whether one was met (R263). -/
def parseGo : Nat → List Byte → List Bool → List MMsg × Bool
  | 0, _, _ => ([], false)
  | f + 1, bs, bad =>
    if bs.length < 32 then ([], false) else
    let h := leNat (bs.take 32)
    let typ := h % 16
    let seg := bitsN h 112 5
    if typ = 0 then ([], false)
    else if 6 < typ || bitsN h 4 4 != 0 || bitsN h 28 4 != 0 || bitsN h 73 7 != 0 || bitsN h 117 3 != 0
        || bitsN h 128 128 != 0 || bs.length < 32 + 32 * seg then ([], true)
    else
      let m : MMsg := ⟨typ, bitsN h 8 12, bitsN h 20 8, bitsN h 32 41, bitsN h 80 16, bitsN h 96 16,
        bitsN h 120 6, bitsN h 126 2, (bs.drop 32).take (32 * seg), (bad.drop 1).take seg⟩
      let (ms, e) := parseGo f (bs.drop (32 + 32 * seg)) (bad.drop (1 + seg))
      (m :: ms, e)

/-- A memory swell's payload arrives at a station. -/
def State.takeMessages (s : State) (q src : Nat) (payload : List Byte) (bad : List Bool) : State :=
  let (ms, e) := parseGo 64 payload bad
  let s := { s with inbox := s.inbox ++ ms.map fun m => (q, src, m) }
  if !e then s
  else
    let s := s.fault 0x43 (stnId q) 0
    if 24 ≤ q ∧ q < 40 then s.shgLog (q - 24) 0 3 (stnId src) else s

/-! ### Requester ports (R262, R265) -/

/-- Request identifiers in use or held toward a stack. -/
def State.ridBusy (s : State) (q k rid : Nat) : Bool :=
  (s.mreqs.any fun r => r.q == q && r.k == k && r.rid == rid) ||
  (s.ridHold.any fun h => h.1 == q && h.2.1 == k && h.2.2.1 == rid && decide (s.wall < h.2.2.2))
def State.freeRid (s : State) (q k : Nat) : Option Nat := (List.range 4096).find? fun r => !s.ridBusy q k r

/-- The kinds of KV command. -/
def MvKind.kv (k : MvKind) : Bool := k == .kvapp || k == .kvgth || k == .kvbws
/-- An earlier KV command of the same tile to the same stream has not recorded its completion (R147, R271). -/
def State.kvBehind (s : State) (d tile id stream : Nat) : Bool :=
  (s.tile (d * 256 + tile)).active.any fun a => a.cmd.kind.kv && decide (a.cmd.id < id) && a.cmd.osfAt 39 6 == stream
/-- A write-back of a line that a range touches. -/
def MemReq.wbackOf (r : MemReq) (q pa len : Nat) : Bool :=
  match r.dest with
  | .wback line => r.q == q && decide (line * 512 < pa + 32 * len) && decide (pa < line * 512 + 512)
  | _ => false
/-- A write-back of a line is outstanding. -/
def State.wbackOut (s : State) (d line : Nat) : Bool :=
  (s.mreqs.any fun r => r.wbackOf d (line * 512) 16) || s.mwait.any fun x => x.1.wbackOf d (line * 512) 16
/-- A BAR2 write of a port to a unit that an earlier one still writes: the two land in PCIe order (R372). -/
def MemReq.follows (r x : MemReq) : Bool :=
  match r.dest, x.dest with
  | .hrb (.bar2Write p), .hrb (.bar2Write p') => p == p' && x.uid < r.uid && decide (x.pa < r.pa + 32 * r.len) && decide (r.pa < x.pa + 32 * x.len)
  | _, _ => false
/-- A request may leave its port now: it is one of the 1,024, it does not pass a KV command, a write-back or a write of its
port to the same unit before it. -/
def State.mayIssue (s : State) (r : MemReq) : Bool :=
  decide ((s.mreqs.filter fun x => x.q == r.q && x.k == r.k).length < 1024) &&
  !(s.mreqs.any fun x => r.follows x) && !(s.mwait.any fun x => r.follows x.1) && !(s.mreqs.any fun x => x.wbackOf r.q r.pa r.len) && !(s.mwait.any fun x => decide (x.1.uid < r.uid) && x.1.wbackOf r.q r.pa r.len) &&
  (r.kind != mKVCMD || match r.dest with | .tile t id _ => !s.kvBehind r.q t id r.stream | _ => true)

/-! A line of a Tidepool (R162, R163). -/
def poolKey (d line : Nat) : Nat := d * 2 ^ 32 + line
def State.line (s : State) (d line : Nat) : TLine := smGet (fun _ => TLine.absent) s.pool (poolKey d line)
def State.setLine (s : State) (d line : Nat) (x : TLine) : State :=
  { s with pool := smSet (fun _ => TLine.absent) s.pool (poolKey d line) (if x.valid = 0 ∧ !x.moor then TLine.absent else x) }
/-- Sectors lo to lo + n − 1. -/
def secMask (lo n : Nat) : BitVec 16 := BitVec.ofNat 16 ((2 ^ n - 1) * 2 ^ lo)

/-- What a request served has ended with a code: a part of its move command, a fill, a write-back, which leaves
its sectors dirty if it failed and the line is still there (log 95), or an access of the Harbour station. -/
def State.served (s : State) (r : MemReq) (code : Nat) : State :=
  match r.dest with
  | .tile t id addr => s.onTileNow r.q t fun x => if r.kind = mRD then x.inbound 9 addr [] (.part id code) else x.movePart id code
  | .fill uid => { s with fills := s.fills.map fun f : Fill => if f.uid == uid then { f with back := true, code := worstCode f.code code } else f }
  | .wback line =>
    let l := s.line r.q line
    if code = cOK then s else s.setLine r.q line { l with dirty := l.dirty ||| (l.valid &&& secMask (r.pa / 32 % 16) r.len) }
  | .hrb op => { s with hrbDone := s.hrbDone ++ [⟨op, code, r.data, r.bad⟩] }

/-- A waiting request leaves its port if it may; one to a lost stack ends with TARGET_LOST (R262, R275). -/
def State.admitOne (s : State) (x : MemReq × MMsg) : State :=
  let drop := { s with mwait := s.mwait.filter fun y => y.1.uid != x.1.uid }
  if (s.shg x.1.k).lost then drop.served x.1 cTARGET_LOST
  else match s.mayIssue x.1, s.freeRid x.1.q x.1.k with
    | true, some rid =>
      { drop with mreqs := s.mreqs ++ [{ x.1 with rid := rid, wall := s.wall }],
                  mout := s.mout ++ [(x.1.q, 24 + x.1.k, { x.2 with rid := rid })] }
    | _, _ => s
/-- The waiting requests of a port, oldest first. -/
def State.admitPort (s : State) (q : Nat) : State := (s.mwait.filter fun x => x.1.q == q).foldl State.admitOne s

/-- Make a request toward a stack. -/
def State.request (s : State) (q k typ pa len : Nat) (meant : Option (Nat × Nat)) (data : List Byte) (bad : List Bool)
    (dest : MDest) (stream kvop : Nat) : State :=
  let r : MemReq := ⟨s.reqNo, q, k, 0, typ, pa, len, meant, dest, stream, 0, [], cOK,
    if typ = mRD then leBytes (32 * len) 0 else [], if typ = mRD then List.replicate len false else [], false⟩
  State.admitPort { s with reqNo := s.reqNo + 1, mwait := s.mwait ++ [(r, (⟨typ, 0, 0, pa, len, 0, stream, kvop, data, bad⟩ : MMsg))] } q

/-- An access of the Harbour station to a byte range of one stack through its memory-channel slots (R261, R266); a write's
poison marks count from the first 32 B unit it touches. -/
def State.hrbLoad (s : State) (pa len : Nat) (op : HrbOp) : State :=
  s.request 40 (paStack pa) mRD (align32 pa) ((pa % 32 + len + 31) / 32) none [] [] (.hrb op) 0 0
def State.hrbStore (s : State) (pa : Nat) (data : List Byte) (bad : List Bool) (op : HrbOp) : State :=
  let o := pa % 32
  let u := (o + data.length + 31) / 32
  s.request 40 (paStack pa) mWR (align32 pa) u (some (o, data.length)) (leBytes o 0 ++ data ++ leBytes (32 * u - o - data.length) 0)
    bad (.hrb op) 0 0

/-- Accesses of the Harbour station whose requester has gone: nothing waits for them any more. -/
def State.dropHrb (s : State) (f : HrbOp → Bool) : State :=
  let d (r : MemReq) : MemReq := match r.dest with | .hrb op => if f op then { r with dest := .hrb .gone } else r | _ => r
  { s with mreqs := s.mreqs.map d, mwait := s.mwait.map fun x => (d x.1, x.2), hrbDone := s.hrbDone.filter fun x => !f x.op }

/-- A request ends: what it served goes on, and the next waiting ones leave the port. -/
def State.endReq (s : State) (r : MemReq) (code : Nat) : State :=
  let s := { s with mreqs := s.mreqs.filter (·.uid != r.uid),
                    mout := s.mout.filter fun x => !(x.1 == r.q && x.2.1 == 24 + r.k && x.2.2.rid == r.rid),
                    kvUndo := s.kvUndo.filter fun u => !(u.k == r.k && u.q == r.q && u.rid == r.rid) }
  (s.served r code).admitPort r.q

/-- Put a segment's units into a buffer. -/
def spliceList {α : Type} (l : List α) (at_ : Nat) (x : List α) : List α := l.take at_ ++ x ++ l.drop (at_ + x.length)
/-- Data of a read arrives for its destination at a unit offset: at the tile's inbound buffer, in a fill, or in the port. -/
def State.landRead (s : State) (r : MemReq) (off : Nat) (data : List Byte) (bad : List Bool) : State :=
  match r.dest with
  | .tile t _ addr => s.onTileNow r.q t fun x => x.inbound 9 (addr + 32 * off) data .more
  | .fill uid => { s with fills := s.fills.map fun f : Fill => if f.uid == uid then { f with data := spliceList f.data (32 * off) data } else f }
  | .wback _ => s
  | .hrb _ => { s with mreqs := s.mreqs.map fun x : MemReq => if x.uid == r.uid then
      { x with data := spliceList x.data (32 * off) data, bad := spliceList x.bad off bad } else x }

def State.findReq (s : State) (q k rid : Nat) : Option MemReq :=
  s.mreqs.find? fun r => r.q == q && r.k == k && r.rid == rid

/-- Units that segments cover. -/
def segUnits (seen : List (Nat × Nat)) (off n : Nat) : Bool :=
  (List.range n).all fun i => seen.any fun x => decide (x.1 ≤ off + i) && decide (off + i < x.1 + x.2)

/-- The oldest message taken at a station, if it is of a type. -/
def State.nextMsg (s : State) (q typ : Nat) : Option (Nat × MMsg × State) :=
  match s.inbox.find? fun x => x.1 == q with
  | some x => if x.2.2.typ == typ then some (x.2.1, x.2.2, { s with inbox := s.inbox.eraseP fun x => x.1 == q }) else none
  | none => none

/-- The memory swell payload a port sends toward a station: its queue, oldest message first (R262). -/
def State.takeMem (s : State) (q dq : Nat) : State × List Byte × List Bool :=
  let s := s.admitPort q
  let mineP := fun x : Nat × Nat × MMsg => x.1 == q && x.2.1 == dq
  let mine := (s.mout.filter mineP).map (·.2.2)
  let others := s.mout.filter fun x => !mineP x
  let (p, b, left) := fillGo 64 s.payUnits mine
  ({ s with mout := left.map (fun m => (q, dq, m)) ++ others }, p, b)

/-! ### Commands of the memory channel at a Shingle -/

/-- A request of the same identifier, and not one whose requester gave up long ago (R265: 64 tide cycles). -/
def ShgJob.same (j : ShgJob) (k q rid typ : Nat) : Bool := j.k == k && j.q == q && j.msg.rid == rid && j.msg.typ == typ
def State.freshJobs (s : State) : List ShgJob := s.jobs.filter fun j => decide (s.wall < j.wall + 65536)

/-- RD: a read request arrives at a Shingle station, which holds each unit as it stands now (R264, log 94). -/
def execRd (k : Fin 16) (s : State) : Res :=
  match s.nextMsg (24 + k.val) mRD with
  | none => .next s
  | some (q, m, s) => .next { s with jobs := s.jobs ++
      [⟨k.val, q, { m with data := s.hbmBytes m.pa (32 * m.len), bad := s.unitPoison m.pa m.len }, s.wall, []⟩] }

/-- The bytes a write request means: address and count. -/
def State.meant (s : State) (j : ShgJob) : Option (Nat × Nat) :=
  match s.findReq j.q j.k j.msg.rid with
  | some r => match r.meant with
    | some (o, n) => some (j.msg.pa + o, n)
    | none => some (j.msg.pa, 32 * j.msg.len)
  | none => if j.q = 40 then none else some (j.msg.pa, 32 * j.msg.len)

/-- A block of a write request of which every unit has arrived is written, whole or as a read-modify-write (R269). -/
def State.commitBlk (j : ShgJob) (off units : Nat) (s : State) (b : Nat) : State :=
  match s.meant j with
  | none => s
  | some (a, n) =>
    let first := (max j.msg.pa (64 * b) - j.msg.pa) / 32
    let last := (min (j.msg.pa + 32 * j.msg.len) (64 * b + 64) - j.msg.pa) / 32
    let before := segUnits (j.seen.filter (· != (off, units))) first (last - first)
    let lo := max a (64 * b)
    let hi := min (a + n) (64 * b + 64)
    if before || !segUnits j.seen first (last - first) || decide (hi ≤ lo) then s
    else s.hbmWrite (stnId j.q) lo ((j.msg.data.drop (lo - j.msg.pa)).take (hi - lo)) [((j.msg.bad.drop first).take (last - first)).any id]

/-- Gather a segment of a request into its job, which is created with the first. -/
def State.gatherSeg (s : State) (k q : Nat) (m : MMsg) : State × ShgJob :=
  let old := s.freshJobs
  let j := match old.find? fun j => j.same k q m.rid m.typ with
    | some j => j
    | none => ⟨k, q, { m with off := 0, data := leBytes (32 * m.len) 0, bad := List.replicate m.len false }, s.wall, []⟩
  let j := { j with seen := j.seen ++ [(m.off, m.units)],
                    msg := { j.msg with data := spliceList j.msg.data (32 * m.off) m.data, bad := spliceList j.msg.bad m.off m.bad } }
  ({ s with jobs := old.filter (fun j => !j.same k q m.rid m.typ) ++ [j] }, j)

/-- The response that ends a request. -/
def MMsg.response (m : MMsg) (typ code : Nat) : MMsg := { m with typ := typ, code := code, off := 0, kvop := 0, data := [], bad := [] }

/-- WR: a write segment arrives; its complete blocks are written; the last segment is acknowledged (R263). -/
def execWr (k : Fin 16) (s : State) : Res :=
  match s.nextMsg (24 + k.val) mWR with
  | none => .next s
  | some (q, m, s) =>
    let (s, j) := s.gatherSeg k.val q m
    let s := (blocks (m.pa + 32 * m.off) (32 * m.units)).foldl (State.commitBlk j m.off m.units) s
    if segUnits j.seen 0 m.len then
      .next { s with jobs := s.jobs.filter fun x => !x.same k.val q m.rid mWR,
                     mout := s.mout ++ [(24 + k.val, q, m.response mWACK cOK)] }
    else .next s

/-- Each unit of a read: as it stood at the arrival or as it stands now, the spec leaving open which (R264). -/
def mergeUnits (free : Nat) : Nat → List Byte → List Bool → List Byte → List Bool → List Byte × List Bool
  | 0, _, _, _, _ => ([], [])
  | n + 1, old, ob, new, nb =>
    let (d, b) := mergeUnits (free + 1) n (old.drop 32) ob.tail (new.drop 32) nb.tail
    if Config.freeNat free % 2 = 0 then (old.take 32 ++ d, ob.headD false :: b) else (new.take 32 ++ d, nb.headD false :: b)

/-- READ_RETURN_START: in its first slot 400 ns of wall time or more after arrival, the Shingle starts
returning a read (R264). -/
def execReadReturnStart (k : Fin 16) (q : Fin 41) (rid : BitVec 12) (s : State) : Res :=
  match s.jobs.find? fun j => j.same k.val q.val rid.toNat mRD with
  | none => .next s
  | some j =>
    if s.wall < j.wall + 40 then .next s else
    let bad := s.unitPoison j.msg.pa j.msg.len
    let (s, d, _) := s.hbmRead (stnId j.q) j.msg.pa (32 * j.msg.len)
    let (data, marks) := mergeUnits s.free j.msg.len j.msg.data j.msg.bad d bad
    let m := { j.msg with typ := mRDATA, data := data, bad := marks }
    .next { s with jobs := s.jobs.filter fun j => !j.same k.val q.val rid.toNat mRD, free := s.free + j.msg.len,
                   mout := s.mout ++ [(24 + k.val, j.q, m)] }

/-- KVCMD: a KV command arrives; its segments are gathered and it queues for its region (R270, R271). -/
def execKvcmd (k : Fin 16) (s : State) : Res :=
  match s.nextMsg (24 + k.val) mKVCMD with
  | none => .next s
  | some (q, m, s) => .next (s.gatherSeg k.val q m).1

/-! ### Ends of requests at their ports -/

/-- A read data segment lands; the last one ends its request, and so does an acknowledgement. A response with nothing
outstanding is discarded (R265). -/
def State.takeRdata (s : State) (q : Nat) : State :=
  match s.nextMsg q mRDATA with
  | none => s
  | some (src, m, s) =>
    match s.findReq q (src - 24) m.rid with
    | none => s
    | some r =>
      let code := worstCode r.code (if m.bad.any id then cPOISON else m.code)
      let s := { s with mreqs := s.mreqs.map fun x : MemReq => if x.uid == r.uid then { x with seen := x.seen ++ [(m.off, m.units)], code := code } else x }
      let s := s.landRead r m.off m.data m.bad
      match s.findReq q (src - 24) m.rid with
      | some r => if segUnits r.seen 0 r.len then s.endReq r code else s
      | none => s
def State.takeWack (s : State) (q : Nat) : State :=
  match s.nextMsg q mWACK with
  | none => s
  | some (src, m, s) =>
    match s.findReq q (src - 24) m.rid with
    | none => s
    | some r => s.endReq r m.code

/-- A request ends with TIMEOUT; its identifier is held for 64 tide cycles of wall time. -/
def State.timeoutReq (s : State) (r : MemReq) : State :=
  let s := { s with ridHold := s.ridHold ++ [(r.q, r.k, r.rid, s.wall + 65536)] }
  (s.endReq r cTIMEOUT).fault 0x44 (stnId r.q) 0
/-- 327.68 µs of wall time have passed since a request was made. -/
def State.takeTimeout (s : State) (q k rid : Nat) : State :=
  match s.findReq q k rid with
  | none => s
  | some r => if r.wall + 32768 ≤ s.wall then s.timeoutReq r else s
/-- Requests whose request swell failed delivery and makeup end with TIMEOUT at tick 1,017 (R265). -/
def State.endDoomed (s : State) : State := (s.mreqs.filter (·.doomed)).foldl State.timeoutReq s

/-! ### HBRD and HBWR (R140) -/

/-- Checks common to every access of a tile to a stack: the local range, the address, the stack and
the slots, in R7's order. -/
def State.memCause (s : State) (d : Nat) (m : MoveCmd) (pa : Nat) : Nat :=
  if !m.localOk || !paOk pa m.bytes then cADDR_FAULT
  else if (s.shg (paStack pa)).lost then cTARGET_LOST
  else if !s.memSlots d (paStack pa) then cCAPACITY
  else cOK

/-- A command ends at its start with a code of `memCause`; an address at fault is logged (R69, R260, R466). -/
def State.memStop (s : State) (pt : At) (m : MoveCmd) (pa code : Nat) : State :=
  let s := if code = cADDR_FAULT && !paOk pa m.bytes then s.paFault pt.die.val pt.tile.val pa else s
  if code = cADDR_FAULT && !m.localOk then s.endFault pt m (outAddr m.la.toNat) else s.endAt pt m code

/-- Poison of each 32 B unit of a tile-store range (R72). -/
def Tile.badUnits (t : Tile) (a n : Nat) : List Bool :=
  (List.range (n / 32)).map fun u => eccIn t.ecc 2 (a + 32 * u) 32

def startHbrd (pt : At) (m : MoveCmd) (s : State) : State :=
  let pa := align32 m.rb.toNat
  if m.len = 0 then s.endAt pt m cOK
  else match s.memCause pt.die.val m pa with
    | 0 => (s.onTile pt fun t => t.activate pt.cyc m cOK 1 [] false).request pt.die.val (paStack pa) mRD pa m.len none [] []
        (.tile pt.tile.val m.id m.la32) 0 0
    | c => s.memStop pt m pa c

def startHbwr (pt : At) (m : MoveCmd) (s : State) : State :=
  let pa := align32 m.rb.toNat
  if m.len = 0 then s.endAt pt m cOK
  else match s.memCause pt.die.val m pa with
    | 0 =>
      let t := (s.tile (tileKey pt.die pt.tile)).settle pt.cyc
      let bad := t.badUnits m.la32 m.bytes
      let (t, d, p) := t.readLocal m
      let s := s.putTile pt.die.val pt.tile.val (t.activate pt.cyc m (if p then cPOISON else cOK) 1 d p)
      s.request pt.die.val (paStack pa) mWR pa m.len none d bad (.tile pt.tile.val m.id m.la32) 0 0
    | c => s.memStop pt m pa c

/-! ### Scrub (R274) -/

/-- The block that the scrub has read and corrected is rewritten, unless a write has reached it since. -/
def State.scrubRewrite (s : State) (k : Nat) : State :=
  match (s.shg k).scrub with
  | none => s
  | some (off, d, p) =>
    let s := if (s.shg k).scrubHit then s else s.fixBlk ((k * 2 ^ 37 + off) / 64) d p
    s.setShg k { s.shg k with scrub := none, scrubHit := false }

/-- SCRUB_READ: the Shingle rewrites the corrected block that it read last, and reads the next block of a serving stack.
One that decodes in neither form is rewritten poisoned and logged. -/
def execScrubRead (k : Fin 16) (s : State) : Res :=
  if s.rd SHG_STATUS_STATE k.val ≠ 3 then .next s else
  let s := s.scrubRewrite k.val
  if s.rd SHG_CTRL_SCRUB_HOURS k.val = 0 ∧ s.rd TWN_STATUS_STATE ≠ 4 then .next s else
  let pos := s.rd SHG_SCRUB_POS k.val
  let b := (k.val * 2 ^ 37 + pos) / 64
  let e := s.blkErr b
  let s := if e.onDie then s.bump SHG_ECC_CORR_DIE k.val 1 else s
  let s := if e == BlkErr.none then s else match s.blkForm b with
    | some p =>
      let s := if e.syms.isEmpty then s else (s.bump SHG_ECC_CORR_SHG k.val 1).fault 0x40 (0x20 + k.val) 0
      s.setShg k.val { s.shg k.val with scrub := some (pos, s.blkBytes b, p), scrubHit := false }
    | none => (((s.fixBlk b (s.blkBytes b) true).shgLog k.val pos 2 0xFF).bump SHG_ECC_UNCORR k.val 1).fault 0x42 (0x20 + k.val) 0
  .next (if pos + 64 < holeBase then s.wr SHG_SCRUB_POS k.val (pos + 64)
    else (s.wr SHG_SCRUB_POS k.val 0).bump SHG_SCRUB_PASSES k.val 1)

end Sys2Proof.Machine
end

