-- ==== Sys2Proof/Machine/Tidepool.lean ====
section
/-! DEFINITION. The Tidepool stacked cache and its coupler (07_tidepool.md). -/
namespace Sys2Proof.Machine

/-! ### Lines and sets (R162, R163) -/

/-- A line holds a way of its set. -/
def TLine.present (l : TLine) : Bool := l.valid != 0 || l.moor
/-- Set index: PA[24:9] XOR PA[40:25]. -/
def lineSet (line : Nat) : Nat := Nat.xor (line % 65536) (line / 65536 % 65536)
/-- Present lines of a die, with their line addresses. -/
def State.dieLines (s : State) (d : Nat) : List (Nat × TLine) :=
  (s.pool.filter fun e => e.1 / 2 ^ 32 == d).map fun e => (e.1 % 2 ^ 32, e.2)
def State.setLines (s : State) (d set : Nat) : List (Nat × TLine) := (s.dieLines d).filter fun e => lineSet e.1 == set

/-- Bytes of sectors lo to lo + n − 1. -/
def TLine.bytes (l : TLine) (lo n : Nat) : List Byte := leBytes (32 * n) (l.data.toNat / 2 ^ (256 * lo))
/-- Put bytes from sector `lo` into the sectors of a mask. -/
def TLine.put (l : TLine) (lo : Nat) (bs : List Byte) (mask : BitVec 16) : TLine :=
  let m := BitVec.ofNat 4096 (spreadMask 256 16 mask.toNat)
  { l with data := maskBits m l.data (BitVec.ofNat 4096 (leNat bs * 2 ^ (256 * lo))), valid := l.valid ||| mask }

/-! ### Poison (R171, R172) -/

/-- Record a poisoned line in TPL_POISON_LOG and report it at a region collector (kind 0x33). -/
def State.poisonLog (s : State) (d region line cause : Nat) : State :=
  let s := if s.on TPL_POISON_LOG_VALID d then s.wr TPL_POISON_LOG_MULTI d 1
    else ((s.wr TPL_POISON_LOG_LINE d line).wr TPL_POISON_LOG_CAUSE d cause).wr TPL_POISON_LOG_VALID d 1
  (s.bump TPL_POISON_LOG_COUNT d 1).raise ⟨0x33, d, region, none, line * 512, cPOISON⟩
def State.poisonLine (s : State) (d region line cause : Nat) : State :=
  (s.setLine d line { s.line d line with poison := true }).poisonLog d region line cause

/-- An access meets the array check bits of a line: an uncorrectable error in a line with a dirty sector
poisons it (log 96); a clean line is discarded, to be fetched again, with a NOTE, and stays moored (R167). -/
def State.checkArray (s : State) (d region line : Nat) : State :=
  let l := s.line d line
  if l.err < 2 then s
  else if l.dirty ≠ 0 then (s.setLine d line { l with err := 0 }).poisonLine d region line 2
  else (s.setLine d line { TLine.absent with moor := l.moor }).raise ⟨0x32, d, region, none, line * 512, 0⟩

/-- A line transfer over the coupler, up or down, meets the next upset of its direction (R178): it answers whether
every attempt failed. -/
def State.couplerXfer (s : State) (d : Nat) (up : Bool) : State × Bool :=
  let c := s.coupler d
  let mine := fun x : Nat × Nat => decide (x.1 < 1024) == up
  match c.upsets.find? mine with
  | none => (s, false)
  | some (g, n) =>
    let s := s.setCoupler d { c with upsets := c.upsets.eraseP mine }
    if n = 0 then (s.fault 0x30 d g, false)
    else if n < 3 then (s, false)
    else (s.fault 0x31 d g, true)

/-! ### Write-back and eviction (R164) -/

/-- Runs of consecutive dirty sectors: first and count. -/
def dirtyRuns (m : BitVec 16) : Nat → Nat → List (Nat × Nat)
  | 0, _ => []
  | f + 1, lo =>
    if m.getLsbD lo then
      match dirtyRuns m f (lo + 1) with
      | (a, n) :: r => if a = lo + 1 then (lo, n + 1) :: r else (lo, 1) :: (a, n) :: r
      | [] => [(lo, 1)]
    else dirtyRuns m f (lo + 1)

/-- Dirty sectors leave for HBM through the memory channel, marked poisoned if the line is or if they failed on the
coupler (R168, R172, R178). -/
def State.writeBack (s : State) (d line : Nat) : State :=
  let l := s.line d line
  if l.dirty = 0 then s else
  let (s, cut) := s.couplerXfer d false
  let s := s.setLine d line { l with dirty := 0 }
  (dirtyRuns l.dirty 16 0).foldl (fun s x =>
    s.request d (paStack (line * 512)) mWR (line * 512 + 32 * x.1) x.2 none (l.bytes x.1 x.2) (List.replicate x.2 (l.poison || cut))
      (.wback line) 0 0) s

/-- Make room for a line in its set: true when it holds a way, one is free or an unmoored victim was evicted. -/
def State.makeRoom (s : State) (d region line : Nat) : State × Bool :=
  let ls := s.setLines d (lineSet line)
  if (s.line d line).present || decide (ls.length < 16) then (s, true)
  else
    let cands := (ls.filter fun e => !e.2.moor).map (·.1)
    if cands.isEmpty then (s, false)
    else
      let v := cands.getD (Config.victim cands s.free % cands.length) 0
      let s := ({ s with free := s.free + 1 }.checkArray d region v).writeBack d v
      (s.setLine d v TLine.absent, true)
/-- Every way of a line's set is moored, and the line holds none. -/
def State.wayless (s : State) (d line : Nat) : Bool :=
  let ls := s.setLines d (lineSet line)
  !(s.line d line).present && decide (16 ≤ ls.length) && ls.all (·.2.moor)

/-- Moor and unmoor hints once the data is present; the answer is CAPACITY past MOOR_LIMIT (R166, R167). In one cycle of
a region the unmoor is applied last, whatever the order of the commands (R169). -/
def State.hint (s : State) (d line hint : Nat) (now : Option (Nat × Nat)) : State × Nat :=
  let l := s.line d line
  let c := s.coupler d
  let gone := match now with
    | some (r, cyc) => if c.unmoored.1 = r ∧ c.unmoored.2.1 = cyc then c.unmoored.2.2 else []
    | none => []
  if l.valid = 0 then (s, cOK)
  else if hint = 1 then
    if l.moor then (s, cOK)
    else if s.rd TPL_CTRL_MOOR_LIMIT d ≤ ((s.setLines d (lineSet line)).filter (·.2.moor)).length then (s, cCAPACITY)
    else if gone.contains line then (s, cOK)
    else (s.setLine d line { l with moor := true }, cOK)
  else if hint = 2 then
    let s := s.setLine d line { l with moor := false }
    (match now with
      | some (r, cyc) => s.setCoupler d { c with unmoored := (r, cyc, line :: gone) }
      | none => s, cOK)
  else (s, cOK)

/-! ### TPLD and TPST (R139, R168) -/

/-- The lines of a range: line address, first sector, sectors, tile-store address. -/
def lineParts : Nat → Nat → Nat → Nat → List (Nat × Nat × Nat × Nat)
  | 0, _, _, _ => []
  | f + 1, pa, units, addr =>
    if units = 0 then [] else
    let lo := pa / 32 % 16
    let n := min units (16 - lo)
    (pa / 512, lo, n, addr) :: lineParts f (pa + 32 * n) (units - n) (addr + 32 * n)

/-- Checks common to TPLD and TPST. -/
def State.poolCause (m : MoveCmd) (pa : Nat) : Nat := if !m.localOk || !paOk pa m.bytes then cADDR_FAULT else cOK

/-- A clean sector whose HBM bytes were written past the Tidepool since it was filled (R165). -/
def State.staleSector (s : State) (d a : Nat) : Bool :=
  let l := s.line d (a / 512)
  let n := a / 32 % 16
  l.valid.getLsbD n && !l.dirty.getLsbD n && !s.wbackOut d (a / 512) && l.bytes n 1 != memBytes s.hbm (a / 32 * 32) 32
/-- A present sector as the Tidepool serves it: its data, or for a stale one the old data or the new, by a free
value (R165, log 84). -/
def State.serveSector (s : State) (d a : Nat) : List Byte :=
  if s.staleSector d a && Config.freeNat (s.free + a / 32) % 2 == 1 then memBytes s.hbm (a / 32 * 32) 32
  else (s.line d (a / 512)).bytes (a / 32 % 16) 1
def State.servedBytes (s : State) (d line lo n : Nat) : List Byte :=
  (List.range n).flatMap fun i => s.serveSector d (512 * line + 32 * (lo + i))
/-- The free values of one access have been used: one for each 32 B of the address space. -/
def State.usedServe (s : State) : State := { s with free := s.free + 2 ^ 36 }

/-- A code joins a started command's, with nothing of it ending. -/
def ActiveMove.note (id code : Nat) (a : ActiveMove) : ActiveMove :=
  if a.cmd.id = id then { a with code := worstCode a.code code } else a
def State.noteMove (s : State) (d t id code : Nat) : State :=
  s.onTileNow d t fun x => { x with active := x.active.map (ActiveMove.note id code) }
/-- A started command has another part outstanding. -/
def ActiveMove.more (id : Nat) (a : ActiveMove) : ActiveMove := if a.cmd.id = id then { a with left := a.left + 1 } else a
def State.moreMove (s : State) (d t id : Nat) : State :=
  s.onTileNow d t fun x => { x with active := x.active.map (ActiveMove.more id) }

/-- Bytes for one line's part of a TPLD leave for the tile's inbound buffer, with the part's code. -/
def State.sendPart (s : State) (d : Nat) (p : LinePart) (bs : List Byte) (code : Nat) : State :=
  s.onTileNow d p.tile fun t => t.inbound 8 p.addr bs (.part p.id code)
/-- Deliver one line's part of a TPLD. -/
def State.deliver (s : State) (d line : Nat) (now : Option (Nat × Nat)) (p : LinePart) : State :=
  let (s, bad) := s.couplerXfer d false
  let l := s.line d line
  let bs := s.servedBytes d line p.lo p.n
  let (s, c) := s.usedServe.hint d line p.hint now
  s.sendPart d p bs (worstCode c (if bad || l.poison then cPOISON else cOK))

/-- Fetch the missing sectors of a line for a waiting part, or join a fetch that brings them; with no way to install
them, a part of a TPLD reads HBM directly. -/
def State.fetch (s : State) (d line : Nat) (p : LinePart) (direct : Bool) : State :=
  let k := paStack (line * 512)
  let miss := secMask p.lo p.n &&& ~~~(s.line d line).valid
  if direct && !p.kv then s.request d k mRD (line * 512 + 32 * p.lo) p.n none [] [] (.tile p.tile p.id p.addr) 0 0
  else
    match s.fills.find? fun f : Fill => f.die == d && f.line == line && !f.back && decide (miss &&& ~~~f.want = 0) with
    | some f => { s with fills := s.fills.map fun x => if x == f then { x with waiters := x.waiters ++ [p] } else x }
    | none =>
      let secs := (List.range 16).filter miss.getLsbD
      let lo := secs.headD p.lo
      let n := secs.getLast?.getD p.lo + 1 - lo
      let f : Fill := ⟨s.reqNo, d, line, lo, n, if direct then 0 else miss, 0, leBytes (32 * n) 0, false, cOK, [p]⟩
      State.request { s with fills := s.fills ++ [f] }
        d k mRD (line * 512 + 32 * lo) n none [] [] (.fill s.reqNo) 0 0

/-- One line of a TPLD: a hit delivers; a miss fetches. -/
def tpldLine (d : Nat) (now : Option (Nat × Nat)) (line : Nat) (p : LinePart) (s : State) : State :=
  let s := s.checkArray d (p.tile / 64) line
  let k := paStack (line * 512)
  if secMask p.lo p.n &&& ~~~(s.line d line).valid = 0 then s.deliver d line now p
  else if (s.shg k).lost then s.onTileNow d p.tile fun t => t.movePart p.id cTARGET_LOST
  else if !s.memSlots d k then s.onTileNow d p.tile fun t => t.movePart p.id cCAPACITY
  else
    let full := s.wayless d line
    (if full then s.noteMove d p.tile p.id cCAPACITY else s).fetch d line p full

/-- The Tidepool answers accesses (R173, R188). -/
def State.poolUp (s : State) (d : Nat) : Bool := s.rd TPL_STATUS_STATE d == 3

/-- Region and cycle of a command. -/
def atNow (pt : At) : Option (Nat × Nat) := some (pt.tile.val / 64, pt.cyc)

def startTpld (pt : At) (m : MoveCmd) (s : State) : State :=
  let pa := align32 m.rb.toNat
  if m.len = 0 then s.endAt pt m cOK
  else if State.poolCause m pa ≠ 0 then s.memStop pt m pa cADDR_FAULT
  else
    let ps := lineParts (m.len + 1) pa m.len m.la32
    let s := s.onTile pt fun t => t.activate pt.cyc m cOK ps.length [] false
    ps.foldl (fun s x => tpldLine pt.die.val (atNow pt) x.1 ⟨pt.tile.val, m.id, x.2.1, x.2.2.1, x.2.2.2, m.osfAt 39 2, false⟩ s) s

/-- A write of sectors of a line reaches the Tidepool: they become valid and dirty, a write of the whole line clears its
poison, and fills in flight do not overwrite them (R168, R169, R172). -/
def State.putLine (s : State) (d line : Nat) (bs : List Byte) (lo : Nat) (mask : BitVec 16) (bad : Bool) : State :=
  let whole := mask == BitVec.allOnes 16
  let l := (s.line d line).put lo bs mask
  let l := { l with dirty := l.dirty ||| mask, poison := (l.poison && !whole) || bad, err := if whole then 0 else l.err }
  let s := s.setLine d line l
  { s with fills := s.fills.map fun f : Fill => if f.die == d && f.line == line then { f with written := f.written ||| mask } else f }

/-- A TPST's write of a line can still be undone by a reset that cuts it before it begins (R175); what an earlier TPST
wrote there can not. -/
def State.rememberLine (s : State) (d t id line : Nat) (mask : BitVec 16) : State :=
  let c := s.coupler d
  let others := c.undo.map fun u => if u.2.2.1 = line then (u.1, u.2.1, u.2.2.1, u.2.2.2.1 &&& ~~~mask, u.2.2.2.2) else u
  s.setCoupler d { c with undo := others ++ [(t, id, line, mask, s.line d line)] }

/-- One line of a TPST: it is allocated if absent; with every way moored the data goes to HBM (R168). -/
def tpstLine (pt : At) (m : MoveCmd) (data : List Byte) (bad : List Bool) (s : State) (x : Nat × Nat × Nat × Nat) : State :=
  let (line, lo, n, addr) := x
  let d := pt.die.val
  let t := pt.tile.val
  let off := addr - m.la32
  let bs := (data.drop off).take (32 * n)
  let marks := (bad.drop (off / 32)).take n
  let s := if n = 16 then s else s.checkArray d (t / 64) line
  let (s, room) := s.makeRoom d (t / 64) line
  if !room then
    let k := paStack (line * 512)
    if (s.shg k).lost then s.noteMove d t m.id cTARGET_LOST
    else if !s.memSlots d k then s.noteMove d t m.id cCAPACITY
    else ((s.noteMove d t m.id cCAPACITY).moreMove d t m.id).request d k mWR (line * 512 + 32 * lo) n none bs marks (.tile t m.id addr) 0 0
  else
    let (s, cut) := s.couplerXfer d true
    let s := (s.rememberLine d t m.id line (secMask lo n)).putLine d line bs lo (secMask lo n) (marks.any id)
    let s := if cut then s.poisonLine d (t / 64) line 3 else s
    let (s, c) := s.hint d line (m.osfAt 39 2) (atNow pt)
    s.noteMove d t m.id c

def startTpst (pt : At) (m : MoveCmd) (s : State) : State :=
  let pa := align32 m.rb.toNat
  if m.len = 0 then s.endAt pt m cOK
  else if State.poolCause m pa ≠ 0 then s.memStop pt m pa cADDR_FAULT
  else
    let t := (s.tile (tileKey pt.die pt.tile)).settle pt.cyc
    let bad := t.badUnits m.la32 m.bytes
    let (t, d, p) := t.readLocal m
    let s := s.putTile pt.die.val pt.tile.val (t.activate pt.cyc m (if p then cPOISON else cOK) 0 d p)
    (lineParts (m.len + 1) pa m.len m.la32).foldl (tpstLine pt m d bad) s

/-! ### Fills (R168, R169, R171) -/

/-- Sectors that a KV command waited for have come, or have failed with a code. -/
def KvJob.take (die : Nat) (p : LinePart) (units : List (Nat × List Byte × Bool)) (code : Nat) (j : KvJob) : KvJob :=
  if j.die = die ∧ j.tile = p.tile ∧ j.id = p.id then
    { j with buf := j.buf ++ units, waits := j.waits - 1, code := worstCode j.code code }
  else j
def State.giveKv (s : State) (d : Nat) (p : LinePart) (units : List (Nat × List Byte × Bool)) (code : Nat) : State :=
  { s with kvs := s.kvs.map (KvJob.take d p units code) }
/-- Units of a byte string at an address. -/
def unitsAt (pa : Nat) (bs : List Byte) (bad : Bool) : List (Nat × List Byte × Bool) :=
  (List.range (bs.length / 32)).map fun i => (pa + 32 * i, (bs.drop (32 * i)).take 32, bad)
/-- Valid sectors among those of a part, as a KV command reads them. -/
def State.kvUnits (s : State) (d line : Nat) (p : LinePart) : List (Nat × List Byte × Bool) :=
  let l := s.line d line
  ((List.range p.n).filter fun i => l.valid.getLsbD (p.lo + i)).map fun i =>
    (line * 512 + 32 * (p.lo + i), s.serveSector d (line * 512 + 32 * (p.lo + i)), l.poison)

/-- A waiting part after its fetch has ended: it fails with the fetch's code, is served from the line, from the data alone
with CAPACITY, or, when sectors have gone missing again, waits anew. -/
def State.wakeLine (f : Fill) (room : Bool) (s : State) (p : LinePart) : State :=
  let inside := decide (f.lo ≤ p.lo) && decide (p.lo + p.n ≤ f.lo + f.n)
  let mine := (f.data.drop (32 * (p.lo - f.lo))).take (32 * p.n)
  if f.code ≠ cOK ∧ f.code ≠ cPOISON then
    if p.kv then s.giveKv f.die p [] f.code else s.onTileNow f.die p.tile fun t => t.movePart p.id f.code
  else if p.kv then
    s.giveKv f.die p (if room then s.kvUnits f.die f.line p else unitsAt (f.line * 512 + 32 * f.lo) f.data (f.code == cPOISON))
      (if room then cOK else cCAPACITY)
  else if !room && inside then s.sendPart f.die p mine (worstCode cCAPACITY f.code)
  else tpldLine f.die none f.line p s

/-- Missing sectors that have come back from HBM are installed, except those written since, and the commands
that wait are served. -/
def State.install (s : State) (f : Fill) : State :=
  let region := match f.waiters with | w :: _ => w.tile / 64 | [] => 0
  let s := { s with fills := s.fills.filter (·.uid != f.uid) }
  if f.code ≠ cOK ∧ f.code ≠ cPOISON then f.waiters.foldl (State.wakeLine f false) s
  else if f.want = 0 then f.waiters.foldl (State.wakeLine f false) s
  else
    let (s, room) := s.makeRoom f.die region f.line
    if !room then f.waiters.foldl (State.wakeLine f false) s
    else
      let (s, cut) := s.couplerXfer f.die true
      let l := s.line f.die f.line
      let s := s.setLine f.die f.line (l.put f.lo f.data (f.want &&& ~~~f.written &&& ~~~l.valid))
      let s := if f.code = cPOISON then s.poisonLine f.die region f.line 1 else s
      let s := if cut then s.poisonLine f.die region f.line 3 else s
      f.waiters.foldl (State.wakeLine f true) s
/-- The oldest fetch of a line that has come back, while the Tidepool answers. -/
def State.fillLine (s : State) (d line : Nat) : State :=
  if !s.poolUp d then s else
  match s.fills.find? fun f : Fill => f.die == d && f.line == line && f.back with
  | none => s
  | some f => s.install f

/-! ### Maintenance (R170) -/

/-- Whether a present line is in the range of the operation. -/
def State.inMaint (s : State) (d : Nat) (all : Bool) (line : Nat) : Bool :=
  all || (decide (s.rd TPL_MAINT_RANGE_FIRST_LINE d ≤ line) &&
    decide (line < s.rd TPL_MAINT_RANGE_FIRST_LINE d + s.rd TPL_MAINT_RANGE_LINES d))

/-- CLEAN of one line; it answers POISON when a poisoned line was written back. -/
def State.cleanLine (d : Nat) (acc : State × Nat) (line : Nat) : State × Nat :=
  let s := acc.1.checkArray d 0 line
  let l := s.line d line
  (s.writeBack d line, if l.poison && l.dirty != 0 then cPOISON else acc.2)

/-- One operation, coded as in TPL_MAINT, on one line. -/
def State.maintLine (d op : Nat) (incl : Bool) (acc : State × Nat) (line : Nat) : State × Nat :=
  let l := acc.1.line d line
  let ok := incl || !l.moor
  match op with
  | 1 => State.cleanLine d acc line
  | 2 => (if ok then acc.1.setLine d line TLine.absent else acc.1, acc.2)
  | 3 => if ok then let (s, c) := State.cleanLine d acc line; (s.setLine d line TLine.absent, c) else acc
  | 4 => (acc.1.setLine d line { l with moor := false }, acc.2)
  | _ => acc

/-- Handle lines of the operation in progress. -/
def State.maintLines (s : State) (d : Nat) (lines : List Nat) : State :=
  match (s.coupler d).maint with
  | none => s
  | some (op, incl, left, c) =>
    let (s, c) := lines.foldl (State.maintLine d op incl) (s, c)
    s.setCoupler d { s.coupler d with maint := some (op, incl, left.filter fun l => !lines.contains l, c) }

/-- A GO in TPL_MAINT: refused while a job runs on the die or with a reserved OP; a GO while an operation runs or the
coupler is not active starts nothing (log 22). Which lines are handled early is left open, so a free value says it for
each; the others are handled as the operation finishes. -/
def State.maintGo (s : State) (d op : Nat) (all incl : Bool) : State :=
  let s := ((s.wr TPL_MAINT_OP d op).flag TPL_MAINT_ALL d all).flag TPL_MAINT_INCL_MOORED d incl
  if s.on TPL_CTRL_LOCK d || decide (5 ≤ op) then s.wr TPL_MAINT_REFUSED d 1
  else if op = 0 || s.on TPL_MAINT_BUSY d || !s.poolUp d then s
  else
    let ls := ((s.dieLines d).map (·.1)).filter (s.inMaint d all)
    let s := (s.wr TPL_MAINT_BUSY d 1).setCoupler d { s.coupler d with maint := some (op, incl, ls, cOK) }
    { s with free := s.free + 1 }.maintLines d (ls.filter fun l => Config.freeItem s.free l % 2 == 0)

def execClean (die : Fin 24) (all incl : Bool) (s : State) : Res := .next (s.maintGo die.val 1 all incl)
def execInval (die : Fin 24) (all incl : Bool) (s : State) : Res := .next (s.maintGo die.val 2 all incl)
def execCleanInval (die : Fin 24) (all incl : Bool) (s : State) : Res := .next (s.maintGo die.val 3 all incl)
def execUnmoor (die : Fin 24) (all incl : Bool) (s : State) : Res := .next (s.maintGo die.val 4 all incl)

/-- A write-back of a die is outstanding. -/
def State.anyWback (s : State) (d : Nat) : Bool :=
  let mine := fun r : MemReq => r.q == d && match r.dest with | .wback _ => true | _ => false
  s.mreqs.any mine || s.mwait.any fun x => mine x.1

/-- TPL_MAINT_DONE: the operation in progress handles its last lines and, once its write-backs have ended, finishes: CODE
reports its outcome. -/
def execTplMaintDone (die : Fin 24) (s : State) : Res :=
  let d := die.val
  match (s.coupler d).maint with
  | none => .next s
  | some (_, _, left, _) =>
    let s := s.maintLines d left
    if s.anyWback d then .next s else
    match (s.coupler d).maint with
    | none => .next s
    | some (_, _, _, c) => .next (((s.wr TPL_MAINT_BUSY d 0).wr TPL_MAINT_CODE d c).setCoupler d { s.coupler d with maint := none })

/-- TIDEPOOL_LINE_SCRUB: a module in LEE scrubs the next line, correcting a single-bit error and
handling an uncorrectable one under R171 (R508). -/
def execTidepoolLineScrub (die : Fin 24) (line : BitVec 32) (s : State) : Res :=
  if s.rd TWN_STATUS_STATE ≠ 4 then .next s else
  let l := s.line die.val line.toNat
  .next (if l.err = 1 then s.setLine die.val line.toNat { l with err := 0 } else s.checkArray die.val 0 line.toNat)

/-! ### The repair map (R179, R180) -/

/-- Failed data groups of a channel, ascending. -/
def chFails (fails : List Nat) (c : Nat) : List Nat := ((List.range 32).map (32 * c + ·)).filter fun g => fails.contains g
/-- Channels by failed groups ascending, ties by number. -/
def chOrder (fails : List Nat) : List Nat :=
  (List.range 33).flatMap fun n => (List.range 16).filter fun c => (chFails fails c).length == n
/-- Assign spares to channels in order: spare and group pairs, and the enabled channels. -/
def assignGo (fails : List Nat) : List Nat → List Nat → List (Nat × Nat) × List Nat
  | _, [] => ([], [])
  | free, c :: cs =>
    let fs := chFails fails c
    if fs.length ≤ free.length then
      let (as, en) := assignGo fails (free.drop fs.length) cs
      ((free.take fs.length).zip fs ++ as, c :: en)
    else assignGo fails free cs
structure DirMap where
  pairs : List (Nat × Nat)
  chans : List Nat
deriving DecidableEq, Repr
def dirMap (fails : List Nat) : DirMap :=
  let free := ((List.range 32).map (512 + ·)).filter fun g => !fails.contains g
  let (p, en) := assignGo fails free (chOrder fails)
  ⟨p, (List.range 16).filter fun c => en.contains c⟩
def chMask (cs : List Nat) : Nat := cs.foldl (fun m c => m + 2 ^ c) 0
/-- A spare's 16-bit entry (R179). -/
def spareEntry (m : DirMap) (fails : List Nat) (sp : Nat) : Nat :=
  match m.pairs.find? fun p => p.1 == sp with
  | some p => p.2 + 2 ^ 15
  | none => if fails.contains sp then 2 ^ 14 else 0
/-- The map of both directions after keeping the lowest n enabled channels of each. -/
def bothMaps (up dn : List Nat) : DirMap × DirMap × Nat :=
  let u := dirMap up
  let v := dirMap dn
  let n := min u.chans.length v.chans.length
  ({ u with chans := u.chans.take n }, { v with chans := v.chans.take n }, n)
/-- The 132 B image of Table 7-8. -/
def mapImage (up dn : List Nat) : Nat :=
  let (u, v, _) := bothMaps up dn
  packN 16 (((List.range 32).map fun i => spareEntry u up (512 + i)) ++ [chMask u.chans]
    ++ ((List.range 32).map fun i => spareEntry v dn (512 + i)) ++ [chMask v.chans])
def mapCrc (up dn : List Nat) : Nat := crc32c (leBytes 132 (mapImage up dn))

/-- Publish the map of the failed sets in the registers. New spare uses and a width change enter the Strandline
record (R181); cause 0 is a test's result, 1 a quarantine. A down group is numbered from 1,024 in a unit. -/
def State.publishMap (s : State) (d cause : Nat) : State :=
  let c := s.coupler d
  let (u, v, n) := bothMaps c.failUp c.failDn
  let img := mapImage c.failUp c.failDn
  let used := u.pairs.map (·.2) ++ v.pairs.map (1024 + ·.2)
  let s := (used.filter fun g => !c.mapped.contains g).foldl (fun s g => s.stlSpare 2 d g cause) s
  let s := s.setCoupler d { c with mapped := used, width := 64 * n }
  let s := if c.width = 64 * n then s else s.stlWidth d (64 * n)
  let s := (List.range 17).foldl (fun s i => s.wrWord TPL_MAP (d * 17 + i) (BitVec.ofNat 64 (img / 2 ^ (64 * i)))) s
  (((((s.wr TPL_STATUS_WIDTH d (64 * n)).wr TPL_STATUS_SPARES_UP d u.pairs.length).wr TPL_STATUS_SPARES_DN d v.pairs.length).wr
    TPL_STATUS_CH_UP d (chMask u.chans)).wr TPL_STATUS_CH_DN d (chMask v.chans)).wr TPL_MAPCHK_TPL_CRC d (mapCrc c.failUp c.failDn)

/-! ### Delay taps (R184, R185) -/

/-- Band value of a lane group from the commissioning table, which holds what manufacture measured (R184, log 66). -/
def State.bandValue (s : State) (d band i : Nat) : Nat := smGet Config.bandTap s.bandTap ((d * 12 + band) * 2048 + i)
/-- Target tap: band value plus measured offset, in six bits (R184, log 66). -/
def State.tapTarget (s : State) (d i : Nat) : Nat :=
  min 63 (s.bandValue d (s.rd TPL_THERM_TAP_BAND d) i + smGet (fun _ => 0) (s.coupler d).offset i)
/-- One step of one tap toward its target (R185). -/
def tapStep (tap target : Nat) : Nat := if tap < target then tap + 1 else if target < tap then tap - 1 else tap
/-- Tap indices of both directions. -/
def tapIdx : List Nat := (List.range 544) ++ (List.range 544).map (1024 + ·)
def State.mapTaps (s : State) (d : Nat) (f : Nat → Nat → Nat) : State :=
  let c := s.coupler d
  s.setCoupler d { c with tap := tapIdx.foldl (fun m i => smSet (fun _ => 0) m i (f (smGet (fun _ => 0) m i) (s.tapTarget d i))) c.tap }
def State.stepTaps (s : State) (d : Nat) : State := s.mapTaps d tapStep
/-- Every tap at its target (R182, R183). -/
def State.centreTaps (s : State) (d : Nat) : State := s.mapTaps d fun _ t => t

/-! ### Training (R182, R183, R188) -/

/-- Training ends: the map is published and the coupler is active, or failed at width 0. -/
def State.trained (s : State) (d : Nat) : State :=
  let s := s.publishMap d 0
  s.wr TPL_STATUS_STATE d (if s.rd TPL_STATUS_WIDTH d = 0 then 5 else 3)

/-- COUPLER_QUICK_SCAN: the Headland's scan finds failed groups, builds a candidate map, and the two
dies exchange checksums: on agreement the map is used, else a full lane test follows. -/
def execCouplerQuickScan (die : Fin 24) (up dn : List (Fin 544)) (s : State) : Res :=
  let d := die.val
  if s.rd TPL_STATUS_STATE d ≠ 1 then .next s else
  let c := s.coupler d
  let crc := mapCrc (up.map (·.val)) (dn.map (·.val))
  let s := s.wr TPL_MAPCHK_HDL_CRC d crc
  .next (if crc = mapCrc c.failUp c.failDn then (s.wr TPL_STATUS_LAST_CHECK d 1).trained d
    else (s.wr TPL_STATUS_LAST_CHECK d 2).wr TPL_STATUS_STATE d 2)

/-- COUPLER_FULL_LANE_TEST: every lane is driven, taps are centred on the groups' eyes (`offs`), and the
map is built from the result, which replaces any earlier failed set. Given while the coupler is active it is a
retraining that the Harbour die directs: the Tidepool first enters retention, and the next one is the test (R173). -/
def execCouplerFullLaneTest (die : Fin 24) (up dn : List (Fin 544)) (offs : List (Fin 2048 × BitVec 6)) (s : State) : Res :=
  let d := die.val
  if s.poolUp d ∧ !s.on TPL_MAINT_BUSY d then
    .next ((s.wr TPL_STATUS_STATE d 4).setCoupler d { s.coupler d with retrain := true })
  else if s.rd TPL_STATUS_STATE d ≠ 2 ∧ !(s.rd TPL_STATUS_STATE d == 4 && (s.coupler d).retrain) then .next s else
  let off := offs.foldl (fun m x => smSet (fun _ => 0) m x.1.val x.2.toNat) []
  .next (((s.setCoupler d { s.coupler d with failUp := up.map (·.val), failDn := dn.map (·.val), rebuild := false, retrain := false,
                                               offset := off }).centreTaps d).trained d)

/-- COUPLER_SWEEP_DONE: the eye sweep ends and the new offsets are set as the taps' targets (R186). -/
def execCouplerSweepDone (die : Fin 24) (offs : List (Fin 2048 × BitVec 6)) (s : State) : Res :=
  let d := die.val
  if !s.on TPL_STATUS_CAL_BUSY d then .next s else
  let c := s.coupler d
  let off := offs.foldl (fun m x => smSet (fun _ => 0) m x.1.val x.2.toNat) c.offset
  .next ((s.wr TPL_STATUS_CAL_BUSY d 0).setCoupler d { c with offset := off, calTemp := s.govT d, calReq := false })

/-! ### Resets and retention (R173, R175) -/

/-- Each 16 B chunk of a cut write has arrived or has not. -/
def tornBytes (free : Nat) (old new : List Byte) : List Byte :=
  (List.range (old.length / 16)).flatMap fun i =>
    ((if Config.freeItem free i % 2 = 0 then old else new).drop (16 * i)).take 16
/-- Sectors of a line go back to what they were. -/
def TLine.undo (l old : TLine) (mask : BitVec 16) : TLine :=
  let keep := BitVec.ofNat 4096 (spreadMask 256 16 mask.toNat)
  { l with data := maskBits keep l.data old.data, valid := (l.valid &&& ~~~mask) ||| (old.valid &&& mask),
           dirty := (l.dirty &&& ~~~mask) ||| (old.dirty &&& mask), poison := old.poison, moor := old.moor }
/-- The write of a line of a TPST did not begin: it keeps its old contents, if it is still there. -/
def State.undoLine (d : Nat) (s : State) (u : Nat × Nat × Nat × BitVec 16 × TLine) : State :=
  let l := s.line d u.2.2.1
  if l.valid = 0 then s else s.setLine d u.2.2.1 (l.undo u.2.2.2.2 u.2.2.2.1)
/-- The write of a line was cut: each chunk of its sectors is old or new, and the line is poisoned. -/
def State.tearLine (s : State) (d line : Nat) (old : TLine) (mask : BitVec 16) : State :=
  let l := s.line d line
  let torn := tornBytes s.free ((l.undo old mask).bytes 0 16) (l.bytes 0 16)
  ({ s with free := s.free + 1 }.setLine d line (l.put 0 torn (l.valid ||| mask))).poisonLine d 0 line 0

/-- The lines of one TPST cut by a reset, in the order in which it writes them: those before the line being written are
written, those after it are not; with none being written, a free value says where it stood. -/
def State.cutTpst (d : Nat) (lines : List Nat) (s : State) (us : List (Nat × Nat × Nat × BitVec 16 × TLine)) : State :=
  match us.findIdx? fun u => lines.contains u.2.2.1 with
  | some i =>
    let s := ((us.drop (i + 1)).reverse).foldl (State.undoLine d) s
    match us[i]? with
    | some u => s.tearLine d u.2.2.1 u.2.2.2.2 u.2.2.2.1
    | none => s
  | none =>
    let (v, s) := s.fresh
    ((us.drop (v % (us.length + 1))).reverse).foldl (State.undoLine d) s
/-- A line being installed by a fill when the reset cuts it. -/
def State.cutFill (d : Nat) (s : State) (line : Nat) : State :=
  match s.fills.find? fun f : Fill => f.die == d && f.line == line && f.back with
  | some f =>
    let old := s.line d line
    let new := old.put f.lo f.data (f.want &&& ~~~f.written &&& ~~~old.valid)
    (s.setLine d line new).tearLine d line old (f.want &&& ~~~f.written &&& ~~~old.valid)
  | none => if (s.line d line).valid = 0 then s else s.poisonLine d 0 line 0

/-- The Tidepool enters retention; an operation in progress ends with ABORTED, its remaining lines not handled. -/
def State.retain (s : State) (d : Nat) : State :=
  let s := s.wr TPL_STATUS_STATE d 4
  let s := if s.on TPL_MAINT_BUSY d then (s.wr TPL_MAINT_BUSY d 0).wr TPL_MAINT_CODE d cABORTED else s
  s.setCoupler d { s.coupler d with maint := none, upsets := [], undo := [], retrain := false }

/-- A reset of the Headland die cuts the writes in progress: `lines` are those receiving a write at that moment. They are
poisoned, and the Tidepool enters retention (R173, R175). -/
def State.cutCoupler (s : State) (d : Nat) (lines : List Nat) : State :=
  let us := (s.coupler d).undo
  let cmds := (us.map fun u => (u.1, u.2.1)).eraseDups
  let s := cmds.reverse.foldl (fun s c => State.cutTpst d lines s (us.filter fun u => u.1 == c.1 && u.2.1 == c.2)) s
  let s := (lines.filter fun l => !us.any fun u => u.2.2.1 == l).foldl (State.cutFill d) s
  (s.retain d).wr TPL_STATUS_WIDTH d 0

end Sys2Proof.Machine
end

