-- ==== Sys2Proof/Machine/Kv.lean ====
section
/-! DEFINITION. KV regions and the KV commands (R146, R147, R270, R271, R299 to R305). -/
namespace Sys2Proof.Machine

/-- A KV region header (Table 13-2). -/
structure KvHdr where
  flags : Nat
  stream : Nat
  units : Nat
  cap : Nat
  berm : Nat
  top : Nat
  basePos : Nat
  count : Nat
deriving DecidableEq, Repr

def kvHdr (bs : List Byte) : KvHdr :=
  let f (lo n : Nat) : Nat := leNat ((bs.drop lo).take n)
  ⟨f 0 1, f 1 1, f 4 4, f 8 4, f 12 4, f 16 4, f 24 8, f 32 8⟩
def KvHdr.valid (h : KvHdr) : Bool := h.flags.testBit 0
def KvHdr.bwsDue (h : KvHdr) : Bool := h.flags.testBit 1
/-- The 64 B header block as a KV command writes it, COUNT raised (R304). -/
def KvHdr.write (h : KvHdr) (berm top : Nat) (due : Bool) : List Byte :=
  leBytes 1 (if due then 3 else 1) ++ leBytes 1 h.stream ++ leBytes 2 0 ++ leBytes 4 h.units ++ leBytes 4 h.cap
    ++ leBytes 4 berm ++ leBytes 4 top ++ leBytes 4 0 ++ leBytes 8 h.basePos ++ leBytes 8 (h.count + 1) ++ leBytes 24 0
/-- Address of entry e (R299). -/
def KvHdr.entry (h : KvHdr) (base e : Nat) : Nat := base + 512 + e * h.units * 64

/-- Checks of the header common to every KV command (R300). -/
def kvCheck (h : KvHdr) (base stream : Nat) (poison : Bool) : Nat :=
  if !h.valid || h.stream != stream || h.units == 0 || decide (4096 < h.units) || decide (h.top < h.berm)
      || decide (64 < h.top - h.berm) || decide (h.cap < h.top) || !paOk base (512 + h.cap * h.units * 64) then cADDR_FAULT
  else if poison then cPOISON
  else cOK

/-- A write of a KV command: address, data, poisoned. -/
abbrev KvWrite := Nat × List Byte × Bool

/-- KVAPP (R301): L units of data, poison per unit. -/
def kvAppend (h : KvHdr) (base : Nat) (data : List Byte) (bad : List Bool) : Nat × List KvWrite :=
  let l := data.length / 32
  let a := l / (2 * h.units)
  if l % (2 * h.units) ≠ 0 then (cADDR_FAULT, [])
  else if h.bwsDue || decide (64 < h.top - h.berm + a) || decide (h.cap < h.top + a) then (cCAPACITY, [])
  else
    let size := 64 * h.units
    let ws := (List.range a).map fun i =>
      (h.entry base (h.top + i), (data.drop (i * size)).take size, ((bad.drop (2 * h.units * i)).take (2 * h.units)).any id)
    (if ws.any (·.2.2) then cPOISON else cOK, ws ++ [(base, h.write h.berm (h.top + a) false, false)])

/-- Whether indices strictly increase. -/
def rising : List Nat → Bool
  | a :: b :: r => decide (a < b) && rising (b :: r)
  | _ => true

/-- Accepted path of a KVGTH list, if it passes the checks of R302. -/
def kvPath (h : KvHdr) (list : List Byte) : Option (List Nat) :=
  let n := (list.headD 0).toNat
  let ps := ((list.drop 1).take n).map (·.toNat)
  if list.length < n + 1 || n == 0 || decide (h.top - h.berm < n) || !rising ps || decide (h.top - h.berm ≤ ps.getLast?.getD 0) then none
  else some ps
/-- Copies of 64 B blocks that a gather makes: from and to, in the order of R302; an entry in place is not copied. -/
def kvCopies (h : KvHdr) (base : Nat) (ps : List Nat) : List (Nat × Nat) :=
  (List.range ps.length).flatMap fun k =>
    let p := ps.getD k 0
    if p = k then [] else (List.range h.units).map fun b => (h.entry base (h.berm + p) + 64 * b, h.entry base (h.berm + k) + 64 * b)

/-- KVGTH (R302): the copies of accepted entries, 64 B block by block, read through `rd`. -/
def kvGather (h : KvHdr) (base : Nat) (list : List Byte) (rd : Nat → List Byte × Bool) : Nat × List KvWrite :=
  match kvPath h list with
  | none => (cADDR_FAULT, [])
  | some ps =>
    if h.bwsDue then (cCAPACITY, [])
    else
      let ws := (kvCopies h base ps).map fun c => (c.2, (rd c.1).1, (rd c.1).2)
      (if ws.any (·.2.2) then cPOISON else cOK, ws ++ [(base, h.write (h.berm + ps.length) h.top true, false)])

/-- KVBWS (R303). -/
def kvBackwash (h : KvHdr) (base : Nat) : Nat × List KvWrite := (cOK, [(base, h.write h.berm h.berm false, false)])

/-- A KV command on a region: its code and its writes, the header last (R300 to R304). A poisoned list is used as it
reads, and the command records POISON (log 64). -/
def kvRun (kvop stream base : Nat) (hdr : List Byte) (hdrBad : Bool) (data : List Byte) (bad : List Bool)
    (rd : Nat → List Byte × Bool) : Nat × List KvWrite :=
  let h := kvHdr hdr
  match kvCheck h base stream hdrBad with
  | 0 =>
    let r := if kvop = 1 then kvAppend h base data bad else if kvop = 2 then kvGather h base data rd else kvBackwash h base
    (if kvop = 2 && bad.any id && (r.1 == cOK) then cPOISON else r.1, r.2)
  | c => (c, [])
/-- The blocks that a command reads beyond the header. -/
def kvReads (kvop stream base : Nat) (hdr : List Byte) (hdrBad : Bool) (data : List Byte) : List Nat :=
  let h := kvHdr hdr
  if kvop ≠ 2 || kvCheck h base stream hdrBad != 0 || h.bwsDue then [] else
  match kvPath h data with
  | none => []
  | some ps => (kvCopies h base ps).map (·.1)

/-! ### UNIT = 1: in the Shingle (R270, R271) -/

/-- KV_EXECUTE: the Shingle executes a KV command once no earlier command on the same region waits,
writes the header last and returns KVDONE. -/
def execKvExecute (k : Fin 16) (q : Fin 24) (rid : BitVec 12) (s : State) : Res :=
  match s.jobs.find? fun j => j.same k.val q.val rid.toNat mKVCMD with
  | none => .next s
  | some j =>
    let m := j.msg
    let ahead := (s.jobs.takeWhile (· != j)).any fun e => e.k == j.k && e.msg.typ == mKVCMD && e.msg.pa == m.pa
    if ahead || !segUnits j.seen 0 m.len || j.seen.isEmpty then .next s else
    let st := stnId j.q
    let (s, hdr, hb) := s.hbmRead st m.pa 64
    let h := kvHdr hdr
    let src := (kvReads m.kvop m.stream m.pa hdr hb m.data).map fun a => (a, s.blkPoison (a / 64))
    let s := src.foldl (fun s a => s.decodeBlk st (a.1 / 64)) s
    let (code, ws) := kvRun m.kvop m.stream m.pa hdr hb m.data m.bad
      fun a => (s.hbmBytes a 64, src.any fun x => x.1 == a && x.2)
    let s := ws.foldl (fun s w => s.hbmWrite st w.1 w.2.1 (List.replicate (w.2.1.length / 32) w.2.2)) s
    let s := match ws.getLast? with
      | some w => { s with kvUndo := s.kvUndo ++ [(⟨j.k, j.q, m.rid, m.pa, hdr, w.2.1⟩ : KvUndo)] }
      | none => s
    let s := if m.kvop = 2 && !ws.isEmpty then { s with twn := { s.twn with gathers := s.twn.gathers ++
        [(⟨j.q, m.rid, k.val, m.stream, m.pa, h.berm, (m.data.headD 0).toNat, 64 * h.units, false⟩ : Gather)] } } else s
    .next { s with jobs := s.jobs.filter (· != j), mout := s.mout ++ [(24 + k.val, j.q, m.response mKVDONE code)] }

/-! ### UNIT = 0: in the Tidepool (R305) -/

/-- Units of 32 B that a block touches, and those of a list of blocks. -/
def blockUnits (as_ : List Nat) : List Nat := as_.flatMap fun a => [a, a + 32]
/-- A unit as a KV command reads it: from its valid sector, or as it came past a full set. -/
def State.kvUnit (s : State) (j : KvJob) (a : Nat) : Option (List Byte × Bool) :=
  let l := s.line j.die (a / 512)
  if l.valid.getLsbD (a / 32 % 16) then some (s.serveSector j.die a, l.poison)
  else (j.buf.find? fun x => x.1 == a).map (·.2)
def State.kvBlock (s : State) (j : KvJob) (a : Nat) : List Byte × Bool :=
  let u := (s.kvUnit j a).getD (leBytes 32 0, false)
  let v := (s.kvUnit j (a + 32)).getD (leBytes 32 0, false)
  (u.1 ++ v.1, u.2 || v.2)

/-- The lines of units, each with its first and last sector. -/
def unitLines (us : List Nat) : List (Nat × Nat × Nat) :=
  (us.map (· / 512)).eraseDups.map fun l =>
    let secs := (us.filter fun a => a / 512 == l).map fun a => a / 32 % 16
    let lo := secs.foldl min 15
    (l, lo, secs.foldl max 0 + 1 - lo)

def State.setKv (s : State) (j : KvJob) (f : KvJob → KvJob) : State :=
  { s with kvs := s.kvs.map fun x => if x.die = j.die ∧ x.tile = j.tile ∧ x.id = j.id then f x else x }
/-- A KV command in a Tidepool has ended with a code. -/
def State.endKv (s : State) (j : KvJob) (code : Nat) : State :=
  { s with kvs := s.kvs.filter fun x => !(x.die == j.die && x.tile == j.tile && x.id == j.id) }.onTileNow j.die j.tile
    fun t => t.movePart j.id code

/-- Ask for the missing sectors of a line, as a TPLD does (R168). -/
def kvAsk (j : KvJob) (s : State) (x : Nat × Nat × Nat) : State :=
  (s.setKv j fun y => { y with waits := y.waits + 1 }).fetch j.die x.1 ⟨j.tile, j.id, x.2.1, x.2.2, 0, 0, true⟩ (s.wayless j.die x.1)
/-- A KV command misses units: it ends with what R7 places first when they cannot be asked for, or waits for them. -/
def kvMiss (j : KvJob) (s : State) (us : List Nat) : State :=
  match armCode [(cTARGET_LOST, us.any fun a => (s.shg (paStack a)).lost), (cCAPACITY, us.any fun a => !s.memSlots j.die (paStack a))] with
  | 0 => (unitLines us).foldl (kvAsk j) s
  | c => s.endKv j c

/-- The units of a command's writes on one line: sector, data, poison; a later write of a sector stands. -/
def kvSectors (ws : List KvWrite) (line : Nat) : List (Nat × List Byte × Bool) :=
  ws.flatMap fun w => (unitsAt w.1 w.2.1 w.2.2).filterMap fun u => if u.1 / 512 = line then some (u.1 / 32 % 16, u.2.1, u.2.2) else none

/-- A KV command writes one line as a TPST does: all its sectors in one access, which clears poison if it covers the line;
with no way free they go to HBM (R168, R172, R305). -/
def kvPut (j : KvJob) (ws : List KvWrite) (up : Bool) (s : State) (line : Nat) : State :=
  let us := kvSectors ws line
  let mask := us.foldl (fun m u => m ||| secMask u.1 1) (0 : BitVec 16)
  let sector (i : Nat) : List Byte × Bool := match (us.reverse.find? fun u => u.1 == i) with | some u => u.2 | none => (leBytes 32 0, false)
  let s := if mask = BitVec.allOnes 16 then s else s.checkArray j.die (j.tile / 64) line
  let (s, room) := s.makeRoom j.die (j.tile / 64) line
  if !room then
    (dirtyRuns mask 16 0).foldl (fun s r =>
      ((s.noteMove j.die j.tile j.id cCAPACITY).moreMove j.die j.tile j.id).request j.die (paStack (line * 512)) mWR (line * 512 + 32 * r.1) r.2 none
        ((List.range r.2).flatMap fun i => (sector (r.1 + i)).1) ((List.range r.2).map fun i => (sector (r.1 + i)).2)
        (.tile j.tile j.id 0) 0 0) s
  else
    let (s, cut) := if up then s.couplerXfer j.die true else (s, false)
    let s := s.putLine j.die line ((List.range 16).flatMap fun i => (sector i).1) 0 mask (us.any (·.2.2))
    if cut then s.poisonLine j.die (j.tile / 64) line 3 else s

/-- A KV command goes on, once no earlier one of its tile and stream is outstanding and nothing it waits for is missing:
it fetches the header's sectors, then those it copies, and then takes effect at once, the header last (R147, R305). -/
def kvStep (s : State) (j : KvJob) : State :=
  let missing (us : List Nat) : List Nat := us.filter fun a => (s.kvUnit j a).isNone
  if j.waits ≠ 0 || s.kvBehind j.die j.tile j.id j.stream || !s.poolUp j.die then s
  else if j.code ≠ cOK ∧ j.code ≠ cCAPACITY then s.endKv j j.code
  else
    match missing [j.base, j.base + 32] with
    | a :: r => kvMiss j s (a :: r)
    | [] =>
      let (hdr, hb) := s.kvBlock j j.base
      let reads := kvReads j.kvop j.stream j.base hdr hb j.data
      match missing (blockUnits reads).eraseDups with
      | a :: r => kvMiss j s (a :: r)
      | [] =>
        let (code, ws) := kvRun j.kvop j.stream j.base hdr hb j.data j.bad (s.kvBlock j)
        let ls := ((ws.flatMap fun w => (unitsAt w.1 w.2.1 w.2.2).map fun u => u.1 / 512).filter (· != j.base / 512)).eraseDups
        let s := ls.foldl (kvPut j ws (j.kvop == 1)) s.usedServe
        let s := if ws.isEmpty then s else kvPut j ws false s (j.base / 512)
        s.endKv j (worstCode j.code code)
/-- Every KV command of a die that can go on. -/
def State.kvAdvance (s : State) (d : Nat) : State :=
  (s.kvs.filter fun j => j.die == d).foldl (fun s j =>
    match s.kvs.find? fun x => x.die == j.die && x.tile == j.tile && x.id == j.id with
    | some x => kvStep s x
    | none => s) s

/-- TIDEPOOL_FILL: missing sectors come back from HBM, are installed and delivered, and KV commands go on
(R168, R169, R171). -/
def execTidepoolFill (die : Fin 24) (line : BitVec 32) (s : State) : Res :=
  .next ((s.fillLine die.val line.toNat).kvAdvance die.val)

/-! ### Starting a KV command -/

/-- KVAPP, KVGTH and KVBWS start: the role, address, twin, stack and slot conditions, then the unit that executes it. -/
def startKv (kvop : Nat) (pt : At) (m : MoveCmd) (s : State) : State :=
  let d := pt.die.val
  let base := m.rb.toNat
  let k := paStack base
  let stream := m.osfAt 39 6
  let unit1 := m.osfAt 45 1 == 1
  let twin := s.rd TWN_STATUS_STATE
  let okPa := paOk base 64
  let form := armCode [(cPERM, (s.die d).role != 4),
    (cADDR_FAULT, !okPa || base % 4096 != 0 || (kvop != 3 && !m.localOk)), (cUNSUPPORTED, !unit1 && (twin == 2 || twin == 5))]
  let code := armCode [(form, true), (cTARGET_LOST, unit1 && (s.shg k).lost), (cCAPACITY, unit1 && !s.memSlots d k)]
  if form = cOK ∧ kvop ≠ 3 ∧ m.len = 0 then s.endAt pt m cOK
  else if code = cADDR_FAULT then
    let s := if okPa then s else s.paFault d pt.tile.val base
    if kvop ≠ 3 && !m.localOk then s.endFault pt m (outAddr m.la.toNat) else s.endAt pt m code
  else if code ≠ cOK then s.endAt pt m code
  else
    let n := if kvop = 3 then 0 else m.len
    let t := (s.tile (tileKey pt.die pt.tile)).settle pt.cyc
    let bad := if kvop = 3 then [] else t.badUnits m.la32 (32 * n)
    let (t, data, p) := if kvop = 3 then (t, [], false) else t.readLocal m
    let s := s.putTile d pt.tile.val (t.activate pt.cyc m (if p then cPOISON else cOK) 1 [] p)
    if unit1 then s.request d k mKVCMD base n none data bad (.tile pt.tile.val m.id 0) stream kvop
    else
      let j : KvJob := ⟨d, pt.tile.val, m.id, kvop, stream, base, data, bad, [], 0, cOK⟩
      State.kvAdvance { s with kvs := s.kvs ++ [j] } d

/-! ### Completion -/

/-- MOVE_COMMAND_COMPLETE: a started command with nothing outstanding records one completion with
its code in its counter (R137); a KV command that waited for it goes on (R147). -/
def execMoveCommandComplete (pt : At) (id : Nat) (s : State) : Res :=
  let d := pt.die.val
  let s := s.onTile pt fun t =>
    match t.active.find? (fun a => a.cmd.id == id) with
    | none => t
    | some a => if a.left = 0 then (commitIbld a t).finishMove pt.cyc id a.code else t
  let open_ := (s.tile (tileKey pt.die pt.tile)).active.any fun a => a.cmd.id == id
  let s := if open_ then s else
    s.setCoupler d { s.coupler d with undo := (s.coupler d).undo.filter fun u => !(u.1 == pt.tile.val && u.2.1 == id) }
  .next ((s.admitPort d).kvAdvance d)

end Sys2Proof.Machine
end

