-- ==== Sys2Proof/Machine/Sampler.lean ====
section
/-! DEFINITION. The hardware sampler: intake, sampling, acceptance and results (R297, R307 to R318). -/
namespace Sys2Proof.Machine

/-! ### FP32 arithmetic of the sampler (R311) -/

def spAdd (a b : Nat) : Nat := (addRne a (decodeF fp32 b)).1
def spSub (a b : Nat) : Nat := spAdd a (Nat.xor b (2 ^ 31))
def spMul (a b : Nat) : Nat := (deliver fp32 rneEnv 0 (mulV (decodeF fp32 a) (decodeF fp32 b)).1).1
/-- Quotient by a finite nonzero divisor, correctly rounded. -/
def spDiv (a b : Nat) : Nat :=
  match decodeF fp32 a, decodeF fp32 b with
  | .fin s m x, .fin t n y =>
    if n = 0 then infCode fp32 (s != t)
    else (roundF fp32 .rne 0 false false (s != t) (m * 2 ^ 80 / n) (x - y - 80) (m * 2 ^ 80 % n != 0)).1
  | .inf s, .fin t _ _ => infCode fp32 (s != t)
  | _, _ => nanCode fp32
def spIsNan (a : Nat) : Bool := (decodeF fp32 a).isNan
def spFinite (a : Nat) : Bool := match decodeF fp32 a with | .fin _ _ _ => true | _ => false
def spLt (a b : Nat) : Bool := !spIsNan a && !spIsNan b && decide (fkeyZ fp32 a < fkeyZ fp32 b)
def spLe (a b : Nat) : Bool := !spIsNan a && !spIsNan b && decide (fkeyZ fp32 a ≤ fkeyZ fp32 b)
/-- log2(e) in units of 2^-128. -/
def log2e : Nat := 490923683258796565746369346286093237521
/-- A faithful e^x: a fixed function of x where the exact result is not representable. -/
def spExp (a : Nat) : Nat :=
  match decodeF fp32 a with
  | .fin s m x =>
    if m = 0 then 0x3F800000
    else
      let (n, y, _) := exp2Mag s (m * log2e) (x - 128)
      (faithful fp32 rneEnv 16 a 0 false n y true).1
  | .inf s => if s then 0 else infCode fp32 false
  | .nan _ => nanCode fp32

/-! ### Candidates (R309) -/

/-- Rank key of a logit: NaN ranks as −∞. -/
def logitKey (x : Nat) : Int := if spIsNan x then fkeyZ fp32 0xFF800000 else fkeyZ fp32 x
/-- Candidate a ranks before b: higher logit, then lower token. -/
def candBefore (a b : Nat × Nat) : Bool := logitKey b.2 < logitKey a.2 || (logitKey a.2 == logitKey b.2 && decide (a.1 < b.1))
def candInsert (a : Nat × Nat) : List (Nat × Nat) → List (Nat × Nat)
  | [] => [a]
  | b :: bs => if candBefore a b then a :: b :: bs else b :: candInsert a bs
/-- Candidates ranked. -/
def candSort (cs : List (Nat × Nat)) : List (Nat × Nat) := cs.foldr candInsert []
/-- Merge one candidate into those held, the tokens seen and the count of repeats: the K highest stay, and a token that
came before keeps its higher logit and counts (R309). -/
def candMerge (k : Nat) (acc : List (Nat × Nat) × List Nat × Nat) (c : Nat × Nat) : List (Nat × Nat) × List Nat × Nat :=
  let dup := if acc.2.1.contains c.1 then acc.2.2 + 1 else acc.2.2
  let seen := if acc.2.1.contains c.1 then acc.2.1 else acc.2.1 ++ [c.1]
  match acc.1.find? fun b => b.1 == c.1 with
  | some b => ((candInsert (if logitKey b.2 < logitKey c.2 then c else b) (acc.1.filter fun b => b.1 != c.1)).take k, seen, dup)
  | none => ((candInsert c acc.1).take k, seen, dup)

def pairs8 : Nat → List Byte → List (Nat × Nat)
  | 0, _ => []
  | n + 1, bs => (leNat (bs.take 4), leNat ((bs.drop 4).take 4)) :: pairs8 n (bs.drop 8)

/-! ### Streams -/

def State.smp (s : State) (n : Nat) : Smp := smGet (fun _ => Smp.reset) s.smps n
def State.setSmp (s : State) (n : Nat) (x : Smp) : State := { s with smps := smSet (fun _ => Smp.reset) s.smps n x }
/-- Node contexts in use, published in SMP_CTX. -/
def State.countCtx (s : State) : State :=
  s.wr SMP_CTX_USED 0 (s.smps.foldl (fun n e => n + e.2.ctxs.length) 0)
def State.running (s : State) (n : Nat) : Bool := s.rd SMP_STATE_STATE n == 1
/-- Role that a sending station holds in the role map. -/
def State.roleOf (s : State) (sstn : Nat) : Nat := if sstn < 24 then s.rd TID_ROLE_ROLE sstn else 5

/-- Whether the parts of a slice are all held: 0 through the part flagged LAST. -/
def sliceDone (parts : List (Nat × Nat × Bool)) (sl : Nat) : Bool :=
  match parts.find? fun p => p.1 == sl && p.2.2 with
  | some l => (List.range (l.2.1 + 1)).all fun i => parts.any fun p => p.1 == sl && p.2.1 == i
  | none => false
/-- A node with all its slices complete. -/
def NodeCtx.complete (c : NodeCtx) : Bool := (List.range c.nslice).all (sliceDone c.parts)

/-- Accept a slice record for its node (R309). -/
def State.takeSlice (s : State) (r : SRec) : State :=
  let x := s.smp r.stream
  let bad := decide (64 ≤ r.node) || r.nslice == 0 || decide (24 < r.nslice) || decide (r.nslice ≤ r.slice) || decide (15 < r.part)
  if bad then s.bump SMP_STAT_BADREC 0 1
  else
    let old := x.ctxs.find? fun c => c.node == r.node
    match old with
    | none =>
      if 1024 ≤ s.rd SMP_CTX_USED then (s.setSmp r.stream { x with short := true }).bump SMP_CTX_FULL 0 1
      else
        let (cs, seen, dup) := (pairs8 (r.body.length / 8) r.body).foldl (candMerge (s.rd SMP_CFG_TOPK r.stream)) ([], [], 0)
        let c : NodeCtx := ⟨r.node, r.nslice, [(r.slice, r.part, r.last)], cs, seen, r.poison⟩
        ((s.setSmp r.stream { x with ctxs := x.ctxs ++ [c] }).bump SMP_STAT_DUP 0 dup).countCtx
    | some c =>
      if c.nslice ≠ r.nslice then s.bump SMP_STAT_BADREC 0 1
      else if c.parts.any fun p => p.1 == r.slice && p.2.1 == r.part then s
      else
        let (cs, seen, dup) := (pairs8 (r.body.length / 8) r.body).foldl (candMerge (s.rd SMP_CFG_TOPK r.stream)) (c.cands, c.seen, 0)
        let c' := { c with parts := c.parts ++ [(r.slice, r.part, r.last)], cands := cs, seen := seen, poison := c.poison || r.poison }
        (s.setSmp r.stream { x with ctxs := x.ctxs.map fun d => if d == c then c' else d }).bump SMP_STAT_DUP 0 dup

/-- The oldest intake record, if it is of a kind. -/
def State.nextRec (s : State) (kind : Nat) : Option (SRec × State) :=
  match s.intake with
  | r :: rs => if r.kind == kind then some (r, { s with intake := rs }) else none
  | [] => none

/-- A record of a stream that is not RUNNING, or of another step (R309). -/
def State.staleRec (s : State) (r : SRec) : Bool :=
  decide (64 ≤ r.stream) || !s.running r.stream || s.rd SMP_STATE_STEP r.stream % 65536 != r.step

/-- SLICE: a slice record enters the intake and its candidates are merged into the node. -/
def execSlice (s : State) : Res :=
  match s.nextRec 1 with
  | none => .next s
  | some (r, s) =>
    if s.roleOf r.sstn ≠ 2 then .next (s.bump SMP_STAT_BADSRC 0 1)
    else if s.staleRec r then .next (s.bump SMP_STAT_STALE 0 1)
    else .next (s.takeSlice r)

/-- Nodes of a tree body: token and parent; and whether it obeys R297. -/
def treeNodes (n : Nat) (body : List Byte) : List (Nat × Nat) × Bool :=
  let ps := (pairs8 n body).map fun p => (p.1, p.2 % 256, p.2 / 256)
  let ok := decide (1 ≤ n) && decide (n ≤ 64) && ps.all (fun p => p.2.2 == 0) &&
    (List.range n).all fun j => let p := (ps.getD j (0, 0, 0)).2.1; if j = 0 then p == 0xFF else decide (p < j)
  (ps.map fun p => (p.1, p.2.1), ok)

/-- TREE: a tree record is accepted and opens the stream's step. -/
def execTree (s : State) : Res :=
  match s.nextRec 2 with
  | none => .next s
  | some (r, s) =>
    if s.roleOf r.sstn ≠ 2 ∧ s.roleOf r.sstn ≠ 3 then .next (s.bump SMP_STAT_BADSRC 0 1)
    else if s.staleRec r || s.on SMP_STATE_OPEN r.stream then .next (s.bump SMP_STAT_STALE 0 1)
    else
      let (ns, ok) := treeNodes r.node r.body
      if !ok then .next (s.bump SMP_STAT_BADREC 0 1)
      else .next ((s.setSmp r.stream { s.smp r.stream with tree := ns, treePoison := r.poison, cycles := 0 }).wr SMP_STATE_OPEN r.stream 1)

/-! ### Sampling a node (R311, R312) -/

/-- Depth of a node. -/
def depthGo (tree : List (Nat × Nat)) : Nat → Nat → Nat
  | 0, _ => 0
  | f + 1, j => if j = 0 then 0 else 1 + depthGo tree f (tree.getD j (0, 0)).2
def nodeDepth (tree : List (Nat × Nat)) (j : Nat) : Nat := depthGo tree 64 j
/-- Tokens on the path from the root's children to node j: depth and token. -/
def pathGo (tree : List (Nat × Nat)) : Nat → Nat → List (Nat × Nat)
  | 0, _ => []
  | f + 1, j => if j = 0 then [] else (nodeDepth tree j, (tree.getD j (0, 0)).1) :: pathGo tree f (tree.getD j (0, 0)).2

/-- Token of the history buffer at a position (R319). -/
def State.histTok (s : State) (n p : Nat) : Nat :=
  let i := p % 1024
  s.rd (if i % 2 = 0 then SMP_HIST_TOKEN0 else SMP_HIST_TOKEN1) (n * 512 + i / 2)
def State.setHist (s : State) (n p tok : Nat) : State :=
  let i := p % 1024
  s.wr (if i % 2 = 0 then SMP_HIST_TOKEN0 else SMP_HIST_TOKEN1) (n * 512 + i / 2) tok

/-- Tokens in the penalty window of node j at position q. -/
def State.window (s : State) (n : Nat) (tree : List (Nat × Nat)) (j q : Nat) : List Nat :=
  let w := s.rd SMP_CFG_PEN_WIN n
  let pos := s.rd SMP_POS_POS n
  let onPath := pathGo tree 64 j
  (List.range (min w q)).map fun i =>
    let p := q - 1 - i
    if p ≤ pos then s.histTok n p
    else ((onPath.find? fun d => d.1 == p - pos).map (·.2)).getD 0

/-- The penalty on one logit. -/
def penalise (pen x : Nat) : Nat := if spLt 0 x then spDiv x pen else spMul x pen

/-- x_u of a position (R312). -/
def State.drawOf (s : State) (n q : Nat) : Nat :=
  let seed := s.rd SMP_SEED_SEED n
  let o := (philox (q % 2 ^ 32) (q / 2 ^ 32 % 2 ^ 32) n 0 (seed % 2 ^ 32) (seed / 2 ^ 32)).headD 0
  (roundF fp32 .rne 0 false false false (o / 256) (-24) false).1

/-- Shortest prefix whose running sum reaches a bound. -/
def topPGo (bound : Nat) : Nat → List (Nat × Nat) → List (Nat × Nat)
  | _, [] => []
  | acc, c :: cs => let a := spAdd acc c.2; if spLe bound a then [c] else c :: topPGo bound a cs
/-- The first kept rank whose running sum exceeds t, else the last. -/
def drawGo (t : Nat) : Nat → Nat → List (Nat × Nat) → Nat
  | _, last, [] => last
  | acc, _, c :: cs => let a := spAdd acc c.2; if spLt t a then c.1 else drawGo t a c.1 cs

/-- R311: the token of a node, and whether its first scaled logit is not finite. -/
def State.sampleNode (s : State) (n : Nat) (tree : List (Nat × Nat)) (j : Nat) (cands : List (Nat × Nat)) : Nat × Bool :=
  let q := s.rd SMP_POS_POS n + nodeDepth tree j + 1
  let pen := s.rd SMP_TEMP_REP_PEN n
  let cs := if s.on SMP_CFG_PEN_EN n && s.rd SMP_CFG_PEN_WIN n != 0 then
      let win := s.window n tree j q
      candSort (cands.map fun c => if win.contains c.1 then (c.1, penalise pen c.2) else c)
    else cands
  let top := (cs.headD (0, 0)).1
  let temp := s.rd SMP_TEMP_TEMP n
  if temp = 0 then (top, false)
  else
    let zs := cs.map fun c => (c.1, spDiv c.2 temp)
    let z0 := (zs.headD (0, 0)).2
    if !spFinite z0 then (top, true)
    else
      let ws := zs.map fun z => (z.1, spExp (spSub z.2 z0))
      let kept := ws.filter fun w => !spLt w.2 (s.rd SMP_TRUNC_MIN_P n)
      let sum := kept.foldl (fun a w => spAdd a w.2) 0
      let kept := topPGo (spMul (s.rd SMP_TRUNC_TOP_P n) sum) 0 kept
      let c := kept.foldl (fun a w => spAdd a w.2) 0
      (drawGo (spMul (s.drawOf n q) c) 0 top kept, false)

/-! ### Acceptance and emission (R313, R314) -/

/-- Walk the tree: the accepted path. -/
def walkGo (tree : List (Nat × Nat)) (toks : List Nat) : Nat → Nat → List Nat
  | 0, j => [j]
  | f + 1, j =>
    match (List.range tree.length).find? fun c => decide (0 < c) && (tree.getD c (0, 0)).2 == j && (tree.getD c (0, 0)).1 == toks.getD j 0 with
    | some c => j :: walkGo tree toks f c
    | none => [j]

/-- Where emission ends: the count and the STOP and MAX flags. -/
def emitGo (stop0 stop1 seq maxT : Nat) : Nat → List Nat → Nat × Bool × Bool
  | e, [] => (e, false, false)
  | e, t :: ts =>
    let st := t == stop0 || t == stop1
    let mx := maxT != 0 && seq + e == maxT - 1
    if st || mx then (e + 1, st, mx) else emitGo stop0 stop1 seq maxT (e + 1) ts

/-- What a closed step yields. -/
structure StepClose where
  code : Nat
  path : List Nat
  tokens : List Nat
  emitted : Nat
  stop : Bool
  max : Bool
deriving DecidableEq, Repr

/-- Result record (R315). -/
def resultRec (stream step seq pos : Nat) (c : StepClose) : List Byte :=
  let h := 3 + 2 ^ 8 * stream + 2 ^ 16 * (step % 65536) + 2 ^ 32 * c.path.length + 2 ^ 64 * c.emitted + 2 ^ 80 * c.code
    + 2 ^ 88 * ((if c.stop then 1 else 0) + (if c.max then 2 else 0))
  let toks := (c.tokens.take c.emitted).flatMap (leBytes 4)
  leBytes 16 h ++ leBytes 8 seq ++ leBytes 8 (pos + 1) ++ leBytes 1 c.path.length ++ c.path.flatMap (leBytes 1)
    ++ leBytes (95 - c.path.length) 0 ++ toks ++ leBytes ((16 - toks.length % 16) % 16) 0

/-- Token records of a step (Table 13-6), twelve tokens each. -/
def tokenRecs (stream step : Nat) (c : StepClose) : Nat → Nat → List Nat → List (List Byte)
  | 0, _, _ => []
  | f + 1, seq, ts =>
    if ts.isEmpty then [] else
    let now := ts.take 12
    let rest := ts.drop 12
    let last := rest.isEmpty
    let flags := (if last && c.stop then 1 else 0) + (if last && c.max then 2 else 0) + (if last then 4 else 0)
    (leBytes 8 seq ++ leBytes 1 stream ++ leBytes 1 now.length ++ leBytes 1 flags ++ leBytes 1 0 ++ leBytes 4 step
      ++ now.flatMap (leBytes 4) ++ leBytes (48 - 4 * now.length) 0) :: tokenRecs stream step c f (seq + 12) rest

/-- Close a step with an error code: n = 0 and E = 0; STEP rises; the result goes out (R310). -/
def State.applyClose (s : State) (n : Nat) (c : StepClose) : State :=
  let step := s.rd SMP_STATE_STEP n
  let pos := s.rd SMP_POS_POS n
  let seq := s.rd SMP_SEQ_SEQ n
  let res := resultRec n step seq pos c
  let s := s.setSmp n { s.smp n with tree := [], treePoison := false, ctxs := [], short := false, cycles := 0, result := res }
  let s := (((s.wr SMP_STATE_OPEN n 0).wr SMP_STATE_CODE n c.code).wr SMP_STATE_STEP n (step + 1)).countCtx
  let s := (List.range c.path.length).foldl (fun s i => s.setHist n (pos + 1 + i) (c.tokens.getD i 0)) s
  let s := (s.wr SMP_POS_POS n (pos + c.path.length)).wr SMP_SEQ_SEQ n (seq + c.emitted)
  if c.stop || c.max then s.wr SMP_STATE_STATE n 2 else s

/-- What closing the open step of a stream yields (R310 to R314), and the nodes with a non-finite z_0. A node whose records
leave it no candidate gives CAPACITY; one whose records are all owed is incomplete, which gives TIMEOUT (R483). -/
def State.closeOf (s : State) (n : Nat) (timeout : Bool) : StepClose × Nat :=
  let x := s.smp n
  let nodes := List.range x.tree.length
  let ctx (j : Nat) : Option NodeCtx := x.ctxs.find? fun c => c.node == j
  let done := nodes.all fun j => match ctx j with | some c => c.complete | none => false
  let empty := nodes.any fun j => match ctx j with | some c => c.cands.isEmpty | none => false
  let code := armCode [(cCAPACITY, x.short || empty || s.on SMP_STATE_RING_STALL n), (cTIMEOUT, timeout && !done),
    (cPOISON, x.treePoison || x.ctxs.any (·.poison))]
  if code ≠ cOK then (⟨code, [], [], 0, false, false⟩, 0)
  else
    let picks := nodes.map fun j => s.sampleNode n x.tree j (match ctx j with | some c => c.cands | none => [])
    let toks := picks.map (·.1)
    let path := walkGo x.tree toks 64 0
    let out := path.map fun j => toks.getD j 0
    let (e, st, mx) := emitGo (s.rd SMP_STOP_STOP0 n) (s.rd SMP_STOP_STOP1 n) (s.rd SMP_SEQ_SEQ n) (s.rd SMP_CFG_MAX_TOKENS n) 0 out
    (⟨cOK, path, out, e, st, mx⟩, (picks.filter (·.2)).length)

/-- Whether every node of the open step is complete. -/
def State.stepComplete (s : State) (n : Nat) : Bool :=
  let x := s.smp n
  s.on SMP_STATE_OPEN n && (List.range x.tree.length).all fun j =>
    match x.ctxs.find? fun c => c.node == j with | some c => c.complete | none => false

/-- A job abort closes every open step with ABORTED (R310, R463). -/
def State.abortSteps (s : State) : State :=
  (List.range 64).foldl (fun s n => if s.on SMP_STATE_OPEN n then
    let s := s.applyClose n ⟨cABORTED, [], [], 0, false, false⟩
    { s with twn := { s.twn with stale := s.twn.stale ++ [n] } } else s) s

/-- Slices held for a tree that never came are discarded at the timeout and count as STALE. -/
def State.dropHeld (s : State) (n : Nat) : State :=
  let x := s.smp n
  let k := x.ctxs.foldl (fun a c => a + c.parts.length) 0
  ((s.setSmp n { x with ctxs := [], short := false, cycles := 0 }).bump SMP_STAT_STALE 0 k).countCtx

/-- Parameters of a stream that ENABLE accepts (R318). -/
def State.smpValid (s : State) (n : Nat) : Bool :=
  let k := s.rd SMP_CFG_TOPK n
  let temp := s.rd SMP_TEMP_TEMP n
  let pen := s.rd SMP_TEMP_REP_PEN n
  let tp := s.rd SMP_TRUNC_TOP_P n
  let mp := s.rd SMP_TRUNC_MIN_P n
  decide (1 ≤ k) && decide (k ≤ 256) && decide (s.rd SMP_CFG_PEN_WIN n ≤ 1024) && spFinite temp && decide (temp < 2 ^ 31)
    && spFinite pen && spLt 0 pen && spLt 0 tp && spLe tp 0x3F800000 && spLe 0 mp && spLe mp 0x3F800000

/-- Setting ENABLE from 0 to 1 (R318). -/
def State.enableStream (s : State) (n : Nat) : State :=
  if s.on SMP_CFG_ENABLE n then s
  else if s.smpValid n then
    ((s.wr SMP_CFG_ENABLE n 1).wr SMP_STATE_STATE n 1).setSmp n { s.smp n with result := [] }
  else (s.wr SMP_STATE_STATE n 3).wr SMP_STATE_CODE n cUNSUPPORTED

/-- Writing ENABLE = 0: an open step is discarded without a result and STATE is IDLE. -/
def State.disableStream (s : State) (n : Nat) : State :=
  (((s.wr SMP_CFG_ENABLE n 0).wr SMP_STATE_STATE n 0).wr SMP_STATE_OPEN n 0).setSmp n
    { s.smp n with tree := [], treePoison := false, ctxs := [], short := false, cycles := 0 } |>.countCtx

end Sys2Proof.Machine
end

