-- ==== Sys2Proof/Machine/Light.lean ====
section
/-! DEFINITION. Light sources, bundle maps, rings and fibre-port light (10_light_and_calibration.md,
R231 to R236). -/
namespace Sys2Proof.Machine

def cold : Nat := 0
def warming : Nat := 1
def warm : Nat := 2
def locking : Nat := 3
def ready : Nat := 4
def lit : Nat := 5
def standby : Nat := 6
def retired : Nat := 7
def failedSrc : Nat := 8

def State.srcSt (s : State) (n : Nat) : Nat := s.rd HRN_SRC_STATE n
def State.srcH (s : State) (n : Nat) : Src := smGet (fun _ => Src.reset) s.light.srcs n
def State.onLight (s : State) (f : Light → Light) : State := { s with light := f s.light }
def State.setSrcH (s : State) (n : Nat) (x : Src) : State :=
  s.onLight fun l => { l with srcs := smSet (fun _ => Src.reset) l.srcs n x }
/-- Reference ticks of an hour. -/
def hourTicks : Nat := 360000000000
/-- LIT_HOURS takes up the time that a source has spent in LIT, STANDBY or READY (Table 10-6). -/
def State.tallySrc (s : State) (n : Nat) : State :=
  let x := s.srcH n
  let t := x.litTicks + (if [lit, standby, ready].contains (s.srcSt n) then s.wall - x.litSince else 0)
  (s.setSrcH n { x with litTicks := t % hourTicks, litSince := s.wall }).bump HRN_SRC_LIT_HOURS n (t / hourTicks)
def State.setSrc (s : State) (n st : Nat) : State := (s.tallySrc n).wr HRN_SRC_STATE n st
def allSrcs : List Nat := List.range 26
/-- Sources in a state. -/
def State.inState (s : State) (st : Nat) : List Nat := allSrcs.filter fun n => s.srcSt n == st
/-- Spares that serve no position: READY, WARMING or LOCKING. -/
def State.sparesComing (s : State) : Bool := allSrcs.any fun n => [ready, warming, locking].contains (s.srcSt n)
/-- Signed fade of a register image. -/
def fadeOf (v : Nat) : Int := sextN 16 v

/-- Position that feeds a bundle (Table 10-1). -/
def bundlePos (b : Nat) : Nat := if b < 96 then b / 4 else if b < 120 then b - 96 else b - 120

/-- The cartridge emits no light: its interlock loop is open, or it was inserted since the module reset (R253). -/
def State.dark (s : State) : Bool := s.light.noLight || !s.on HRN_CART_INTERLOCK
/-- The lowest-numbered COLD spare starts WARMING. Sources 24 and 25 are the spares (R238). -/
def State.preheat (s : State) : State :=
  match [24, 25].find? fun n => s.srcSt n == cold with
  | some n => if s.dark then s else s.setSrc n warming
  | none => s

/-! ### Fade (R242, R243, R247) -/

/-- A source serves a position with a fade below −2.0 dB and no spare is READY, WARMING or LOCKING (R243, R247). -/
def State.unserved (s : State) (n : Nat) : Bool :=
  (s.srcSt n == lit || s.srcSt n == standby) && decide (fadeOf (s.rd HRN_SRC_FADE n) < -200) && !s.sparesComing
/-- Row 3 of Table 10-3: one DEGRADED event when this begins, whether the fade or the last spare brings it. -/
def State.watchFaded (s : State) : State :=
  allSrcs.foldl (fun s n =>
    if s.unserved n == (s.srcH n).alone then s else
    let s := s.setSrcH n { s.srcH n with alone := s.unserved n }
    if s.unserved n then s.raise ⟨0x20, 0x30, n * 8 + 3, some 1, 0, 0⟩ else s) s
/-- BRISK_OK and CALM_WHY under R247; without the BRISK capability BRISK_OK is held at 0 (Table 21-6). -/
def State.updateBrisk (s : State) : State :=
  let s := s.watchFaded
  let fadeBad := allSrcs.any fun n => s.unserved n
  let symBad := s.light.sym.any fun e =>
    let c : Nat := e.2.foldl (fun a x => a + x.1) 0
    let r : Nat := e.2.foldl (fun a x => a + x.2) 0
    decide (r < c * 100000)
  let noCap := !s.caps.testBit 3
  let s := s.flag HRN_OPTSEL_BRISK_OK 0 (!fadeBad && !symBad && !noCap)
  s.wr HRN_OPTSEL_CALM_WHY 0 (if noCap then 3 else if fadeBad then 1 else if symBad then 2 else if s.on HRN_OPTSEL_FORCE_CALM then 3 else 0)

/-- A READY spare that no swap has taken yet. -/
def State.freeSpare (s : State) (sp : Nat) : Bool := s.srcSt sp == ready && !(s.light.raising.any fun x => x.1 == sp)
/-- The spare for a source: the one reserved for it, or any free one. -/
def State.readyFor (s : State) (n : Nat) : Option Nat :=
  match s.light.reserved.find? fun r => r.2 == n && s.freeSpare r.1 with
  | some r => some r.1
  | none => allSrcs.find? s.freeSpare

/-- A swap begins: the spare is taken from READY to full output within 1 ms (R240, R245). -/
def State.raiseSpare (s : State) (n : Nat) : State :=
  if s.light.raising.any fun x => x.2.1 == n then s
  else match s.readyFor n with
    | some sp => s.onLight fun l => { l with raising := l.raising ++ [(sp, n, s.wall + 100000)] }
    | none => s

/-- Whether a source comes before another for a swap: the second in which it reached SWAP_DUE, then the lower fade, then
the lower number (R244). -/
def State.dueBefore (s : State) (n m : Nat) : Bool :=
  let a := (s.srcH n).dueAt / 100000000
  let b := (s.srcH m).dueAt / 100000000
  let f := fadeOf (s.rd HRN_SRC_FADE n)
  let g := fadeOf (s.rd HRN_SRC_FADE m)
  decide (a < b) || (a == b && (decide (f < g) || (f == g && decide (n < m))))
/-- A source wants a spare: its position is dark since it failed (R246), or it is past SWAP_DUE with swaps enabled. -/
def State.wantsSpare (s : State) (n : Nat) : Bool :=
  !(s.light.raising.any fun x => x.2.1 == n) &&
  ((s.srcSt n == failedSrc && s.light.darkPos.contains (s.rd HRN_SRC_POSITION n)) ||
   (s.srcSt n == lit && s.on HRN_SRC_SWAP_DUE n && s.on HRN_LS_CTRL_SWAP_EN))
/-- The next source to get a free spare: a failed one, else the first to reach SWAP_DUE. -/
def State.nextDue (s : State) : Option Nat :=
  match allSrcs.find? fun n => s.srcSt n == failedSrc && s.wantsSpare n with
  | some n => some n
  | none => (allSrcs.filter s.wantsSpare).foldl (fun best n => match best with
    | none => some n
    | some b => if s.dueBefore n b then some n else some b) none
/-- Free spares go to the sources that want them; there are two spares. -/
def State.startSwaps (s : State) : State :=
  [0, 1].foldl (fun s _ => if allSrcs.any s.freeSpare then (match s.nextDue with | some n => s.raiseSpare n | none => s) else s) s

/-- Spares start WARMING while more LIT sources hold WARN than spares are on their way (Table 10-3). -/
def State.shortOfSpares (s : State) : Bool :=
  decide ((allSrcs.filter fun n => [ready, warming, locking].contains (s.srcSt n)).length
    < (allSrcs.filter fun n => s.srcSt n == lit && s.on HRN_SRC_WARN n).length)

/-- Thresholds of a source's one-second fade (Table 10-3); each fault names its row as the unit. -/
def State.fadeThresholds (s : State) (n : Nat) (fade : Int) : State :=
  let ev (row cls : Nat) (s : State) : State := s.raise ⟨0x20, 0x30, n * 8 + row, some cls, 0, 0⟩
  let crossed := decide (fade < -100) && !s.on HRN_SRC_WARN n
  let s := if crossed then ev 1 0 (s.wr HRN_SRC_WARN n 1) else s
  let s := if s.on HRN_LS_CTRL_PREHEAT_EN && (crossed || (s.on HRN_SRC_WARN n && s.shortOfSpares)) then s.preheat else s
  let s := if fade < -200 && !s.on HRN_SRC_SWAP_DUE n then
      let s := (s.wr HRN_SRC_SWAP_DUE n 1).setSrcH n { s.srcH n with dueAt := s.wall }
      if s.sparesComing then ev 2 0 s else s
    else s
  let s := if fade < -350 && !s.on HRN_SRC_UNSPARED n && !s.sparesComing then ev 4 1 (s.wr HRN_SRC_UNSPARED n 1) else s
  s.startSwaps

/-- A source fails in service: its position is dark at once; a READY spare is swapped in without
waiting, or a COLD one starts WARMING (R246). -/
def State.failSource (s : State) (n : Nat) : State :=
  let pos := s.rd HRN_SRC_POSITION n
  let s := (s.setSrc n failedSrc).onLight fun l => { l with darkPos := if pos < 24 then l.darkPos ++ [pos] else l.darkPos }
  let s := s.fault 0x21 0x30 n
  let s := s.startSwaps
  (if s.light.raising.any fun x => x.2.1 == n then s else s.preheat).updateBrisk

/-- FADE_SAMPLE: the Harbour die samples the sixteen lines of a LIT source, in 0.01 dB against their
commissioning levels. -/
def execFadeSample (n : Fin 26) (lines : List Int) (s : State) : Res :=
  if s.srcSt n.val ≠ lit then .next s else
  match lines with
  | [] => .next s
  | l :: ls =>
    let low := ls.foldl min l
    if low < -600 then .next (s.failSource n.val)
    else
      let h := (low :: (s.srcH n.val).hist).take 1000
      let fade := h.foldl (· + ·) 0 / (h.length : Int)
      let s := (s.setSrcH n.val { s.srcH n.val with hist := h }).tallySrc n.val
      let s := s.wr HRN_SRC_FADE n.val (fade % 65536).toNat
      .next ((s.fadeThresholds n.val fade).updateBrisk)

/-- SPARE_RESERVATION: among sources holding WARN and not swapped, the lowest fade takes the lowest
spare on its way; ties go to the lower source number (R244). -/
def execSpareReservation (s : State) : Res :=
  let spares := allSrcs.filter fun n => [warming, locking, ready].contains (s.srcSt n)
  let warns := allSrcs.filter fun n => s.on HRN_SRC_WARN n && s.srcSt n == lit
  let step (best : Option Nat) (n : Nat) : Option Nat :=
    match best with
    | none => some n
    | some b => if fadeOf (s.rd HRN_SRC_FADE n) < fadeOf (s.rd HRN_SRC_FADE b) then some n else some b
  let rec pick : List Nat → List Nat → List (Nat × Nat)
    | [], _ => []
    | sp :: sps, ws => match ws.foldl step none with
      | some n => (sp, n) :: pick sps (ws.filter (· != n))
      | none => []
  .next ((allSrcs.foldl (fun s n => s.tallySrc n) s).onLight fun l => { l with reserved := pick spares warns })

/-- SPARE_WARMED: a WARMING spare is at operating temperature and starts locking; in a cartridge that emits no light it
stays WARM (R253). -/
def execSpareWarmed (n : Fin 26) (s : State) : Res :=
  .next (if s.srcSt n.val = warming then (if s.dark then (s.setSrc n.val warm).updateBrisk else s.setSrc n.val locking) else s)

/-- SPARE_LOCKED: a LOCKING spare is locked to the grid and READY, and serves a dark position or the first source past
SWAP_DUE. -/
def execSpareLocked (n : Fin 26) (s : State) : Res :=
  if s.srcSt n.val ≠ locking || s.dark then .next s else
  .next (((s.setSrc n.val ready).startSwaps).updateBrisk)

/-- SPARE_LOCK_TIMEOUT: a spare not locked within 200 ms is FAILED; the other spare, if COLD, starts
WARMING. -/
def execSpareLockTimeout (n : Fin 26) (s : State) : Res :=
  if s.srcSt n.val ≠ locking then .next s else
  .next ((((s.setSrc n.val failedSrc).fault 0x22 0x30 n.val).preheat).updateBrisk)

/-- SOURCE_FAILED: a source that serves a position loses comb lock, or in LIT a line. -/
def execSourceFailed (n : Fin 26) (s : State) : Res :=
  .next (if s.srcSt n.val = lit || s.srcSt n.val = standby then s.failSource n.val else s)

/-- PREHEAT_NOW: the lowest-numbered COLD spare starts WARMING. -/
def State.preheatNow (s : State) : State := s.preheat.updateBrisk
def execPreheatNow (s : State) : Res := .next s.preheatNow

/-- The swap at tick 1,022 (R245): the spare serves the position and is LIT; the old source is RETIRED,
or stays FAILED. -/
def State.swapSources (s : State) : State :=
  let start := s.wall - 1022
  let due := s.light.raising.filter fun x => decide (x.2.2 ≤ start)
  let s := due.foldl (fun s x =>
    let pos := s.rd HRN_SRC_POSITION x.2.1
    let s := s.stlSwap x.2.1 x.1 pos (s.rd HRN_SRC_FADE x.2.1) (if s.srcSt x.2.1 = failedSrc then 1 else 0)
    let s := ((s.setSrc x.1 lit).wr HRN_SRC_POSITION x.1 pos).wr HRN_SRC_POSITION x.2.1 31
    let s := if s.srcSt x.2.1 = failedSrc then s else s.setSrc x.2.1 retired
    s.onLight fun l => { l with darkPos := l.darkPos.filter (· != pos) }) s
  (s.onLight fun l => { l with raising := l.raising.filter fun x => !due.contains x,
                               reserved := l.reserved.filter fun r => !(due.any fun x => x.1 == r.1) }).updateBrisk

/-- The grade the module's condition assesses: 0 A, 1 B, 2 C, 3 F (R532). -/
def State.assess (s : State) : Nat :=
  let total (f : Fld) (n : Nat) : Nat := (List.range n).foldl (fun a i => a + s.rd f i) 0
  let tiles := total HDL_ROWMAP_SPARES_USED 384
  let lanes := total TPL_STATUS_SPARES_UP 24 + total TPL_STATUS_SPARES_DN 24
  let b := s.stl.baseline
  let serving := allSrcs.filter fun n => decide (s.rd HRN_SRC_POSITION n < 24)
  if s.rd GLB_POST_STATE = 3 || s.rd GLB_POST_HOLD = 2 then 3
  else if !s.on HRN_OPTSEL_BRISK_OK then 2
  else if decide (b.1 < tiles) || decide (b.2.1 < lanes) || decide (b.2.2 < s.rd HRN_STATUS_SPARES_PERM)
      || (serving.any fun n => decide (24 ≤ n)) || (serving.any fun n => fadeOf (s.rd HRN_SRC_FADE n) < -100) then 1
  else 0

/-! ### Bundle maps (R231 to R233) -/

/-- A bundle's map: SPARE_FOR and SPARE_USE. -/
def State.bundleMap (s : State) (b : Nat) : Nat × Nat := (s.rd HRN_BMAP_SPARE_FOR b, s.rd HRN_BMAP_SPARE_USE b)
/-- The map that a station applies: the module's, or an old one after a missed write (R231). -/
def State.mapAt (s : State) (q b : Nat) : Nat × Nat :=
  match s.light.stale.find? fun x => x.1 == q && x.2.1 == b with
  | some x => x.2.2
  | none => s.bundleMap b
/-- Physical waveguide that carries a logical position under a map: the spare, 15, for the position that careens or
moved there for good (R220). -/
def physIn (m : Nat × Nat) (pos : Nat) : Nat := if (m.2 = 1 ∨ m.2 = 2) ∧ m.1 = pos then 15 else pos

/-- Whether a logical waveguide of a station carries light from its source to the layer. -/
def State.wgLit (s : State) (q w : Nat) : Bool :=
  let b := wgBundle q w
  !s.light.darkPos.contains (bundlePos b) && !s.light.darkWg.contains (b, w % 15) && !s.dark
/-- Whether a swell on a waveguide fails between a sender and a receiver: they apply maps that name different physical
waveguides (R231), run in different optical modes (R222), or a ring set is without lock (R249). -/
def State.pathBad (s : State) (sq w rq : Nat) : Bool :=
  let b := wgBundle sq w
  physIn (s.mapAt sq b) (w % 15) != physIn (s.mapAt rq b) (w % 15) || (s.stn sq).opt != (s.stn rq).opt ||
    s.light.lost.contains (rq, sq, w) || s.light.lost.contains (sq, sq, w)

/-- Bundles careening, as CAREENING counts them. -/
def State.countCareens (s : State) : State := s.wr HRN_STATUS_CAREENING 0 (s.light.careens.filter (·.applied)).length

/-- Bundles whose spare use is permanent and bundles with a dark position. -/
def State.countBundles (s : State) : State :=
  let bs := List.range 131
  (s.wr HRN_STATUS_SPARES_PERM 0 (bs.filter fun b => s.rd HRN_BMAP_SPARE_USE b == 2).length).wr
    HRN_STATUS_DARK 0 (bs.filter fun b => s.on HRN_BMAP_DARK b).length

/-- Whether a bundle may not careen: CAREEN_EN is 0, or its spare has failed, is in permanent use or is about to be
(R232). -/
def State.noCareen (s : State) (b : Nat) : Bool :=
  !s.on HRN_CTRL_CAREEN_EN || decide (2 ≤ s.rd HRN_BMAP_SPARE_USE b) || (s.rd HRN_BMAP_FAILED b).testBit 15 ||
    (s.tide.maps.any fun m => m.1 == b && m.2.2.1 == 2) || s.light.quar.any fun x => x.1 == b
/-- Positions that a running recalibration has not reached, of bundles that may not careen, are calibrated in place, and
SKIP_CAL says so (R232, R251). -/
def State.calInPlace (s : State) : State :=
  let bs := (s.light.todo.map (·.1)).eraseDups.filter s.noCareen
  (bs.foldl (fun s b => s.wr HRN_BMAP_SKIP_CAL b 1) s).onLight fun l => { l with todo := l.todo.filter fun x => !bs.contains x.1 }
/-- CAREEN_MAX in force. -/
def State.careenMax (s : State) : Nat := min 131 (max 1 (s.rd HRN_CTRL_CAREEN_MAX))

/-- Announce a bundle's new map with its EFFECT, at least two cycles ahead, and the stations that miss the write
(R231). -/
def State.announce (s : State) (b pos use effect : Nat) (missed : List (Fin 41)) : State :=
  let s := (s.wr HRN_SWITCH_EFFECT 0 effect).wr HRN_STATUS_SWITCH_PEND 0 1
  let s := { s with tide := { s.tide with maps := s.tide.maps ++ [(b, pos, use, effect)] } }
  let s := s.onLight fun l => { l with missed := (l.missed.filter fun x => x.2 != b) ++ missed.map fun q => (q.val, b) }
  missed.foldl (fun s q => (s.bump STN_HRN_MAP_MISS q.val 1).fault 0x11 (stnId q.val) b) s
/-- A switchover may take effect at a tide counter value: tick 0 of a cycle, two cycles ahead or more, and the bundle's
map does not change before. -/
def State.mayAnnounce (s : State) (b effect : Nat) : Bool :=
  effect % 1024 == 0 && decide (s.ticks / 1024 + 2 ≤ effect / 1024) && !(s.tide.maps.any fun m => m.1 == b)

/-- BUNDLE_MAP_WRITE: the Harbour die writes a bundle's new map to every station: a quarantined position
moves permanently to the spare, which returns a careened one, else the next position to calibrate careens. -/
def execBundleMapWrite (bundle : Fin 131) (effect : Nat) (missed : List (Fin 41)) (s : State) : Res :=
  let b := bundle.val
  if !s.mayAnnounce b effect then .next s else
  match s.light.quar.find? fun x => x.1 == b with
  | some x => .next ((s.onLight fun l => { l with quar := l.quar.filter (· != x) }).announce b x.2 2 effect missed)
  | none =>
    if s.careenMax ≤ s.light.careens.length ∨ s.noCareen b ∨ (s.light.careens.any fun c => c.bundle == b) then .next s else
    match s.light.todo.find? fun x => x.1 == b with
    | none => .next s
    | some x =>
      let s := s.onLight fun l => { l with todo := l.todo.filter (· != x), careens := l.careens ++ [⟨b, x.2, effect, false, false, false⟩] }
      .next (s.announce b x.2 1 effect missed)

/-- CAREEN_RETURN: after 16 tide cycles a careened position returns by a second switchover, unless its
ring sets lost lock in its calibration, when it is calibrated again; an abandoned one returns at once (R232, R233, R251). -/
def execCareenReturn (bundle : Fin 131) (effect : Nat) (how : CareenEnd) (s : State) : Res :=
  let b := bundle.val
  match s.light.careens.find? fun c => c.bundle == b && c.applied && !c.back with
  | none => .next s
  | some c =>
    if !s.mayAnnounce b effect || (!c.cut && decide (s.ticks < c.effect + 16 * 1024)) then .next s
    else if how.lockLost && !c.cut then
      .next (s.onLight fun l => { l with careens := l.careens.map fun x => if x == c then { x with effect := s.ticks / 1024 * 1024 } else x })
    else
      .next ((s.onLight fun l => { l with careens := l.careens.map fun x => if x == c then { x with back := true } else x }).announce
        b 15 0 effect how.missed)

/-- A bundle's new map takes effect: at the stations that got the write; the others keep the map they applied. -/
def State.applyMap (s : State) (b pos use : Nat) : State :=
  let old := s.bundleMap b
  let lag := (s.light.missed.filter fun x => x.2 == b).map (·.1)
  let s := s.onLight fun l => { l with
    missed := l.missed.filter fun x => x.2 != b,
    stale := (l.stale.filter fun x => x.2.1 != b || lag.contains x.1) ++
      (lag.filter fun q => !(l.stale.any fun x => x.1 == q && x.2.1 == b)).map fun q => (q, b, old) }
  let cut := s.light.careens.filter fun c => c.bundle == b && (c.cut || use == 2)
  let s := if use = 1 then s else s.onLight fun l =>
    { l with careens := l.careens.filter fun c => c.bundle != b, todo := l.todo ++ cut.map fun c => (c.bundle, c.pos) }
  let s := (s.wr HRN_BMAP_SPARE_FOR b pos).wr HRN_BMAP_SPARE_USE b use
  if use = 2 then s.stlSpare 3 (bundleStation b) (bundleLocal b * 15 + pos) 1 else s

/-- The switchovers due at the end of tick 1,023, when the next cycle is the active one of EFFECT. -/
def State.applyMaps (s : State) : State :=
  let next := s.ticks + 1
  let due := s.tide.maps.filter fun m => m.2.2.2 == next
  let s := due.foldl (fun s m => s.applyMap m.1 m.2.1 m.2.2.1) s
  let s := { s with tide := { s.tide with maps := s.tide.maps.filter fun m => !due.contains m } }
  let s := s.onLight fun l => { l with careens := l.careens.map fun c => if c.effect == next then { c with applied := true } else c }
  let s := s.flag HRN_STATUS_SWITCH_PEND 0 (!s.tide.maps.isEmpty)
  (if due.isEmpty then s else s.countBundles).countCareens

/-- A DIE reset of a source station abandons the careens of its bundles: they return with the next switchover (R233). -/
def State.cutCareens (s : State) (q : Nat) : State :=
  s.onLight fun l => { l with careens := l.careens.map fun c => if bundleStation c.bundle == stnId q then { c with cut := true } else c }
/-- Doldrums or Becalmed abandons every careen at once, and with it the recalibration; a permanent use that is announced is
announced again after the exit (R233). -/
def State.abandonCareens (s : State) : State :=
  let gone := s.light.careens.filter (·.applied)
  let s := gone.foldl (fun s c => (s.wr HRN_BMAP_SPARE_FOR c.bundle 15).wr HRN_BMAP_SPARE_USE c.bundle 0) s
  let perm := (s.tide.maps.filter fun m => m.2.2.1 == 2).map fun m => (m.1, m.2.1)
  let s := { s with tide := { s.tide with maps := [] } }
  ((s.onLight fun l => { l with careens := [], todo := [], missed := [], quar := l.quar ++ perm }).wr HRN_STATUS_SWITCH_PEND 0 0).countCareens

/-- Physical waveguide that carries a logical position now. -/
def State.physWg (s : State) (b pos : Nat) : Nat := physIn (s.bundleMap b) pos
/-- A physical waveguide of a bundle has failed. -/
def State.failWg (s : State) (b p : Nat) : State :=
  let failed := s.rd HRN_BMAP_FAILED b
  if failed.testBit p then s else s.wr HRN_BMAP_FAILED b (failed + 2 ^ p)
/-- A logical position has no waveguide left. -/
def State.darkenWg (s : State) (b pos : Nat) : State :=
  if s.light.darkWg.contains (b, pos) then s else
  let s := (s.wr HRN_BMAP_DARK b 1).onLight fun l => { l with darkWg := l.darkWg ++ [(b, pos)] }
  s.fault 0x12 0x30 (b * 16 + pos)
/-- A waveguide quarantine (R233): the position that careens, or is about to, stays on the spare for good; another takes
the spare with the next switchover; with the spare taken or failed it is dark. -/
def State.spareWg (s : State) (b pos : Nat) : State :=
  let use := s.rd HRN_BMAP_SPARE_USE b
  match s.light.careens.find? fun c => c.bundle == b && c.pos == pos with
    | some c =>
      let s := s.failWg b pos
      let keep := s.tide.maps.filter fun m => m.1 != b
      let maps := if c.applied then keep else s.tide.maps.map fun m => if m.1 == b then (m.1, m.2.1, 2, m.2.2.2) else m
      let s := { s with tide := { s.tide with maps := maps } }
      let s := (s.onLight fun l => { l with careens := l.careens.filter fun c => c.bundle != b }).flag HRN_STATUS_SWITCH_PEND 0
        (!s.tide.maps.isEmpty)
      if c.applied then (s.wr HRN_BMAP_SPARE_USE b 2).stlSpare 3 (bundleStation b) (bundleLocal b * 15 + pos) 1 else s
    | none =>
      let p := s.physWg b pos
      let s := s.failWg b p
      if s.light.quar.contains (b, pos) || (s.tide.maps.any fun m => m.1 == b && m.2.2.1 == 2 && m.2.1 == pos) then s
      else if p = 15 then (s.wr HRN_BMAP_SPARE_USE b 3).darkenWg b pos
      else if 2 ≤ use || (s.light.quar.any fun x => x.1 == b) || (s.tide.maps.any fun m => m.1 == b && m.2.2.1 == 2) then
        s.darkenWg b pos
      else s.onLight fun l => { l with quar := l.quar ++ [(b, pos)] }
def State.quarantineWg (s : State) (b pos : Nat) : State := (s.spareWg b pos).countBundles.countCareens

/-- DECODER_TOTALS: a station's decoder totals of the last millisecond for a bundle: corrected and
received symbols (R236, R247). -/
def execDecoderTotals (bundle : Fin 131) (corrected received : Nat) (s : State) : Res :=
  let s := s.bump HRN_BERR_CORR bundle.val corrected
  let s := if s.calm then s else s.onLight fun l =>
    { l with sym := smUpd (fun _ => []) l.sym bundle.val fun h => ((corrected, received) :: h).take 10000 }
  .next s.updateBrisk

/-! ### Rings (R249 to R252) -/

/-- RING_LOCK_LOST: a ring set of a station on a waveguide loses lock. -/
def execRingLockLost (q src : Fin 41) (wg : Fin 60) (s : State) : Res :=
  let s := (s.bump HRN_RINGCAL_LOCK_LOST 0 1).fault 0x15 (stnId q.val) wg.val
  .next (s.onLight fun l => { l with lost := l.lost ++ [(q.val, src.val, wg.val)] })

/-- RING_LOCK_REACQUIRED: the loop has lock again by sweep. -/
def execRingLockReacquired (q src : Fin 41) (wg : Fin 60) (s : State) : Res :=
  .next (s.onLight fun l => { l with lost := l.lost.filter (· != (q.val, src.val, wg.val)) })

/-- RATE_DETECTOR_TRIP: the ring-derived temperature moved more than 5 °C in 100 µs: the station samples at 20 kHz for
100 ms (R252, R448). -/
def execRateDetectorTrip (q : Fin 41) (s : State) : Res :=
  let s := ((s.wr HRN_RINGCAL_RATE_TRIP 0 1).fault 0x16 (stnId q.val) 0).wr THM_STN_FAST q.val 1
  let s := { s with pwr := { s.pwr with fastTo := smSet (fun _ => 0) s.pwr.fastTo q.val (s.wall + 10000000) } }
  let s := s.onLight fun l => { l with tripped := true }
  .next (if q.val < 24 then s.setCoupler q.val { s.coupler q.val with calReq := true } else s)

/-- Bias band of a temperature in 0.1 °C (R250). -/
def ringBand (t : Nat) : Nat := min 23 (t / 50)
def absDiff (a b : Nat) : Nat := if a < b then b - a else a - b
/-- The 4 °C test of R251. -/
def State.ringMoved (s : State) : Bool :=
  (List.range 41).any fun q => decide (40 < absDiff (s.ringT q) (smGet (fun _ => 0) s.light.ref q))

/-- The ring evaluations of tick 1,008 (R250, R251). -/
def State.settleRings (s : State) : State :=
  let s := s.onLight fun l =>
    { l with bandTo := (List.range 41).foldl (fun m q => smSet (fun _ => 0) m q (ringBand (s.ringT q))) l.bandTo }
  let want := s.ringMoved || s.light.tripped || s.light.request
  let s := s.onLight fun l => { l with tripped := false }
  if s.on HRN_RINGCAL_CAL_BUSY then (s.onLight fun l => { l with request := false }).calInPlace
  else if !want then s
  else
    let bs := List.range 131
    let s := bs.foldl (fun s b => s.wr HRN_BMAP_SKIP_CAL b 0) s
    let s := s.wr HRN_RINGCAL_CAL_BUSY 0 1
    (s.onLight fun l => { l with
      request := false,
      ref := (List.range 41).foldl (fun m q => smSet (fun _ => 0) m q (s.ringT q)) l.ref,
      todo := bs.flatMap fun b => (List.range 15).map fun p => (b, p) }).calInPlace

/-- HARENE_RECAL_DONE: every position is calibrated; the 4 °C test is applied again against the
reference taken at the start (R251). -/
def execHareneRecalDone (s : State) : Res :=
  if !s.on HRN_RINGCAL_CAL_BUSY then .next s else
  let s := s.calInPlace
  if !s.light.todo.isEmpty ∨ !s.light.careens.isEmpty then .next s else
  let s := (s.wr HRN_RINGCAL_CAL_BUSY 0 0).bump HRN_RINGCAL_RECALS 0 1
  .next (s.onLight fun l => { l with request := s.ringMoved })

/-- Ring sets step one bias band toward their station's band in the quiet ticks (R250). -/
def State.stepBands (s : State) : State :=
  s.onLight fun l => { l with band := (List.range 41).foldl (fun m q =>
    smSet (fun _ => 0) m q (tapStep (smGet (fun _ => 0) m q) (smGet (fun _ => 0) l.bandTo q))) l.band }

/-! ### Fibre ports (R256) -/

def setBit (v n : Nat) (b : Bool) : Nat := setBitsN v n 1 (if b then 1 else 0)

/-- A port becomes open: its transmitters change to probe mode, with a NOTE. -/
def State.openPort (s : State) (port : Nat) : State :=
  (s.wr HRN_PORTLIGHT_OPEN 0 (setBit (s.rd HRN_PORTLIGHT_OPEN) port true)).fault 0x23 0x30 port

/-- PROBE_BURST: an open port whose transmitters are not off sends a burst. -/
def execProbeBurst (port : Fin 10) (s : State) : Res :=
  .next (if (s.rd HRN_PORTLIGHT_OPEN).testBit port.val && !(s.rd HRN_PORTLIGHT_OFF).testBit port.val
    then s.emit (.probe port.val) else s)

/-- CARTRIDGE_INSERTION: a cartridge is seated and its loop closes; it emits no light until the next
module reset (R253). -/
def execCartridgeInsertion (serial : BitVec 32) (rev : BitVec 8) (s : State) : Res :=
  let s := (((s.wr HRN_CART_PRESENT 0 1).wr HRN_CART_INTERLOCK 0 1).wr HRN_CART_SERIAL 0 serial.toNat).wr HRN_CART_CART_REV 0 rev.toNat
  .next (if s.rst.powered then s.onLight fun l => { l with noLight := true } else s)

end Sys2Proof.Machine
end

