-- ==== Sys2Proof/Machine/Wire.lean ====
section
/-! DEFINITION. A swell on the wire: header, lanes, preamble, Reed-Solomon code, and what a receiver makes of symbol
errors (R223 to R225, R227). -/
namespace Sys2Proof.Machine

/-! ### The code of one lane (Table 9-2, R224) -/

/-- Data symbols of a lane, and errors it corrects. -/
def laneData (calm : Bool) : Nat := if calm then 49 else 65
def laneFixes (calm : Bool) : Nat := if calm then 3 else 5
/-- Parity symbols: one beyond two for each corrected error. -/
def laneParity (calm : Bool) : Nat := 2 * laneFixes calm + 1
/-! ### The swell as a block and as lanes (R223, R225) -/

/-- Payload bytes of a swell. -/
def swellBytes (calm : Bool) : Nat := if calm then 768 else 1024
/-- The header of Table 9-3 but for its CRC. -/
def Swell.head (x : Swell) : List Byte :=
  let mask := packN 1 (x.bad.map fun b => if b then 1 else 0)
  leBytes 12 (packN 4 [x.kind] + 2 ^ 4 * (if x.missed then 1 else 0) + 2 ^ 5 * (if mask = 0 then 0 else 1) + 2 ^ 8 * (x.sstn % 256) +
    2 ^ 16 * (x.swg % 64) + 2 ^ 24 * (x.dst % 256) + 2 ^ 32 * (x.dport % 64) + 2 ^ 38 * (x.tick % 1024) + 2 ^ 48 * (x.tag % 65536) +
    2 ^ 64 * (mask % 2 ^ 32))
/-- Header, CRC-32C and payload, filled with zeros. -/
def Swell.block (calm : Bool) (x : Swell) : List Byte :=
  let p := (x.payload ++ List.replicate (swellBytes calm) 0).take (swellBytes calm)
  x.head ++ leBytes 4 (crc32c (x.head ++ p)) ++ p
/-- Lane λ`l`'s codeword: byte i of the block is data symbol i ÷ 16 of lane i mod 16. -/
def laneWord (calm : Bool) (block : List Byte) (l : Nat) : List Nat :=
  rsEncode (laneParity calm) ((List.range (laneData calm)).map fun k => (block.getD (16 * k + l) 0).toNat)
/-- The preamble of every lane: 24 alternating bits and the sync byte. -/
def lanePreamble : List Nat := [0xAA, 0xAA, 0xAA, 0xE7]
/-- The bytes of every lane in the order in which they are sent. -/
def Swell.wire (calm : Bool) (x : Swell) : List (List Nat) :=
  (List.range 16).map fun l => lanePreamble ++ laneWord calm (x.block calm) l

/-! ### Symbol errors (R227) -/

/-- The words of the sixteen lanes after decoding, for errors alone. -/
def wireLanes (calm : Bool) (errs : List (Fin 16 × Fin 76 × BitVec 8)) : List (Option (List Nat)) :=
  (List.range 16).map fun l =>
    rsDecode (laneParity calm) (laneFixes calm) (errs.foldl (fun w e =>
      if e.1.val = l then listSet w e.2.1.val (Nat.xor (w.getD e.2.1.val 0) e.2.2.toNat) else w)
      (List.replicate (laneData calm + laneParity calm) 0))
/-- The block that decoded lanes hold. -/
def wireBlock (calm : Bool) (lanes : List (Option (List Nat))) : List Byte :=
  (List.range (16 * laneData calm)).map fun i => BitVec.ofNat 8 (((lanes.getD (i % 16) none).getD []).getD (i / 16) 0)
/-- What symbol errors turn the block into: its difference from the block sent, or `none` where a lane's code or the
CRC fails. Both codes are linear, so it depends on the errors alone. -/
def wireDiff (calm : Bool) (errs : List (Fin 16 × Fin 76 × BitVec 8)) : Option (List Byte) :=
  let lanes := wireLanes calm errs
  let d := wireBlock calm lanes
  if lanes.any Option.isNone then none
  else if crcGo (d.take 12 ++ d.drop 16) 0 = leNat ((d.drop 12).take 4) then some d else none

/-- The swell that header bytes 0 to 11 (Table 9-3) and a payload spell. -/
def Swell.parse (head payload : List Byte) : Swell :=
  let h := leNat head
  { kind := h % 16, missed := h.testBit 4, sstn := bitsN h 8 8, swg := bitsN h 16 6, dst := bitsN h 24 8, dport := bitsN h 32 6,
    tick := bitsN h 38 10, tag := bitsN h 48 16, bad := if h.testBit 5 then (List.range 32).map fun u => h.testBit (64 + u) else [],
    payload := payload }

/-- A swell as its receiver decodes it: `none` where a lane's code or the CRC fails (R227). -/
def rxSwell (calm : Bool) (x : Swell) : Rx → Option Swell
  | .good => some x
  | .fec => none
  | .other p => some { x with payload := p }
  | .errors e => (wireDiff calm e).map fun d =>
    if d.all (· == 0) then x
    else Swell.parse (List.zipWith (· ^^^ ·) x.head d) (List.zipWith (· ^^^ ·) ((x.block calm).drop 16) (d.drop 16))

/-- The comparison of a header with what a slot expects: source, waveguide, destination, drop port, tick, TAG[6:0] and
the kinds that the slot admits (R227). -/
def Swell.expected (x : Swell) (kinds : List Nat) (sstn swg dst dport tick tag6 : Nat) : Bool :=
  kinds.contains x.kind && x.sstn == sstn && x.swg == swg && x.dst == dst && x.dport == dport && x.tick == tick && x.tag % 128 == tag6

/-! ### Payloads of report and note swells -/

/-- A report entry (Table 8-8). -/
def FailEnt.word (f : FailEnt) : Nat := f.sstn % 256 + 2 ^ 8 * (f.swg % 64) + 2 ^ 14 * (f.tick % 1024) + 2 ^ 24 * (f.dport % 64)
/-- A report swell's payload up to its last entry: the count, two zero bytes, the entries (R204). -/
def reportBytes (fs : List FailEnt) : List Byte := leBytes 2 fs.length ++ leBytes 2 0 ++ fs.flatMap fun f => leBytes 4 f.word
/-- The entries of a report that a station sends. -/
def reportEntries (dst : Nat) (p : List Byte) : List FailEnt :=
  (List.range (fieldAt p 0 2)).map fun i =>
    let v := fieldAt p (4 + 4 * i) 4
    ⟨bitsN v 0 8, bitsN v 8 6, bitsN v 14 10, bitsN v 24 6, dst⟩

/-- A note in a swell: its 8 B descriptor and its data padded to 128 B (R208). What the descriptor says is given, its
layout is not (log 34). -/
def NoteMsg.wire (n : NoteMsg) : List Byte :=
  let what := match n.reply with | none => n.dest | some r => r
  leBytes 8 (Config.noteDescr what n.tile n.role n.epoch n.data.length n.reply.isSome) ++ n.data ++ List.replicate (128 - n.data.length) 0
/-- The payload of a note swell. -/
def noteBytes (ns : List NoteMsg) : List Byte := ns.flatMap NoteMsg.wire
/-- Its poison marks: the units that poisoned notes touch. -/
def noteMarks (ns : List NoteMsg) : List Bool :=
  (List.range ((136 * ns.length + 31) / 32)).map fun u =>
    (List.range ns.length).any fun i => (match ns[i]? with | some n => n.poison | none => false) && decide (136 * i < 32 * u + 32) && decide (32 * u < 136 * i + 136)

end Sys2Proof.Machine
end

