-- ==== Sys2Proof/Machine/Tide.lean ====
section
/-! DEFINITION. The tide counter, regions, tide tables and the swells of the table ticks and of slack
water's report, resolve and makeup ticks (08_tide_schedule.md, 09_harene_crossbar.md). -/
namespace Sys2Proof.Machine

def qs : List Nat := List.range 41
/-- Act on every station. -/
def State.mapStns (s : State) (f : Nat → Stn → Stn) : State := qs.foldl (fun s q => s.setStn q (f q (s.stn q))) s

/-! ### Stations that take part -/

/-- Whether a station's die is in DIE reset. -/
def State.inReset (s : State) (q : Nat) : Bool :=
  if q < 24 then (s.rd GLB_DIERST_HDL).testBit q else if q < 40 then (s.rd GLB_DIERST_SHG).testBit (q - 24) else false
/-- A station known to be absent: in DIE reset, or not synchronised since (R484). -/
def State.absent (s : State) (q : Nat) : Bool := q != 40 && (s.inReset q || !s.on STN_TIDE_SYNCED q)
/-- A station's ring sets drop light: it is out of reset, its serializers hold lock and the module is not in safe state
(R217). -/
def State.listens (s : State) (q : Nat) : Bool := (s.stn q).up && !s.on BWT_STATUS_SAFE

/-! ### The counters (R189 to R193) -/

/-- What a tide cycle leaves behind at its end: reports, kept swells, beacons and spent arms. -/
def Stn.newCycle (cycle : Nat) (x : Stn) : Stn :=
  { x with fails := [], report := [], told := 0, got := [], kept := [], noReport := false, beacon := none, badCopies := 0,
           tx := x.tx.filter fun a => decide (cycle ≤ a.tick / 1024),
           rx := x.rx.filter fun a => decide (cycle ≤ a.tick / 1024) }

/-- Key of the Harbour die's own region copy (R190, R435). -/
def hrbRegion : Nat := 96
/-- The Harbour die's region steps with the reference edge; at tick 0 it loads the beacon, which it takes internally
(R191, R209). -/
def State.stepHarbour (s : State) : State :=
  let r := s.region hrbRegion
  if s.idle then s
  else match s.tk, r.beacon with
    | 0, some v => s.setRegion hrbRegion { r with tick := v, synced := true, beacon := none }
    | _, _ => if r.synced then s.setRegion hrbRegion { r with tick := r.tick + 1 } else s

/-- REFERENCE_TICK: the wall count rises; the tide counter rises except inside an inserted idle cycle.
The first edge after alignment begins tick 0 of the first cycle with both counts at 0. -/
def execReferenceTick (s : State) : Res :=
  if !s.tide.aligned then .next s
  else if !s.tide.started then .next { s with tide := { s.tide with started := true } }
  else
    let w := s.wall + 1
    let edge := w % 1024 == 0
    let s := s.wr TID_WALL_TICKS 0 w
    let s := if edge then (s.wr TID_STATUS_IDLE_NOW 0 (s.rd TID_STATUS_IDLE_NEXT)).wr TID_STATUS_IDLE_NEXT 0 0 else s
    let s := (if s.idle then s else s.wr TID_COUNTER_TICKS 0 (s.ticks + 1)).stepHarbour
    if edge then
      let c := s.ticks / 1024
      let age := fun x : Smp => if x.tree.isEmpty && x.ctxs.isEmpty then x else { x with cycles := x.cycles + 1 }
      .next { s.mapStns (fun _ x => x.newCycle (if s.idle then c + 1 else c)) with
        air := [], tide := { s.tide with assign := [] },
        smps := if s.idle then s.smps else s.smps.map fun e => (e.1, age e.2) }
    else .next s

/-- At the sender's tick edge its finished transmit slots record (R143): OK in cycle 0 of T + 1, MISSED
for a null swell, and the completion of a makeup in the tick after it. -/
def State.settleTx (s : State) (d region cyc : Nat) : State :=
  let r := s.region (d * 4 + region)
  let x := s.stn d
  let mine := fun a : TxArm => decide (a.tile / 64 = region) && decide (a.tick < r.tick)
  let s := s.setStn d { x with tx := x.tx.map fun a => if mine a then
    (match a.phase with | .sent _ => { a with phase := .sent true } | .failed _ => { a with phase := .failed true } | _ => a) else a }
  (x.tx.filter mine).foldl (fun s a =>
    let t := (s.tile (d * 256 + a.tile)).settle cyc
    let code := match t.active.find? (fun v => v.cmd.id == a.id) with | some v => v.code | none => cOK
    match a.phase with
    | .sent false => s.putTile d a.tile (t.finishMove cyc a.id code)
    | .failed false =>
      (match t.active.find? (fun v => v.cmd.id == a.id) with
        | some v => s.putTile d a.tile (t.record cyc v.cmd.k cMISSED)
        | none => s)
    | .made m => if m < r.tick % 1024 then s.putTile d a.tile (t.finishMove cyc a.id code) else s
    | _ => s) s

/-- REGION_TICK_EDGE: the region's copy rises by one outside idle cycles once the die is synchronised,
and its cycle number returns to 0 (R190, R192). A tick with every cycle stretched is reported (R437). -/
def execRegionTickEdge (die : Fin 24) (region : Fin 4) (cyc : Nat) (s : State) : Res :=
  let k := die.val * 4 + region.val
  let r := s.region k
  let full := decide (0 < r.stretched) && decide (cyc - r.tick0 ≤ r.stretched)
  let s := (List.range 64).foldl (fun s i => s.onTileNow die.val (region.val * 64 + i) (Tile.tickOver r.tick cyc)) s
  let s := s.setRegion k { r with tick := if s.idle || !r.synced then r.tick else r.tick + 1, tick0 := cyc, stretched := 0 }
  let s := if full then (s.bump HDL_CLK_FULL_TICKS k 1).fault 0x0B die.val region.val else s
  .next (if s.idle then s else s.settleTx die.val region.val cyc)

/-- BEACON_LOAD: at its tick edge for tick 0 a region loads the beacon value; a difference is a tide
slip, SEVERE while a job runs on the die, else NOTE. The first load since reset is none. -/
def execBeaconLoad (die : Fin 24) (region : Fin 4) (s : State) : Res :=
  let k := die.val * 4 + region.val
  let r := s.region k
  match r.beacon with
  | none => .next s
  | some v =>
    if s.tk ≠ 0 ∨ s.idle then .next s else
    let slip := r.synced && r.tick != v
    let s := s.setRegion k { r with tick := v, synced := true, beacon := none }
    let s := if slip then s.raise ⟨0x09, die.val, region.val, some (if (s.die die.val).running then 2 else 0), 0, 0⟩ else s
    .next (if (List.range 4).all fun g => (s.region (die.val * 4 + g)).synced then s.wr STN_TIDE_SYNCED die.val 1 else s)

/-- DROOP_STRETCH: a region cycle that begins under droop lasts 1.5 periods (R436). -/
def execDroopStretch (die : Fin 24) (region : Fin 4) (s : State) : Res :=
  let k := die.val * 4 + region.val
  let r := s.region k
  .next ((s.setRegion k { r with stretched := r.stretched + 1 }).bump HDL_CLK_STRETCHES k 1)

/-! ### Optical arms (R143 to R145, R202) -/

/-- The buffer that will be active after an announced swap. -/
def State.nextBuf (s : State) (q : Nat) : Mem := if (s.stn q).hasActive then s.otherBuf q else (s.stn q).bufA
/-- The buffer that governs tick `T`, as far as this cycle's beacon has told. -/
def State.bufFor (s : State) (q T now : Nat) : Mem :=
  if now / 1024 < T / 1024 ∧ (s.stn q).swapAnn then s.nextBuf q else if (s.stn q).hasActive then s.activeBuf q else []
def State.otxaTable (s : State) (q T now wg tile : Nat) : Bool :=
  let e := txEnt (txWord (s.bufFor q T now) (T % 1024) wg)
  decide (T % 1024 < 1008) && e.valid && e.srck == 0 && e.src == tile
def State.orxaTable (s : State) (q T now dp tile : Nat) : Bool :=
  let e := rxEnt (rxWord (s.bufFor q T now) (T % 1024) dp)
  decide (T % 1024 < 1008) && e.valid && e.dkind == 0 && e.dtile == tile

/-- An arm or a note ends at its start with a code; a local range at fault is logged (R69, R145). -/
def State.armStop (s : State) (pt : At) (m : MoveCmd) (code : Nat) : State :=
  if code = cADDR_FAULT && !m.localOk then s.endFault pt m (outAddr m.la.toNat) else s.endAt pt m code

def startOtxa (pt : At) (m : MoveCmd) (s : State) : State :=
  let d := pt.die.val
  let t := pt.tile.val
  let T := m.rc.toNat
  let wg := m.osfAt 39 6
  let now := s.tick pt
  let x := s.stn d
  let deferred := decide (now / 1024 < T / 1024) && x.beacon.isNone
  let code := armCode [(cPERM, !(s.die d).running || (!deferred && !s.otxaTable d T now wg t)),
    (cUNSUPPORTED, m.len != s.payUnits), (cCAPACITY, decide (now + 16 < T) || x.tx.any fun a => a.tick == T && a.wg == wg),
    (cTIMEOUT, decide (T ≤ now + 1)), (cADDR_FAULT, !m.localOk)]
  if code ≠ cOK then s.armStop pt m code
  else
    let ti := (s.tile (tileKey pt.die pt.tile)).settle pt.cyc
    let bad := ti.badUnits m.la32 m.bytes
    let (ti, data, p) := ti.readLocal m
    let s := s.putTile d t (ti.activate pt.cyc m (if p then cPOISON else cOK) 1 data p)
    s.setStn d { x with tx := x.tx ++ [⟨T, wg, t, m.id, m.la32, pt.cyc, data, bad, deferred, .armed⟩] }

def startOrxa (pt : At) (m : MoveCmd) (s : State) : State :=
  let d := pt.die.val
  let t := pt.tile.val
  let T := m.rc.toNat
  let dp := m.osfAt 39 6
  let now := s.tick pt
  let x := s.stn d
  let deferred := decide (now / 1024 < T / 1024) && x.beacon.isNone
  let code := armCode [(cPERM, !(s.die d).running || (!deferred && !s.orxaTable d T now dp t)),
    (cUNSUPPORTED, m.len != s.payUnits), (cCAPACITY, decide (now + 16 < T) || x.rx.any fun a => a.tick == T && a.dp == dp),
    (cTIMEOUT, decide (T ≤ now)), (cADDR_FAULT, !m.localOk)]
  if code ≠ cOK then s.armStop pt m code
  else
    let s := s.onTile pt fun ti => ti.activate pt.cyc m cOK 1 [] false
    s.setStn d { x with rx := x.rx ++ [⟨T, dp, t, m.id, m.la32, deferred, .armed⟩] }

/-- A waiting arm's command completes. -/
def State.finishArm (s : State) (d tile id code : Nat) : State :=
  s.onTileNow d tile fun t => t.finishMove t.now id code
/-- A waiting arm's counter sets MISS. -/
def State.missArm (s : State) (d tile id : Nat) : State :=
  s.onTileNow d tile fun t => match t.active.find? (fun v => v.cmd.id == id) with
    | some v => t.record t.now v.cmd.k cMISSED
    | none => t

/-- The deferred table checks when the beacon arrives: an arm that fails records PERM. -/
def State.checkDeferred (s : State) (q now : Nat) : State :=
  let x := s.stn q
  let badT := x.tx.filter fun a => a.deferred && !s.otxaTable q a.tick now a.wg a.tile
  let badR := x.rx.filter fun a => a.deferred && !s.orxaTable q a.tick now a.dp a.tile
  let s := s.setStn q { x with tx := (x.tx.filter fun a => !badT.contains a).map fun a => { a with deferred := false },
                                rx := (x.rx.filter fun a => !badR.contains a).map fun a => { a with deferred := false } }
  let s := badT.foldl (fun s a => s.finishArm q a.tile a.id cPERM) s
  badR.foldl (fun s a => s.finishArm q a.tile a.id cPERM) s

/-! ### Sending (R195, R198, R226) -/

/-- TX_CUTOFF: at cycle 0 of tick T − 1 the port marks a handover that is not complete MISSED; one
handed over in eight cycles (six in Calm) is ready. -/
def execTxCutoff (die : Fin 24) (s : State) : Res :=
  let d := die.val
  let x := s.stn d
  let n := if s.calm then 6 else 8
  .next (s.setStn d { x with tx := x.tx.map fun a =>
    if a.tick == s.ticks + 1 && a.phase == .armed then
      { a with phase := if a.start + n ≤ (s.region (d * 4 + a.tile / 64)).tick0 then .ready else .missed }
    else a })

/-- The payload a Harbour result slot sends: its stream's latest closed result, filled with zeros, or nothing
(R315). -/
def State.resultPayload (s : State) (tag : Nat) : List Byte :=
  let r := (smGet (fun _ => Smp.reset) s.smps (tag % 64)).result
  if r.isEmpty then [] else r ++ List.replicate (32 * s.payUnits - r.length) 0

/-- A Squall drill's choice for one packet or swell: 1 drop, 2 corrupt, 3 reorder, tested in that order against the next
output of the Philox stream keyed by SEED, which no test of the Harene layer reorders; and the bit to invert. Which
bits of the output each test takes is left open (log 36). -/
def State.squallDraw (s : State) : State × Nat × Nat :=
  let n := s.fab.draws
  let seed := s.rd FAB_SQUALL_SEED_SEED
  let ws := philox (n % 2 ^ 32) (n / 2 ^ 32) 0 0 (seed % 2 ^ 32) (seed / 2 ^ 32)
  let s := { s with fab := { s.fab with draws := n + 1 } }
  let hit (i : Nat) (f : Fld) : Bool := decide (Config.squallPick ws i % 65536 < s.rd f)
  if hit 0 FAB_SQUALL_RATE_DROP then (s.bump FAB_SQUALL_CNT_DROPPED 0 1, 1, 0)
  else if hit 1 FAB_SQUALL_RATE_CORRUPT then (s.bump FAB_SQUALL_CNT_CORRUPTED 0 1, 2, Config.squallPick ws 3)
  else if hit 2 FAB_SQUALL_RATE_REORDER && s.rd FAB_SQUALL_CTRL_TARGET != 2 then
    (s.bump FAB_SQUALL_CNT_REORDERED 0 1, 3, 0)
  else (s, 0, 0)

/-- A swell goes out on a waveguide; on one without light it is lost (R233, R246). A drill on the layer drops data
and memory-channel swells, or corrupts them so that their receiver fails them, which Table 8-7 treats alike
(R343). -/
def State.launch (s : State) (q w : Nat) (x : Swell) : State :=
  if s.on FAB_SQUALL_CTRL_EN && s.rd FAB_SQUALL_CTRL_TARGET == 2 && (x.kind == 1 || x.kind == 7) then
    let (s, c, _) := s.squallDraw
    if c = 0 && s.wgLit q w then { s with air := s.air ++ [x] } else s
  else if s.wgLit q w then { s with air := s.air ++ [x] } else s

/-- A running Squall drill ends (R344). -/
def State.endSquall (s : State) : State :=
  if s.on FAB_SQUALL_CTRL_EN then (s.wr FAB_SQUALL_CTRL_EN 0 0).stlDrill 2 else s

/-- One slot of a port in this tick. -/
def State.sendSlot (s : State) (q w : Nat) : State :=
  let t := s.tk
  let e := s.txAt q t w
  if !e.valid then s else
  let x := s.stn q
  let mk (kind : Nat) (missed : Bool) (bad : List Bool) (payload : List Byte) : Swell :=
    ⟨kind, missed, stnId q, w, e.dst, e.dport, t, e.tag, bad, payload⟩
  if e.srck = 1 then
    match stnQ e.dst with
    | none => s
    | some dq =>
      let (s, p, b) := s.takeMem q dq
      let sw := if p.isEmpty then mk 0 false [] [] else mk 7 false b p
      let y := s.stn q
      (s.setStn q { y with kept := if p.isEmpty then y.kept else y.kept ++ [sw] }).launch q w sw
  else if q = 40 then
    let p := s.resultPayload e.tag
    let sw := if p.isEmpty then mk 0 false [] [] else mk 1 false [] p
    (s.setStn q { x with kept := if p.isEmpty then x.kept else x.kept ++ [sw] }).launch q w sw
  else
    let here := fun a : TxArm => a.tick == s.ticks && a.wg == w
    match x.tx.find? here with
    | none => s.launch q w (mk 0 false [] [])
    | some a =>
      let upd (p : ArmPhase) : Stn := { x with tx := x.tx.map fun b => if here b then { b with phase := p } else b }
      if a.phase = .ready then (s.setStn q (upd (.sent false))).launch q w (mk 1 false a.bad a.data)
      else
        let s := (s.setStn q (upd (.failed false))).launch q w (mk 2 true [] [])
        ((s.bump STN_TIDE_MISSED_TX q 1).bump HRN_BERR_MISSED_TX (wgBundle q w) 1).fault 0x0A q w

/-! ### Receiving (R203, R227) -/

/-- A swell fails at a drop port: it counts, enters the report, and sets MISS at the armed counter. -/
def State.failSlot (s : State) (q sstn swg t d : Nat) (fec : Bool) : State :=
  let s := if fec then (s.bump STN_TIDE_FEC_RX q 1).fault 0x10 (stnId q) (sstn * 256 + swg) else s
  let x := s.stn q
  let here := fun a : RxArm => a.tick % 1024 == t && a.dp == d && a.phase == .armed
  let s := s.setStn q { x with fails := x.fails ++ [⟨sstn, swg, t, d, stnId q⟩],
                                rx := x.rx.map fun a => if here a then { a with phase := .failed true } else a }
  (x.rx.filter here).foldl (fun s a => s.missArm q a.tile a.id) s

/-- A swell outside the table slots fails FEC at a drop port: a NOTE against its source (Table 9-5). -/
def State.fecEvent (s : State) (q src w : Nat) : State := s.fault 0x10 (stnId q) (stnId src * 256 + w)

/-- A swell of a slot of this station that no drop port has taken: its records name it, or it is addressed here. -/
def State.slotSwell (s : State) (q t : Nat) (x : Swell) : Bool :=
  [0, 1, 2, 7].contains x.kind && x.tick == t && (x.dst == stnId q || (List.range (wgCount q)).any fun d =>
    let e := s.rxAt q t d; e.valid && e.sstn == x.sstn && e.swg == x.swg)
/-- The records of the tick before this one in which nothing arrived fail as FEC failures (R203). -/
def State.noArrivals (s : State) (q t : Nat) : State :=
  let s := { s with air := s.air.filter fun x => !s.slotSwell q t x }
  (List.range (wgCount q)).foldl (fun s d =>
    let e := s.rxAt q t d
    if e.valid && !(s.stn q).got.contains (t, d) then
      let x := s.stn q
      (s.setStn q { x with got := x.got ++ [(t, d)] }).failSlot q e.sstn e.swg t d true
    else s) s

/-- TABLE_TICK: in a tick 0–1,007 a port sends what its VALID entries and its arms hold; slots of the
tick before in which nothing arrived have failed. -/
def execTableTick (q : Fin 41) (s : State) : Res :=
  if 1007 < s.tk ∨ s.idle ∨ !(s.stn q.val).up then .next s else
  let s := if s.tk = 0 || !s.listens q.val then s else s.noArrivals q.val (s.tk - 1)
  .next ((List.range (wgCount q.val)).foldl (fun s w => s.sendSlot q.val w) s)

/-- The swell on its way to a drop port of a station that listens, of some kinds: from the waveguide that the drop record
of its tick names (R217), or addressed to a port that has no VALID record then (R203). -/
def State.incoming (s : State) (q d : Nat) (kinds : List Nat) : Option Swell :=
  if !s.listens q then none else
  s.air.find? fun x => kinds.contains x.kind &&
    (let e := s.rxAt q x.tick d
     if e.valid then e.sstn == x.sstn && e.swg == x.swg else x.dst == stnId q && x.dport == d)

/-- A swell taken off the layer by a drop port in its slot. -/
def State.takeSwell (s : State) (q d : Nat) (x : Swell) : State :=
  let y := s.stn q
  { s.setStn q { y with got := if y.got.contains (x.tick, d) then y.got else y.got ++ [(x.tick, d)] } with
    air := s.air.eraseP (· == x) }

/-- Header check of a table slot in which a swell of tick `t` arrived (R227). -/
def State.headerOk (s : State) (q d t : Nat) (x : Swell) : Bool :=
  let e := s.rxAt q t d
  e.valid && x.expected [0, 1, 2, 7] e.sstn e.swg (stnId q) d t e.tag6
/-- A discarded swell: counted, and a SEVERE fault at the region collector (chip for others). -/
def State.discard (s : State) (q d : Nat) : State := (s.bump STN_HRN_HDR_BAD q 1).fault 0x08 (stnId q) d

/-- Decode, check and header comparison of a swell that was sent as one of some kinds to a drop port, then its delivery. -/
def State.receive (s : State) (q d : Nat) (kinds : List Nat) (rx : Rx) (f : Swell → State → State) : State :=
  match s.incoming q d kinds with
  | none => s
  | some x =>
    let s := s.takeSwell q d x
    let e := s.rxAt q x.tick d
    match rxSwell s.calm x (if s.pathBad ((stnQ x.sstn).getD 41) x.swg q then Rx.fec else rx) with
    | none => if e.valid then s.failSlot q e.sstn e.swg x.tick d true else s.fecEvent q ((stnQ x.sstn).getD 41) x.swg
    | some y => if s.headerOk q d x.tick y then f y s else s.discard q d

/-- The waiting arm of a slot. -/
def State.rxArm (s : State) (q t d : Nat) : Option RxArm :=
  (s.stn q).rx.find? fun a => a.tick % 1024 == t && a.dp == d && a.phase == .armed
def State.dropArm (s : State) (q : Nat) (a : RxArm) : State :=
  let x := s.stn q
  s.setStn q { x with rx := x.rx.filter (· != a) }

/-- A payload goes through the tile's inbound buffer to its armed range, and its counter records (R144, R229). -/
def State.landSwell (s : State) (q : Nat) (a : RxArm) (cyc : Nat) (payload : List Byte) (poison : Bool) : State :=
  let t := (s.tile (q * 256 + a.tile)).settle cyc
  (s.putTile q a.tile (t.inbound 10 a.addr payload (.cmd a.id (if poison then cPOISON else cOK)))).dropArm q a

/-- Intake records of a payload (R308): the records, and whether a malformed one ended them. -/
def parseRecs : Nat → Nat → Nat → List Byte → List Bool → List SRec × Bool
  | 0, _, _, _, _ => ([], false)
  | f + 1, sstn, off, bs, bad =>
    if bs.length < 16 then ([], false) else
    let h := leNat (bs.take 16)
    let kind := h % 16
    if kind = 0 then ([], false) else
    let count := bitsN h 64 10
    let node := bitsN h 32 8
    let bytes := 8 * (if kind = 2 then node else count)
    let size := 16 * ((bytes + 15) / 16)
    let reserved := bitsN h 4 4 != 0 || bitsN h 74 6 != 0 || bitsN h 96 32 != 0 || bitsN h 80 8 != 0 ||
      (if kind = 1 then bitsN h 89 7 != 0 else bitsN h 40 24 != 0 || count != 0 || bitsN h 88 8 != 0)
    if 2 < kind || reserved || bs.length < 16 + size then ([], true)
    else
      let units := (List.range ((off + 16 + size + 31) / 32 - off / 32)).map (off / 32 + ·)
      let r : SRec := ⟨kind, bitsN h 8 8, bitsN h 16 16, node, bitsN h 40 8, bitsN h 48 8, bitsN h 56 8, h.testBit 88,
        (bs.drop 16).take bytes, sstn, units.any fun u => bad.getD u false⟩
      let (rs, e) := parseRecs f sstn (off + 16 + size) (bs.drop (16 + size)) bad
      (r :: rs, e)

/-- A data swell for the sampler intake (R307, R308). -/
def State.takeIntake (s : State) (x : Swell) : State :=
  let (rs, e) := parseRecs 64 x.sstn 0 x.payload x.bad
  let s := { s with intake := s.intake ++ rs }
  -- A malformed record is a NOTE at the Harbour chip collector; Table 20-2 gives it no kind (log 26).
  if e then (s.bump SMP_STAT_BADREC 0 1).raise ⟨0, 0x30, 0, some 0, 0, 0⟩ else s

/-- A table slot's swell that passed its checks takes its effect by its kind: data and memory-channel swells go to the armed
tile range, the sampler intake or the station's memory channel; a null swell sets MISS and enters the report; an idle one
makes an armed receiver record TIMEOUT (R203, R226). -/
def State.takeSlot (s : State) (q d cyc : Nat) (x : Swell) : State :=
  let e := s.rxAt q x.tick d
  let arm := s.rxArm q x.tick d
  match x.kind with
  | 2 => s.failSlot q x.sstn x.swg x.tick d false
  | 0 => match arm with
    | none => s
    | some a => (s.dropArm q a).finishArm q a.tile a.id cTIMEOUT
  | _ =>
    if e.dkind = 1 then (match stnQ x.sstn with | some src => s.takeMessages q src x.payload x.bad | none => s)
    else if q = 40 then s.takeIntake x
    else match arm with
      | none => s.discard q d
      | some a => s.landSwell q a cyc x.payload (x.bad.any id)

/-- DATA_SWELL: a data or memory-channel swell is decoded, checked and delivered. -/
def execDataSwell (q : Fin 41) (dport : Fin 60) (cyc : Nat) (rx : Rx) (s : State) : Res :=
  .next (s.receive q.val dport.val [1, 7] rx fun x s => s.takeSlot q.val dport.val cyc x)

/-- NULL_SWELL: a null swell with MISSED sets MISS at the receiving counter and enters the report. -/
def execNullSwell (q : Fin 41) (dport : Fin 60) (rx : Rx) (s : State) : Res :=
  .next (s.receive q.val dport.val [2] rx fun x s => s.takeSlot q.val dport.val 0 x)

/-- IDLE_SWELL: an armed receiver records TIMEOUT and nothing is written. -/
def execIdleSwell (q : Fin 41) (dport : Fin 60) (rx : Rx) (s : State) : Res :=
  .next (s.receive q.val dport.val [0] rx fun x s => s.takeSlot q.val dport.val 0 x)

/-! ### Reports and makeups (R204 to R207) -/

/-- R205's order: TICK, then SSTN, then SWG. -/
def FailEnt.key (f : FailEnt) : Nat := (f.tick * 256 + f.sstn) * 64 + f.swg
def failInsert (f : FailEnt) : List FailEnt → List FailEnt
  | [] => [f]
  | g :: gs => if f.key < g.key then f :: g :: gs else g :: failInsert f gs
def failSort (fs : List FailEnt) : List FailEnt := fs.foldr failInsert []

/-- Waveguide index j of a fixed slack-water swell (Table 9-4). -/
def slackWg (src dst : Nat) : Nat := (dst + 40 - src) % 41
/-- The slack-water tick in which a station reports to another, the waveguide and the drop port (Table 9-4). -/
def reportTick (src dst : Nat) : Nat := if src < 24 then 1009 else 1010 + slackWg src dst / 20
def reportWg (src dst : Nat) : Nat := if src < 24 then slackWg src dst else slackWg src dst % 20
def reportPort (src : Nat) : Nat := if src < 24 then src else src - 24
/-- A slack-water swell, with a zero TAG (R225). -/
def slackSwell (kind src w dst port tick : Nat) (bad : List Bool) (payload : List Byte) : Swell :=
  ⟨kind, false, stnId src, w, stnId dst, port, tick, 0, bad, payload⟩

/-- A station has not received a report swell: it takes no part in the cycle's makeups (R207). -/
def State.lostReport (s : State) (q : Nat) : State :=
  let x := s.stn q
  if x.noReport then s else ((s.setStn q { x with noReport := true }).bump STN_HRN_NO_REPORT q 1).fault 0x14 (stnId q) 0

/-- The Harbour die counts a report's failed slots by bundle (R236). -/
def State.countFailed (s : State) (fs : List FailEnt) : State :=
  fs.foldl (fun s f => match stnQ f.sstn with | some fq => s.bump HRN_BERR_FAILED (wgBundle fq f.swg) 1 | none => s) s

/-- The report of a station: the failed slots of this cycle but those of absent stations, up to 255, or 191 in Calm
(R204, R484). -/
def State.reportOf (s : State) (q : Nat) : List FailEnt :=
  (failSort ((s.stn q).fails.filter fun f => match stnQ f.sstn with | some p => !s.absent p | none => true)).take (if s.calm then 191 else 255)

/-- REPORT_TICK: in its report ticks a station sends its report to every other station that is not absent. -/
def execReportTick (q : Fin 41) (s : State) : Res :=
  let src := q.val
  let t := s.tk
  let x := s.stn src
  let turn := t - 1009
  if t < 1009 ∨ 1011 < t ∨ (src < 24 ∧ t ≠ 1009) ∨ (24 ≤ src ∧ t = 1009) ∨ s.idle ∨ !s.listens src ∨ x.told.testBit turn then .next s else
  let list := if x.told = 0 then s.reportOf src else x.report
  let s := s.setStn src { x with report := list, told := x.told + 2 ^ turn }
  let s := if src = 40 ∧ x.told = 0 then s.countFailed list else s
  .next ((qs.filter fun d => d != src && !s.absent d && reportTick src d == t).foldl (fun s d =>
    let w := reportWg src d
    s.launch src w (slackSwell 4 src w d (reportPort src) t [] (reportBytes list))) s)

/-- A report swell reaches a station; the Harbour die counts its entries. -/
def State.takeReport (s : State) (q src : Nat) (x : Swell) (rx : Rx) : State :=
  let s := { s with air := s.air.eraseP (· == x) }
  match rxSwell s.calm x (if s.pathBad src x.swg q then Rx.fec else rx) with
  | none => (s.fecEvent q src x.swg).lostReport q
  | some y =>
    if y.expected [4] x.sstn x.swg x.dst x.dport x.tick 0 then (if q = 40 then s.countFailed (reportEntries x.sstn y.payload) else s)
    else (s.discard q x.dport).lostReport q

/-- REPORT_SWELL: a station receives another's report in its slot. -/
def execReportSwell (q src : Fin 41) (rx : Rx) (s : State) : Res :=
  if s.idle || !s.listens q.val then .next s else
  match s.air.find? fun x => x.kind == 4 && x.sstn == stnId src.val && x.dst == stnId q.val && decide (x.tick ≤ s.tk) with
  | none => .next s
  | some x => .next (s.takeReport q.val src.val x rx)

/-- One makeup tick of R205's assignment: what is assigned, and what stays pending. -/
def assignTick (m : Nat) : List FailEnt → List (Nat × Nat) → List (Nat × Nat) → List (Nat × FailEnt) × List FailEnt
  | [], _, _ => ([], [])
  | f :: fs, wg, pt =>
    if !wg.contains (f.sstn, f.swg) && !pt.contains (f.dst, f.dport) then
      let (as, ps) := assignTick m fs ((f.sstn, f.swg) :: wg) ((f.dst, f.dport) :: pt)
      ((m, f) :: as, ps)
    else
      let (as, ps) := assignTick m fs wg pt
      (as, f :: ps)
def assignAll : Nat → Nat → List FailEnt → List (Nat × FailEnt)
  | 0, _, _ => []
  | n + 1, m, fs =>
    let (as, ps) := assignTick m fs [] []
    as ++ assignAll n (m + 1) ps

/-- A station expects another's report and none was sent to it (R484). -/
def State.unreported (s : State) (q src : Nat) : Bool :=
  src != q && !s.absent src && (!(s.stn src).told.testBit (reportTick src q - 1009) || !s.wgLit src (reportWg src q))
/-- The reports that no REPORT_SWELL has taken arrive (log 97); a station that misses one takes no part. -/
def State.settleReports (s : State) : State :=
  let s := (s.air.filter fun x => x.kind == 4).foldl (fun s x => match stnQ x.dst, stnQ x.sstn with
    | some q, some src => if s.listens q then s.takeReport q src x .good else { s with air := s.air.eraseP (· == x) }
    | _, _ => s) s
  qs.foldl (fun s q => if s.listens q && !s.absent q && qs.any (s.unreported q) then s.lostReport q else s) s

/-- RESOLVE_TICK: every station computes the same assignment from the full set of reports. -/
def execResolveTick (s : State) : Res :=
  if s.tk ≠ 1012 ∨ s.idle then .next s else
  let s := s.settleReports
  let all := failSort (qs.flatMap fun q => (s.stn q).report)
  .next { s with tide := { s.tide with assign := assignAll 5 1013 all } }

/-- One makeup of a port: the slot's payload read again from its original source (R206), with the header of its transmit
entry (R226). -/
def State.sendMakeup (s : State) (q : Nat) (f : FailEnt) : State :=
  let x := s.stn q
  let e := s.txAt q f.tick f.swg
  if !e.valid then s else
  let mk (kind : Nat) (payload : List Byte) (bad : List Bool) : Swell :=
    ⟨kind, false, stnId q, f.swg, e.dst, e.dport, f.tick, e.tag, bad, payload⟩
  if x.noReport then s.launch q f.swg (mk 0 [] []) else
  match x.tx.find? fun a => a.tick % 1024 == f.tick && a.wg == f.swg with
  | some a =>
    let t := s.tile (q * 256 + a.tile)
    let now := t.bytes a.addr a.data.length
    let data := openUnits s.free (a.data.length / 32) a.data now
    let s := { s with free := s.free + 1 }.launch q f.swg (mk 3 data (t.badUnits a.addr a.data.length))
    let y := s.stn q
    s.setStn q { y with tx := y.tx.map fun b => if b == a then { b with phase := .made s.tk } else b }
  | none =>
    match x.kept.find? fun k => k.tick == f.tick && k.swg == f.swg with
    | some k => s.launch q f.swg (mk 3 k.payload k.bad)
    | none => s.launch q f.swg (mk 0 [] [])

/-- The requests of a request swell that has failed in delivery and in makeup end with TIMEOUT at tick 1,017 (R265). -/
def State.lostRequests (s : State) (q : Nat) (k : Swell) : State :=
  let (ms, _) := parseGo 64 k.payload k.bad
  ms.foldl (fun s m => match stnQ k.dst with
    | some dq => { s with mreqs := s.mreqs.map fun r : MemReq =>
        if r.q == q && 24 + r.k == dq && r.rid == m.rid && (m.typ == mRD || m.typ == mWR || m.typ == mKVCMD) then { r with doomed := true } else r }
    | none => s) s
/-- The swell that a port keeps of a slot. -/
def State.keptSwell (s : State) (q swg t : Nat) : Option Swell := (s.stn q).kept.find? fun k => k.swg == swg && k.tick == t

/-- The makeups assigned that a station takes part in. -/
def State.madeUp (s : State) (q : Nat) : List FailEnt := if (s.stn q).noReport then [] else s.tide.assign.map (·.2)
/-- Two entries name one slot of a receiver. -/
def FailEnt.sameSlot (f g : FailEnt) : Bool := f.sstn == g.sstn && f.swg == g.swg && f.tick == g.tick && f.dst == g.dst

/-- Failures a station knows of without a makeup tick complete with TIMEOUT at the end of tick 1,017: slots it received
(its own list), slots it marked MISSED, and the slots of its memory channel or sampler that a report names. -/
def State.giveUp (s : State) (q : Nat) : State :=
  let x := s.stn q
  let given := s.madeUp q
  let sentUp (swg t : Nat) : Bool := given.any fun f => f.sstn == stnId q && f.swg == swg && f.tick == t
  let lostIn := x.fails.filter fun f => !(given.any fun g => g.sameSlot f)
  let lostR := x.rx.filter fun a => lostIn.any fun f => f.dport == a.dp && f.tick == a.tick % 1024
  let lostT := x.tx.filter fun a => (match a.phase with | .failed _ => true | _ => false) && !sentUp a.wg (a.tick % 1024)
  let told := if x.noReport then [] else (qs.flatMap fun p => (s.stn p).report).filter fun f => f.sstn == stnId q
  let lostK := x.kept.filter fun k => (told.any fun f => f.swg == k.swg && f.tick == k.tick) && !sentUp k.swg k.tick
  let s := s.setStn q { x with tx := x.tx.filter fun a => !lostT.contains a, rx := x.rx.filter fun a => !lostR.contains a }
  let s := s.bump STN_TIDE_MAKEUP_TO q (lostIn.length + lostT.length + lostK.length)
  let s := lostT.foldl (fun s a => s.finishArm q a.tile a.id cTIMEOUT) s
  let s := lostR.foldl (fun s a => s.finishArm q a.tile a.id cTIMEOUT) s
  let failed := (qs.flatMap fun p => (s.stn p).fails).filter fun f => f.sstn == stnId q
  (x.kept.filter fun k => k.kind == 7 && (failed.any fun f => f.swg == k.swg && f.tick == k.tick) && !sentUp k.swg k.tick).foldl
    (fun s k => s.lostRequests q k) s

/-- A makeup tick of a port: it resends the payload of each slot assigned to it; at 1,017 the failures left without a
makeup complete with TIMEOUT. -/
def State.makeupTick (s : State) (q : Nat) : State :=
  let mine := s.tide.assign.filter fun a => a.1 == s.tk && a.2.sstn == stnId q
  let s := mine.foldl (fun s a => s.sendMakeup q a.2) s
  if s.tk = 1017 then s.giveUp q else s

/-- A makeup fails at its receiver: the slot ends with TIMEOUT, and so do the requests it carried. -/
def State.endMakeup (s : State) (q : Nat) (f : FailEnt) : State :=
  let s := s.bump STN_TIDE_MAKEUP_TO q 1
  let s := match (s.stn q).rx.find? fun a => a.tick % 1024 == f.tick && a.dp == f.dport with
    | some a => (s.dropArm q a).finishArm q a.tile a.id cTIMEOUT
    | none => s
  match stnQ f.sstn with
  | some p => match s.keptSwell p f.swg f.tick with
    | some k => s.lostRequests p k
    | none => s
  | none => s

/-- MAKEUP_SWELL: a makeup swell writes the original slot's payload and adds one to the receiving
counter. One that fails again, or an idle swell in its place, ends the slot with TIMEOUT. -/
def execMakeupSwell (q : Fin 41) (dport : Fin 60) (cyc : Nat) (rx : Rx) (s : State) : Res :=
  let qv := q.val
  let d := dport.val
  if s.idle || !s.listens qv then .next s else
  match s.tide.assign.find? fun a => a.2.dst == stnId qv && a.2.dport == d && decide (a.1 ≤ s.tk) && !(s.stn qv).got.contains (a.1, d) with
  | none => .next s
  | some (m, f) =>
    match s.air.find? fun x => (x.kind == 3 || x.kind == 0) && x.sstn == f.sstn && x.swg == f.swg && x.tick == f.tick with
    | none => .next s
    | some x =>
      let y := s.stn qv
      let s := { s.setStn qv { y with got := y.got ++ [(m, d)] } with air := s.air.eraseP (· == x) }
      if y.noReport then .next s else
      match rxSwell s.calm x (if s.pathBad ((stnQ f.sstn).getD 41) f.swg qv then Rx.fec else rx) with
      | none => .next ((s.fault 0x10 (stnId qv) (x.sstn * 256 + x.swg)).endMakeup qv f)
      | some z =>
        let e := s.rxAt qv f.tick d
        if !z.expected [0, 3] e.sstn e.swg (stnId qv) d f.tick e.tag6 then .next ((s.discard qv d).endMakeup qv f)
        else if z.kind = 0 then .next (s.endMakeup qv f)
        else if e.dkind = 1 then .next (match stnQ z.sstn with | some src => s.takeMessages qv src z.payload z.bad | none => s)
        else if qv = 40 then .next (s.takeIntake z)
        else match (s.stn qv).rx.find? fun a => a.tick % 1024 == f.tick && a.dp == d with
          | some a => .next (s.landSwell qv a cyc z.payload (z.bad.any id))
          | none => .next (s.discard qv d)

/-- Makeups that never arrived end their slots with TIMEOUT (R206). -/
def State.settleMakeups (s : State) : State :=
  s.tide.assign.foldl (fun s a => match stnQ a.2.dst with
    | some q =>
      let y := s.stn q
      if y.noReport || !s.listens q || y.got.contains (a.1, a.2.dport) then s
      else (s.setStn q { y with got := y.got ++ [(a.1, a.2.dport)] }).endMakeup q a.2
    | none => s) s

/-! ### Tide table loads (R200) -/

/-- A swap requested or latched names the station. -/
def State.swapNames (s : State) (q : Nat) : Bool :=
  (s.tide.swapReqs.any fun r => r.stations.contains q) ||
    (match s.tide.swapLatched with | some r => r.req.stations.contains q | none => false)

/-- TIDE_TABLE_LOAD: a TID_LOAD GO copies a 1 MiB image from HBM into an inactive buffer, or is refused. -/
def execTideTableLoad (station : BitVec 8) (buf : Bool) (addr : BitVec 41) (s : State) : Res :=
  if s.on TID_LOAD_BUSY then .next s else
  let s := ((s.wr TID_LOAD_STATION 0 station.toNat).flag TID_LOAD_BUF 0 buf).wr TID_LOAD_ADDR_ADDR 0 addr.toNat
  match stnQ station.toNat with
  | none => .next (s.wr TID_LOAD_CODE 0 cUNSUPPORTED)
  | some q =>
    let active := (s.stn q).hasActive && (s.on STN_TIDE_ACTIVE q == buf)
    let hole := !paOk addr.toNat 0x100000
    let code := armCode [(cPERM, active || s.swapNames q), (cADDR_FAULT, addr.toNat % 4096 != 0 || hole)]
    if code ≠ cOK then
      .next ((if code = cADDR_FAULT && hole then s.paFault 0x30 0 addr.toNat else s).wr TID_LOAD_CODE 0 code)
    else
      let (s, data, c) := s.hrbRead addr.toNat 0x100000
      let img := smRun (fun _ => 0) 0 data
      let x := s.stn q
      let s := s.setStn q (if buf then { x with bufB := img } else { x with bufA := img })
      let s := s.wr (if buf then STN_TIDE_VALID_B else STN_TIDE_VALID_A) q 0
      .next { s.wr TID_LOAD_BUSY 0 1 with tide := { s.tide with load := some (q, buf, c == cPOISON) } }

/-- Whether a transmit entry at a table offset breaks a check of R200. -/
def txBad (q t w v : Nat) : Bool :=
  if v = 0 then false
  else
    let e := txEnt v
    let reserved := bitsN v 25 7 != 0 || bitsN v 48 16 != 0 || 1 < e.srck
    1008 ≤ t || wgCount q ≤ w || !e.valid || reserved || (e.srck == 1 && e.src != 0) || (q == 40 && e.src != 0)
      || (match stnQ e.dst with | some dq => dq == q || wgCount dq ≤ e.dport | none => true)
def rxBad (q t d v : Nat) : Bool :=
  if v = 0 then false
  else
    let e := rxEnt v
    1008 ≤ t || wgCount q ≤ d || !e.valid || 1 < e.dkind || (e.dkind == 1 && e.dtile != 0) || (q == 40 && e.dtile != 0)
      || (match stnQ e.sstn with | some sq => sq == q || wgCount sq ≤ e.swg | none => true)

/-- Offset of the 4 B unit of a 64-bit transmit entry that fails: the upper one where only the upper half is at fault. -/
def txUnit (q t w v : Nat) : Nat := (t * 64 + w) * 2 + (if v % 2 ^ 32 = 0 || !txBad q t w (v % 2 ^ 48) then 1 else 0)

/-- First failing unit of the image checks (R200), in the order listed. -/
def tableCheck (q : Nat) (buf : Mem) : Option Nat :=
  if memNat buf 0xC0008 1 ≠ stnId q then some (0xC0008 / 4)
  else if memNat buf 0xC0010 4 ≠ crc32c (memBytes buf 0 0xC0000) then some (0xC0010 / 4)
  else
    let heads := buf.map fun e => if e.1 < 0x80000 then e.1 / 8 * 8 else e.1 / 4 * 4
    let bads := heads.filterMap fun a =>
      if a < 0x80000 then
        let v := memNat buf a 8
        if txBad q (a / 512) (a / 8 % 64) v then some (txUnit q (a / 512) (a / 8 % 64) v) else none
      else if a < 0xC0000 then
        if rxBad q ((a - 0x80000) / 256) ((a - 0x80000) / 4 % 64) (memNat buf a 4) then some (a / 4) else none
      else if a = 0xC0008 then (if 3 < memNat buf 0xC0009 1 || memNat buf 0xC000A 2 != 0 then some (a / 4) else none)
      else if a = 0xC000C then some (a / 4)
      else if 0xC0014 ≤ a then some (a / 4) else none
    match bads with
    | [] => none
    | b :: bs => some (bs.foldl min b)

/-- TIDE_TABLE_CHECK: after the copy the Harbour die checks the image and marks the buffer. -/
def execTideTableCheck (s : State) : Res :=
  match s.tide.load with
  | none => .next s
  | some (q, b, poison) =>
    let s := { s.wr TID_LOAD_BUSY 0 0 with tide := { s.tide with load := none } }
    if poison then .next (s.wr TID_LOAD_CODE 0 cPOISON)
    else match tableCheck q (if b then (s.stn q).bufB else (s.stn q).bufA) with
      | some u => .next ((s.wr TID_LOAD_CODE 0 cUNSUPPORTED).wr TID_LOAD_BAD_ENTRY 0 u)
      | none => .next ((s.wr TID_LOAD_CODE 0 cOK).wr (if b then STN_TIDE_VALID_B else STN_TIDE_VALID_A) q 1)

/-- Stations of a swap's bit fields. -/
def swapStations (hdl : Nat) (shg : Nat) (hrb : Bool) : List Nat :=
  ((List.range 24).filter hdl.testBit) ++ (((List.range 16).filter shg.testBit).map (24 + ·)) ++ (if hrb then [40] else [])

/-- SWAP_REQUEST: a TID_SWAP GO requests a swap, latched at the next tick 1,008 (R201). -/
def execSwapRequest (hdl : BitVec 24) (shg : BitVec 16) (hrb turn : Bool) (s : State) : Res :=
  let s := (((s.wr TID_SWAP_HDL 0 hdl.toNat).wr TID_SWAP_SHG 0 shg.toNat).flag TID_SWAP_HRB 0 hrb).flag TID_SWAP_TURN 0 turn
  .next { s with tide := { s.tide with swapReqs := s.tide.swapReqs ++ [⟨swapStations hdl.toNat shg.toNat hrb, turn, none⟩] } }

/-- MODULE_ROLE_REQUEST: a TID_MROLE_NEXT GO requests a module role change (R293). -/
def execModuleRoleRequest (mrole : BitVec 3) (fwd : BitVec 8) (s : State) : Res :=
  let s := (s.wr TID_MROLE_NEXT_MROLE 0 mrole.toNat).wr TID_MROLE_NEXT_FWD_RANK 0 fwd.toNat
  .next { s with tide := { s.tide with mroleReq := some (mrole.toNat, fwd.toNat) } }

end Sys2Proof.Machine
end

