-- ==== Sys2Proof/Machine/Host.lean ====
section
/-! DEFINITION. What the host-facing blocks share: ports and their MSI-X, the host log, low-power exits,
ownership and the firmware cores' states. -/
namespace Sys2Proof.Machine

/-! ### Ports (R374, R375) -/

def State.port (s : State) (p : Nat) : Port := smGet (fun _ => Port.reset) s.ports p
def State.setPort (s : State) (p : Nat) (x : Port) : State := { s with ports := smSet (fun _ => Port.reset) s.ports p x }

def bit256 (v : Nat) : BitVec 256 := BitVec.ofNat 256 (2 ^ v)

/-- Signal a vector on one port: sent while MSI-X is enabled and the vector unmasked, pended while only
masked, and otherwise neither. -/
def State.msix (s : State) (port vector : Nat) : State :=
  let p := s.port port
  if !p.enable || !p.busMaster || !s.on GLB_PORT_LINK_UP port then s
  else if p.funcMask || p.mask.getLsbD vector then s.setPort port { p with pend := p.pend ||| bit256 vector }
  else s.emit (.msix port vector)

/-- An event Table 16-3 sends to the owning host; vectors 96, 99 and 100 also go to the guest when GUEST_EVT is
1, and every such event to both ports while nobody owns the module. -/
def State.msixOwner (s : State) (vector : Nat) : State :=
  if !s.on GLB_HOSTCFG_OWNER_VALID then (s.msix 0 vector).msix 1 vector
  else
    let o := s.rd GLB_HOSTCFG_OWNER
    let s := s.msix o vector
    if s.on GLB_HOSTCFG_GUEST_EVT && (vector == 96 || vector == 99 || vector == 100) then s.msix (1 - o) vector else s

/-- GLB_HOSTLOG takes a refused access, reported also through AER (R391, Table 16-4). -/
def State.hostNote (s : State) (port bar off code : Nat) : State :=
  let s := if s.on GLB_HOSTLOG_VALID then s.wr GLB_HOSTLOG_MULTI 0 1
    else ((((s.wr GLB_HOSTLOG_OFFSET 0 off).wr GLB_HOSTLOG_BAR 0 bar).wr GLB_HOSTLOG_PORT 0 port).wr GLB_HOSTLOG_CODE 0 code).wr GLB_HOSTLOG_VALID 0 1
  s.bump GLB_HOSTLOG_COUNT 0 1
/-- A host's refused access is logged and reported by AER. -/
def State.hostLog (s : State) (port bar off code : Nat) : State :=
  (s.hostNote port bar off code).emit (.aer port (if code = cTIMEOUT then 2 else 1))

/-- Whether a host is the owning host (R377). -/
def State.owns (s : State) (port : Nat) : Bool := s.on GLB_HOSTCFG_OWNER_VALID && s.rd GLB_HOSTCFG_OWNER == port
/-- Whether a master ID may configure the module: the owning host or the supervisor (R377). -/
def State.mayConfigure (s : State) (master : Nat) : Bool := master == 2 || (master < 2 && s.owns master)

/-! ### Low-power states (R442 to R444) -/

/-- Neither in nor on the way into or out of a low-power state. -/
def State.awake (s : State) : Bool := s.rd PWR_STATE_STATE == 0
/-- HBM is open to BAR2 and Ferry: ready, and no wipe runs (R482, R530). -/
def State.hbmOpen (s : State) : Bool := s.on GLB_POST_HBM_READY && !s.on SEC_STATUS_WIPING
/-- An exit event: 1 REQ, 2 ring, 3 mailbox, 4 BAR2, 5 fabric, 6 SMBus. -/
def State.wake (s : State) (cause : Nat) : State :=
  let st := s.rd PWR_STATE_STATE
  if 1 ≤ st && st ≤ 4 then (s.wr PWR_STATE_STATE 0 5).wr PWR_STATE_WAKE_CAUSE 0 cause else s

/-- An armed lee takes no LAUNCH and enters no low-power state (R498). -/
def State.armedLee (s : State) : Bool := s.on TWN_STATUS_ARMED && (s.rd TWN_STATUS_STATE == 3 || s.rd TWN_STATUS_STATE == 4)

/-! ### Firmware cores (Table 18-7) -/

/-- The worker core that serves ring pair `n` of either host (R404). -/
def workerOf (n : Nat) : Nat := 2 + n % 64 / 16
def State.workerUp (s : State) (n : Nat) : Bool := s.rd GLB_FWCORE_STATE (workerOf n) == coreRunning

/-- Safe state: collectors go on but nothing else acts (R464). -/
def State.safe (s : State) : Bool := s.on BWT_STATUS_SAFE

end Sys2Proof.Machine
end

