-- ==== Sys2Proof/Machine/Jobs.lean ====
section
/-! DEFINITION. Jobs: how a LAUNCH ends, how tiles are made fresh and start, and the job abort (R100, R401,
R463, R464). -/
namespace Sys2Proof.Machine

/-! ### Rings' taken entries -/

def State.ring (s : State) (i : Nat) : Ring := smGet (fun _ => Ring.reset) s.rings i
def State.setRing (s : State) (i : Nat) (x : Ring) : State := { s with rings := smSet (fun _ => Ring.reset) s.rings i x }

def Taken.finish (idx code detail : Nat) (t : Taken) : Taken :=
  if t.idx = idx then { t with started := true, done := some (code, detail) } else t
/-- The work of a taken entry has ended with a code; its completion waits to be posted. -/
def State.entryDone (s : State) (i idx code detail : Nat) : State :=
  let x := s.ring i
  s.setRing i { x with taken := x.taken.map (Taken.finish idx code detail) }

/-- Whether some ring of either host is ACTIVE. -/
def State.anyRing (s : State) : Bool := (List.range 128).any fun i => s.rd RNG_STAT_STATE i == 1
/-- Note when the conditions of R408 begin to hold. -/
def State.calmDown (s : State) : State := { s with calmSince := s.wall }

/-! ### Tiles at a launch or turn -/

/-- A tile as R56 leaves it, but for what the move engine has already started and the model's counters. -/
def Tile.fresh (t : Tile) : Tile :=
  { Tile.reset with now := t.now, nextId := t.nextId, free := t.free, active := t.active, key := t.key }
/-- A restarting tile: its stores and instruction buffer stay; it issues bundle 0 at tide tick `T` (R283). -/
def Tile.restart (T : Nat) (t : Tile) : Tile :=
  { t.fresh with store := t.store, ecc := t.ecc, ibuf := t.ibuf, ieccs := t.ieccs, issue := .waiting T }

/-- Act on every tile of a die. -/
def State.eachTile (s : State) (d : Nat) (f : Nat → Tile → Tile) : State :=
  (List.range 256).foldl (fun s t => s.setTile (d * 256 + t) (f t (s.tile (d * 256 + t)))) s

/-! ### The end of a job -/

/-- A job is over: its LAUNCH completes with a code, and FAB_CTRL unlocks when no job is left. -/
def State.endJob (s : State) (j : Job) (code : Nat) : State :=
  let s := { s with plans := s.plans.filter (· != j) }
  let s := match j.ring with
    | some (i, idx) => s.entryDone i idx code j.plan
    | none => s
  (if s.plans.isEmpty then s.wr FAB_CTRL_LOCK 0 0 else s).calmDown

/-- A station drops both tide table buffers and falls back to the service schedule (R463, R197). -/
def State.dropTables (s : State) (q : Nat) : State :=
  let x := s.stn q
  let s := s.setStn q { x with bufA := [], bufB := [], hasActive := false, swapAnn := false, turnAnn := false }
  let s := ((s.wr STN_TIDE_ACTIVE q 0).wr STN_TIDE_VALID_A q 0).wr STN_TIDE_VALID_B q 0
  if 24 ≤ q ∧ q < 40 then s.wr SHG_STATUS_SERVICE (q - 24) 1 else s

/-! ### Job abort (R463, R464) -/

/-- Every queued command records ABORTED. -/
def abortQueue : List MoveCmd → Tile → Tile
  | [], t => t
  | m :: ms, t =>
    let t := t.record t.now m.k cABORTED
    abortQueue ms { t with fences := t.fences.map (fenceDone m.id cABORTED) }
/-- Step 1 at one tile: issue stops; queued move commands record ABORTED. -/
def Tile.abort (t : Tile) : Tile :=
  let t := match t.issue with
    | .issuing => { t with issue := .stopped }
    | .waiting _ => { t with issue := .stopped }
    | _ => t
  { abortQueue t.queue t with queue := [] }

/-- Whether an arm's slot has begun or been decided. -/
def ArmPhase.open : ArmPhase → Bool
  | .armed => true | .ready => true | .missed => true | _ => false

/-- Steps 1 to 3 on one die: tiles stop, arms whose slot has not begun and queued notes record ABORTED. -/
def State.stopDie (s : State) (d : Nat) : State :=
  let s := s.eachTile d fun _ t => t.abort
  let x := s.stn d
  let txs := x.tx.filter fun a => a.phase.open && decide (s.ticks < a.tick)
  let rxs := x.rx.filter fun a => a.phase.open && decide (s.ticks < a.tick)
  let s := s.setStn d { x with tx := x.tx.filter fun a => !txs.contains a, rx := x.rx.filter fun a => !rxs.contains a }
  let s := txs.foldl (fun s a => s.finishArm d a.tile a.id cABORTED) s
  let s := rxs.foldl (fun s a => s.finishArm d a.tile a.id cABORTED) s
  let ns := s.notes.filter fun n => n.src == d && n.reply.isNone
  let s := { s with notes := s.notes.filter fun n => n.src != d || n.reply.isSome }
  ns.foldl (fun s n => s.onTileNow d n.tile fun t => t.finishMove t.now n.id cABORTED) s

/-- A swap that covers a job's stations is latched. -/
def State.swapCovers (s : State) (j : Job) : Bool :=
  match s.tide.swapLatched with
  | some r => j.stations.any r.req.stations.contains
  | none => false

/-- Abort one job; a second abort of it merges into the first (R464). -/
def State.abortJob (s : State) (kind : Nat) (j : Job) : State :=
  let s0 := s
  let s := (s.wr FLT_STATUS_ABORT_KIND 0 kind).endSquall
  match j.phase with
  | .aborting _ => s0
  | .requested =>
    let s := j.dies.foldl (fun s d => s.shiftRows d) s
    let s := { s with tide := { s.tide with swapReqs := s.tide.swapReqs.filter fun r => !(r.modes.isSome && r.stations == j.stations) } }
    (s.endJob j cABORTED).bump FLT_STATUS_ABORTS 0 1
  | _ =>
    let s := { s with plans := s.plans.map fun x => if x == j then { j with phase := .aborting (s.swapCovers j), since := s.wall } else x }
    let s := s.wr FLT_STATUS_ABORTING 0 1
    let s := if j.phase = .running then j.dies.foldl (fun s d => s.stopDie d) s else s
    s.abortSteps

/-- A job abort of every job that `hit` selects. -/
def State.abortJobs (s : State) (kind : Nat) (hit : Job → Bool) : State :=
  if s.safe then s else (s.plans.filter hit).foldl (fun s j => s.abortJob kind j) s

/-- Steps 4 and 5 at the end of tick 1,023: the job's stations drop their tables and its dies are finished. -/
def State.dropAborted (s : State) (j : Job) : State :=
  let s := j.stations.foldl (fun s q => s.dropTables q) s
  let s := j.dies.foldl (fun s d => s.finishDie d) s
  (s.endJob j cABORTED).bump FLT_STATUS_ABORTS 0 1
def State.endAborts (s : State) : State :=
  let s := (s.plans.filter fun j => j.phase == .aborting false).foldl (fun s j => s.dropAborted j) s
  s.flag FLT_STATUS_ABORTING 0 (s.plans.any fun j => match j.phase with | .aborting _ => true | _ => false)

/-- JOB_COMPLETE: every die of a running job has finished, and its LAUNCH completes with OK. -/
def execJobComplete (n : Nat) (s : State) : Res :=
  match s.plans[n]? with
  | none => .next s
  | some j =>
    if j.phase = .running && j.dies.all fun d => !(s.die d).running then .next (s.endJob j cOK) else .next s

end Sys2Proof.Machine
end

