-- ==== Sys2Proof/Machine/Rings.lean ====
section
/-! DEFINITION. Ring pairs, submissions, launch images, completions, heartbeats and mailboxes
(17_rings_mailboxes.md). Ring pair n of host h is instance h × 64 + n. -/
namespace Sys2Proof.Machine

/-! ### Ring pairs (R393, R394, R407) -/

def rsDisabled : Nat := 0
def rsActive : Nat := 1
def rsOrphaned : Nat := 2

def State.sqSize (s : State) (i : Nat) : Nat := 2 ^ s.rd RNG_CFG_SQ_LOG2N i
def State.cqSize (s : State) (i : Nat) : Nat := 2 ^ s.rd RNG_CFG_CQ_LOG2N i
/-- Address of a submission and a completion entry. -/
def State.sqAddr (s : State) (i idx : Nat) : Nat := s.rd RNG_BASE_BASE i + 0x1000 + idx % s.sqSize i * 64
def State.cqAddr (s : State) (i idx : Nat) : Nat :=
  s.rd RNG_BASE_BASE i + 0x1000 + s.sqSize i * 64 + idx % s.cqSize i * 64
/-- Difference of two 16-bit indices. -/
def idxSub (a b : Nat) : Nat := (a + 65536 - b % 65536) % 65536

/-- CQ_STALL reads 1 while the completion ring is full (R403). -/
def State.cqStall (s : State) (i : Nat) : State :=
  s.flag RNG_STAT_CQ_STALL i (idxSub (s.rd RNG_IDX_CQ_TAIL i) (s.rd RNG_IDX_CQ_HEAD i) == s.cqSize i)

/-- What no snapshot records: the header is to be written (R395). -/
def noSnap : Nat × Nat × Nat := (65536, 65536, 65536)
/-- RING_ENABLE: the region and sizes are checked; success clears the indices and activates the ring. -/
def execRingEnable (h : Fin 2) (n : Fin 64) (s : State) : Res :=
  let i := h.val * 64 + n.val
  let s := s.wake 2
  if s.on RNG_CFG_ENABLE i then .next s else
  let base := s.rd RNG_BASE_BASE i
  let code := armCode [(cUNSUPPORTED, decide (12 < s.rd RNG_CFG_SQ_LOG2N i) || decide (12 < s.rd RNG_CFG_CQ_LOG2N i)),
    (cADDR_FAULT, base % 4096 != 0 || !paOk base (0x1000 + 64 * s.sqSize i + 64 * s.cqSize i))]
  if code = cADDR_FAULT then .next ((s.wr RNG_STAT_CODE i code).hostLog h.val 0 (0x200000 + h.val * 0x1000 + n.val * 0x40) code)
  else if code ≠ cOK then .next (s.wr RNG_STAT_CODE i code)
  else
    let s := (((s.wr RNG_IDX_SQ_TAIL i 0).wr RNG_IDX_SQ_HEAD i 0).wr RNG_IDX_CQ_TAIL i 0).wr RNG_IDX_CQ_HEAD i 0
    let s := (((s.wr RNG_STAT_HB_AGE i 0).wr RNG_STAT_STATE i rsActive).wr RNG_CFG_ENABLE i 1).cqStall i
    .next (s.setRing i { Ring.reset with used := true, lastHb := (s.ring i).lastHb, snap := noSnap })

/-- RING_DISABLE: ENABLE = 0 disables an ACTIVE ring with nothing running; otherwise it is ignored. -/
def execRingDisable (h : Fin 2) (n : Fin 64) (s : State) : Res :=
  let i := h.val * 64 + n.val
  let s := s.wake 2
  if s.rd RNG_STAT_STATE i = rsActive ∧ s.rd RNG_STAT_RUNNING i = 0 then
    .next (((s.wr RNG_CFG_ENABLE i 0).wr RNG_STAT_STATE i rsDisabled).calmDown)
  else .next s

/-- RING_DOORBELL: an aligned 8 B write sets SQ_TAIL and CQ_HEAD, each within its bound (R402). A token ring
ignores SQ_TAIL (R396). -/
def execRingDoorbell (h : Fin 2) (n : Fin 64) (whole : Bool) (data : W64) (s : State) : Res :=
  let i := h.val * 64 + n.val
  let s := s.wake 2
  let bad (s : State) : State := s.hostLog h.val 2 (0x1000 + 8 * n.val) cADDR_FAULT
  if !whole then .next (bad s) else
  let d := data.toNat
  let tail := bitsN d 0 16
  let head := bitsN d 16 16
  let s := if d.testBit 32 && s.rd RNG_CFG_MODE i == 0 then
      (if idxSub tail (s.rd RNG_IDX_SQ_HEAD i) ≤ s.sqSize i then s.wr RNG_IDX_SQ_TAIL i tail
        else bad (s.bump RNG_STAT_ERR_IDX i 1))
    else s
  .next (if d.testBit 33 then
      (if idxSub (s.rd RNG_IDX_CQ_TAIL i) head ≤ s.cqSize i then (s.wr RNG_IDX_CQ_HEAD i head).cqStall i
        else bad (s.bump RNG_STAT_ERR_IDX i 1))
    else s)

/-! ### Submissions (R397, R398) -/

/-- A reserved opcode, or a field that must be zero (Tables 17-2, 17-3). -/
def badEntry (bs : List Byte) : Bool :=
  let op := leNat (bs.take 1)
  let param := leNat ((bs.drop 16).take 8)
  let stream := leNat ((bs.drop 24).take 1)
  op == 0 || decide (4 < op) || leNat ((bs.drop 1).take 7) != 0 || leNat (bs.drop 25) != 0
    || ((op == 1 || op == 4) && param != 0) || ((op == 1 || op == 2) && stream != 0) || decide (63 < stream)

/-- SUBMISSION_TAKE: runtime firmware takes the entry at SQ_HEAD of an ACTIVE job ring. -/
def execSubmissionTake (ring : Fin 128) (s : State) : Res :=
  let i := ring.val
  if s.rd RNG_STAT_STATE i ≠ rsActive ∨ s.rd RNG_CFG_MODE i ≠ 0 ∨ !s.workerUp i ∨ s.safe
      ∨ s.rd RNG_IDX_SQ_HEAD i = s.rd RNG_IDX_SQ_TAIL i then .next s else
  let head := s.rd RNG_IDX_SQ_HEAD i
  let (s, bs, code) := s.hrbRead (s.sqAddr i head) 64
  let s := (s.wr RNG_IDX_SQ_HEAD i (head + 1)).bump RNG_STAT_RUNNING i 1
  let own := leNat (bs.take 1) == 2 && !s.owns (i / 64)
  let bad := armCode [(cPERM, own && (badEntry bs || code == cPOISON)), (cUNSUPPORTED, badEntry bs), (cPOISON, code == cPOISON)]
  let done := if code ≠ cOK ∧ code ≠ cPOISON then some (code, 0) else if bad ≠ cOK then some (bad, 0) else none
  let t : Taken := ⟨head, leNat (bs.take 1), leNat ((bs.drop 8).take 8), leNat ((bs.drop 16).take 8),
    leNat ((bs.drop 24).take 1), done.isSome, done⟩
  let x := s.ring i
  .next (s.setRing i { x with taken := x.taken ++ [t] })

/-- The oldest taken entry of an opcode whose work has not started. -/
def State.nextTaken (s : State) (i opcode : Nat) : Option Taken :=
  (s.ring i).taken.find? fun t => t.opcode == opcode && !t.started

/-- RING_NOP: a NOP ends with OK once every entry taken before it has ended. -/
def execRingNop (ring : Fin 128) (s : State) : Res :=
  match s.nextTaken ring.val 1 with
  | none => .next s
  | some t =>
    if ((s.ring ring.val).taken.takeWhile (· != t)).all fun e => e.done.isSome then .next (s.entryDone ring.val t.idx cOK 0)
    else .next s

/-- A stream belongs to the ring pair that started it last. -/
def State.ownStream (s : State) (i n : Nat) : State :=
  let s := (List.range 128).foldl (fun s k => s.setRing k { s.ring k with streams := (s.ring k).streams.filter (· != n) }) s
  let x := s.ring i
  s.setRing i { x with streams := x.streams ++ [n] }

/-- STREAM_START: the stream's registers are written from the 56 B block at PARAM and ENABLE is set (R318). -/
def execStreamStart (ring : Fin 128) (s : State) : Res :=
  let i := ring.val
  match s.nextTaken i 3 with
  | none => .next s
  | some t =>
    let (s, bs, code) := s.hrbRead t.param 56
    if code ≠ cOK ∧ code ≠ cPOISON then .next (s.entryDone i t.idx code 0) else
    let w (k : Nat) : W64 := BitVec.ofNat 64 (leNat ((bs.drop (8 * k)).take 8))
    if bitsN (w 0).toNat 28 1 ≠ i / 64 then .next (s.entryDone i t.idx cPERM 0)
    else if s.on SMP_CFG_ENABLE t.stream ∧ code = cOK then .next ((s.ownStream i t.stream).entryDone i t.idx cOK 0)
    else
      let n := t.stream
      let s0 := s
      let s := s.wrWord SMP_CFG n (BitVec.ofNat 64 (bitsN (w 0).toNat 1 28 * 2 + bitsN (w 0).toNat 32 32 * 2 ^ 32))
      let s := ((s.wrWord SMP_TEMP n (w 1)).wrWord SMP_TRUNC n (w 2)).wrWord SMP_SEED n (w 3)
      let s := ((s.wrWord SMP_STOP n (w 4)).wrWord SMP_POS n (w 5)).wrWord SMP_SEQ n (w 6)
      if code = cPOISON then .next (s0.entryDone i t.idx (if s.smpValid n then cPOISON else cUNSUPPORTED) 0) else
      let s := s.enableStream n
      if s.on SMP_CFG_ENABLE n then .next ((s.ownStream i n).entryDone i t.idx cOK 0)
      else .next (s.entryDone i t.idx (s.rd SMP_STATE_CODE n) 0)

/-- STREAM_STOP: ENABLE = 0 for a stream whose OUT_HOST is the submitting host; PERM otherwise. -/
def execStreamStop (ring : Fin 128) (s : State) : Res :=
  match s.nextTaken ring.val 4 with
  | none => .next s
  | some t =>
    if s.rd SMP_CFG_OUT_HOST t.stream ≠ ring.val / 64 then .next (s.entryDone ring.val t.idx cPERM 0)
    else .next ((s.disableStream t.stream).entryDone ring.val t.idx cOK 0)

/-! ### Launch images (R399 to R401) -/

/-- A section record (Table 17-11); `bad` when a zero field is not zero. -/
structure Sect where
  typ : Nat
  station : Nat
  tile : Nat
  role : Nat
  slot : Nat
  taddr : Nat
  off : Nat
  dlen : Nat
  bad : Bool
deriving DecidableEq, Repr

/-- Section record `i` of the image at `pa`. -/
def sectAt (m : Mem) (pa i : Nat) : Sect :=
  let a := pa + 64 + 32 * i
  let typ := memNat m a 1
  let tile := memNat m (a + 2) 1
  let role := memNat m (a + 3) 1
  let slot := memNat m (a + 4) 1
  let taddr := memNat m (a + 8) 4
  ⟨typ, memNat m (a + 1) 1, tile, role, slot, taddr, memNat m (a + 16) 8, memNat m (a + 24) 4,
    memNat m (a + 5) 3 != 0 || memNat m (a + 12) 4 != 0 || memNat m (a + 28) 4 != 0 ||
      (typ != 2 && typ != 5 && tile != 0) || (typ != 4 && (role != 0 || slot != 0)) || (typ == 4 && 15 < role)
      || (typ != 5 && taddr != 0)⟩
def sectsOf (m : Mem) (pa : Nat) : List Sect := (List.range (memNat m (pa + 16) 2)).map (sectAt m pa)

/-- The station, tile and length a section's type admits. -/
def Sect.fits (x : Sect) : Bool :=
  match x.typ with
  | 1 => (stnQ x.station).isSome && x.dlen == 0x100000 && x.off % 4096 == 0
  | 2 => decide (x.station < 24) && decide (0 < x.dlen) && decide (x.dlen ≤ 131072) && x.dlen % 32 == 0 && x.off % 32 == 0
  | 3 => decide (x.station < 24) && x.dlen == 512 && x.off % 32 == 0
  | 4 => decide (x.station < 24) && x.dlen == 0 && x.off == 0
  | 5 => decide (x.station < 24) && x.dlen % 32 == 0 && x.off % 32 == 0 && x.taddr % 32 == 0 && decide (x.taddr + x.dlen ≤ storeSize)
  | _ => false

/-- Two TIDE, BARSET or ROLE sections of one station, or two PROG sections of one tile. -/
def dupSect : List Sect → Bool
  | [] => false
  | x :: xs => (xs.any fun y => y.typ == x.typ && y.station == x.station && (x.typ != 5) && (x.typ != 2 || y.tile == x.tile)) || dupSect xs

/-- A TIDE section's table header against the image header. -/
def tideHeadBad (m : Mem) (pa : Nat) (x : Sect) : Bool :=
  let a := pa + x.off + 0xC0000
  memNat m a 8 != memNat m (pa + 4) 8 || memNat m (a + 8) 1 != x.station || memNat m (a + 9) 1 != memNat m (pa + 12) 1

/-- Role code, RESTART and slot of a ROLE section. -/
def Sect.roleCode (x : Sect) : Nat := x.role % 8
def Sect.restart (x : Sect) : Bool := x.role.testBit 3

/-- The PERM checks of R400 that need no image. -/
def State.launchPerm (s : State) (host : Nat) : Bool :=
  !s.owns host || s.rd GLB_POST_HOLD == 1 || s.on BWT_TRIP_PENDING || s.armedLee

/-- The checks of R400 on the image `m` as read, by the code R7 places first; `host` is the submitting host. -/
def State.launchCode (s : State) (m : Mem) (host pa : Nat) (poisoned : Bool) : Nat :=
  let len := memNat m (pa + 24) 8
  let modes := memNat m (pa + 12) 1
  let caps := memNat m (pa + 13) 1
  let width := memNat m (pa + 14) 2
  let nsect := memNat m (pa + 16) 2
  let secs := sectsOf m pa
  let given := secs.filter fun x => x.typ == 4 && x.roleCode != 0
  let notDone := secs.any fun x => x.station < 24 && (s.die x.station).running &&
    (x.typ == 2 || x.typ == 3 || x.typ == 5 || (x.typ == 4 &&
      (x.roleCode != s.rd TID_ROLE_ROLE x.station || x.slot != s.rd TID_ROLE_SLOT x.station)))
  armCode [
    (cPERM, s.launchPerm host || notDone),
    (cADDR_FAULT, pa % 4096 != 0 || !paOk pa (max 64 len) || secs.any fun x => decide (len < x.off + x.dlen)),
    (cUNSUPPORTED, s.rd GLB_POST_HOLD == 2 || memNat m pa 4 != 1 ||
      memNat m (pa + 32) 4 != crc32c (memBytes m pa 32 ++ leBytes 4 0 ++ memBytes m (pa + 36) (len - 36)) ||
      memNat m (pa + 18) 6 != 0 || memNat m (pa + 36) 28 != 0 || decide (3 < modes) || decide (31 < caps) ||
      nsect == 0 || decide (8192 < nsect) || decide (len < 64 + 32 * nsect) ||
      secs.any (fun x => x.bad || !x.fits) || dupSect secs || secs.any (fun x => x.typ == 1 && tideHeadBad m pa x) ||
      Nat.land caps (Nat.xor (s.caps % 32) 31) != 0 ||
      (!modes.testBit 1 && (!s.on HRN_OPTSEL_BRISK_OK || s.on HRN_OPTSEL_FORCE_CALM))),
    (cCAPACITY, (given.any fun x => decide (s.rd TPL_STATUS_WIDTH x.station < width) || s.flt.noSpare.contains x.station)
      || !s.light.darkPos.isEmpty || (s.on PWR_IN_VOLTS && decide (s.rd PWR_IN_VOLTS < 5400))),
    (cPOISON, poisoned)]

/-- The supervisor reads an image: its header, then the rest of its LEN bytes; the memory read and the code of the
checks. What a hole or a lost stack leaves unread ends the reading; a refusal that needs no image reads the header only,
for the completion's PLAN_ID. -/
def State.imageRead (s : State) (host pa : Nat) : State × Mem × Nat :=
  let perm := s.launchPerm host
  if pa % 4096 ≠ 0 ∨ (perm = true ∧ !paOk pa 64) then (s, [], if perm then cPERM else cADDR_FAULT)
  else
    let (s, h, c) := s.hrbRead pa 64
    let head : Mem := smRun (fun _ => 0) pa h
    if perm then (s, head, cPERM) else
    if c ≠ cOK ∧ c ≠ cPOISON then (s, [], c) else
    let len := leNat ((h.drop 24).take 8)
    if len ≤ 64 then (s, head, s.launchCode head host pa (c == cPOISON))
    else if !paOk pa len then (s.paFault 0x30 0 pa, head, cADDR_FAULT)
    else
      let (s, b, c2) := s.hrbRead (pa + 64) (len - 64)
      if c2 ≠ cOK ∧ c2 ≠ cPOISON then (s, head, c2) else
      let m : Mem := smRun (fun _ => 0) pa (h ++ b)
      (s, m, s.launchCode m host pa (c == cPOISON || c2 == cPOISON))

/-- The buffer a launch loads: the inactive one, or A for an arming twin. -/
def State.launchBuf (s : State) (q : Nat) (toA : Bool) : Bool := !toA && (s.stn q).hasActive && !s.on STN_TIDE_ACTIVE q

/-- Step 1 for one TIDE section: R200's load into a buffer of its station, answering its code. -/
def State.loadTide (s : State) (m : Mem) (pa : Nat) (toA : Bool) (x : Sect) : State × Nat :=
  match stnQ x.station with
  | none => (s, cUNSUPPORTED)
  | some q =>
    let b := s.launchBuf q toA
    if s.swapNames q || ((s.stn q).hasActive && (s.on STN_TIDE_ACTIVE q == b)) then (s, cPERM) else
    let img := smRun (fun _ => 0) 0 (memBytes m (pa + x.off) 0x100000)
    let y := s.stn q
    let s := s.setStn q (if b then { y with bufB := img } else { y with bufA := img })
    let ok := (tableCheck q img).isNone
    let s := s.flag (if b then STN_TIDE_VALID_B else STN_TIDE_VALID_A) q ok
    (s, if ok then cOK else cUNSUPPORTED)
def State.loadTides (s : State) (m : Mem) (pa : Nat) (toA : Bool) : List Sect → State × Nat
  | [] => (s, cOK)
  | x :: xs => if x.typ = 1 then
      let (s, c) := s.loadTide m pa toA x
      if c = cOK then s.loadTides m pa toA xs else (s, c)
    else s.loadTides m pa toA xs

/-- The bundle of an END: control opcode END, nothing else. -/
def endBundle : W256 := 9

/-- A tile as step 2 leaves it. -/
def tileImage (m : Mem) (pa : Nat) (secs : List Sect) (d t : Nat) (x : Tile) : Tile :=
  let prog := secs.find? fun y => y.typ == 2 && y.station == d && y.tile == t
  let ibuf : SMap W256 := match prog with
    | some y => smRun (fun _ => 0) 0 (units32 (y.dlen / 32) (memBytes m (pa + y.off) y.dlen))
    | none => [(0, endBundle)]
  let store := (secs.filter fun y => y.typ == 5 && y.station == d && y.tile == t).foldl
    (fun st y => memStore st y.taddr (memBytes m (pa + y.off) y.dlen)) ([] : Mem)
  { x.fresh with ibuf := ibuf, store := store }
/-- Step 2 for one die: stores, buffers and tile state cleared, programs and data written. -/
def State.loadDie (s : State) (m : Mem) (pa : Nat) (secs : List Sect) (d : Nat) : State :=
  let s := s.eachTile d fun t x => tileImage m pa secs d t x
  let bar := secs.find? fun y => y.typ == 3 && y.station == d
  (List.range 64).foldl (fun s k => s.wr HDL_BARSET_MEMBERS (d * 64 + k)
    (match bar with | some y => memNat m (pa + y.off + 8 * k) 8 | none => 0)) s

/-- Dies of a section list that step 2 loads. -/
def loadedDies (secs : List Sect) : List Nat := (List.range 24).filter fun d =>
  secs.any fun y => y.station == d && (y.typ == 2 || y.typ == 3 || y.typ == 5 || (y.typ == 4 && y.restart))

/-- Steps 2 and 3 (R401). -/
def State.loadPlan (s : State) (m : Mem) (pa : Nat) (secs : List Sect) : State :=
  let s := (loadedDies secs).foldl (fun s d => s.loadDie m pa secs d) s
  secs.foldl (fun s y => if y.typ != 4 then s else
    let s := if y.roleCode != 0 then s.wr TPL_CTRL_MIN_WIDTH y.station (memNat m (pa + 14) 2) else s
    ((s.wr TID_ROLENEXT_ROLE y.station y.roleCode).wr TID_ROLENEXT_SLOT y.station y.slot).flag TID_ROLENEXT_RESTART y.station y.restart) s

/-- Stations, by dense index, that have a TIDE section. -/
def tideStations (secs : List Sect) : List Nat := (secs.filter fun y => y.typ == 1).filterMap fun y => stnQ y.station

/-- GRADE_PENDING under R248: a refused Brisk launch of a module graded above C. -/
def State.gradeAtLaunch (s : State) (calm : Bool) : State :=
  let g := s.rd GLB_MODULE_ID_GRADE
  if !calm && !s.on HRN_OPTSEL_BRISK_OK && decide (g < 2) && !s.on GLB_MODULE_ID_GRADE_PENDING then
    (s.wr GLB_MODULE_ID_GRADE_PENDING 0 1).stlGrade g 2 2 1
  else s

/-- The grade at an accepted launch (R248, R532). Grade F rises only by a commissioning (R22, R533). -/
def State.gradeAccepted (s : State) (calm : Bool) : State :=
  let g := s.rd GLB_MODULE_ID_GRADE
  if s.on GLB_MODULE_ID_GRADE_PENDING && calm && (g != 3 || s.on HRN_CART_COMMISSIONED) then ((s.wr GLB_MODULE_ID_GRADE 0 2).wr GLB_MODULE_ID_GRADE_PENDING 0 0).stlGrade g 2 2 0
  else if s.assess = 1 && g = 0 then (s.wr GLB_MODULE_ID_GRADE 0 1).stlGrade 0 1 2 0
  else s

/-- Step 4: a swap of a plan's stations is requested as a role turn (R401, R506). -/
def State.requestPlan (s : State) (ring : Option (Nat × Nat)) (plan : Nat) (qs : List Nat) (modes : Nat) : State :=
  let dies := (List.range 24).filter qs.contains
  let s := (((s.wr TID_SWAP_HDL 0 (dies.foldl (fun a d => a + 2 ^ d) 0)).wr TID_SWAP_SHG 0
    (((List.range 16).filter fun k => qs.contains (24 + k)).foldl (fun a k => a + 2 ^ k) 0)).flag TID_SWAP_HRB 0
    (qs.contains 40)).wr TID_SWAP_TURN 0 1
  { s with
    tide := { s.tide with swapReqs := s.tide.swapReqs ++ [⟨qs, true, some modes⟩] },
    plans := s.plans ++ [⟨ring, plan, dies, qs, .requested, 0⟩] }

/-- LAUNCH: the image at PARAM is checked; a failed check completes the entry and changes nothing else;
otherwise its sections are loaded and the launch swap is requested (R400, R401). -/
def execLaunch (ring : Fin 128) (s : State) : Res :=
  let i := ring.val
  if !s.supUp ∨ s.safe ∨ s.on SEC_STATUS_WIPE_PENDING = true then .next s else
  match s.nextTaken i 2 with
  | none => .next s
  | some t =>
    let pa := t.param
    let (s, m, code) := s.imageRead (i / 64) pa
    let plan := memNat m (pa + 4) 8
    let modes := memNat m (pa + 12) 1
    if code ≠ cOK then
      .next ((if code = cUNSUPPORTED then s.gradeAtLaunch (modes.testBit 1) else s).entryDone i t.idx code plan)
    else
      let secs := sectsOf m pa
      let x := s.ring i
      let s := s.setRing i { x with taken := x.taken.map fun e => if e == t then { e with started := true } else e }
      let (s, lc) := s.loadTides m pa false secs
      if lc ≠ cOK then .next (s.entryDone i t.idx lc plan)
      else
        let s := (s.loadPlan m pa secs).gradeAccepted (modes.testBit 1)
        .next ((s.wr GLB_POST_HARBOUR 0 0).requestPlan (some (i, t.idx)) plan (tideStations secs) modes)

/-! ### Completions (R395, R403) -/

/-- COMPLETION_POST: the oldest ended entry is written at CQ_TAIL when the ring has room; a full ring sets
CQ_STALL and the entry waits. -/
def execCompletionPost (ring : Fin 128) (s : State) : Res :=
  let i := ring.val
  if s.rd RNG_STAT_STATE i = rsDisabled ∨ s.rd RNG_CFG_MODE i ≠ 0 ∨ !s.workerUp i ∨ s.safe then .next s else
  match (s.ring i).taken.find? fun t => t.done.isSome with
  | none => .next s
  | some t =>
    let tail := s.rd RNG_IDX_CQ_TAIL i
    if idxSub tail (s.rd RNG_IDX_CQ_HEAD i) = s.cqSize i then .next (s.cqStall i) else
    let (code, detail) := t.done.getD (0, 0)
    let rec_ := leBytes 8 t.tag ++ leBytes 2 t.idx ++ leBytes 1 t.opcode ++ leBytes 1 code ++ leBytes 8 s.wall
      ++ leBytes 8 (if t.opcode = 2 then detail else 0) ++ leBytes 36 0
    let (s, _) := s.hrbWrite (s.cqAddr i tail) rec_ []
    let x := s.ring i
    let s := s.setRing i { x with taken := x.taken.filter (· != t) }
    let s := ((s.wr RNG_IDX_CQ_TAIL i (tail + 1)).cqStall i).wr RNG_STAT_RUNNING i (s.rd RNG_STAT_RUNNING i - 1)
    .next (if s.on RNG_CFG_IRQ_EN i then s.msix (i / 64) (i % 64) else s)

/-- SNAPSHOT_WRITE: the header's snapshot is rewritten when an index it copies has changed (Table 17-1). -/
def execSnapshotWrite (ring : Fin 128) (s : State) : Res :=
  let i := ring.val
  let now := (s.rd RNG_IDX_SQ_HEAD i, s.rd RNG_IDX_CQ_TAIL i, s.rd RNG_STAT_RUNNING i)
  if s.rd RNG_STAT_STATE i = rsDisabled ∨ (s.ring i).snap = now then .next s else
  let (s, _) := s.hrbWrite (s.rd RNG_BASE_BASE i + 8) (leBytes 2 now.1 ++ leBytes 2 now.2.1 ++ leBytes 2 now.2.2) []
  .next (s.setRing i { s.ring i with snap := now })

/-! ### Heartbeat and orphans (R405 to R408) -/

/-- A ring's heartbeat has expired: ORPHANED, its RNG_ORPHAN bit, and vector 98 on its host's port (R406). -/
def State.expire (s : State) (i : Nat) : State :=
  if s.rd RNG_STAT_STATE i ≠ rsActive then s else
  let h := i / 64
  let s := s.wr RNG_STAT_STATE i rsOrphaned
  ((s.wr RNG_ORPHAN_ORPHAN h (setBitsN (s.rd RNG_ORPHAN_ORPHAN h) (i % 64) 1 1)).msix h 98).calmDown

/-- Readings after which a heartbeat has expired. -/
def hbLimit (timeout : Nat) : Nat := 10 * min 600 (max 1 timeout)

/-- HEARTBEAT_READ: the P16 reads an ACTIVE ring's heartbeat word and ages it; a word that cannot be read has not
changed. -/
def execHeartbeatRead (ring : Fin 128) (s : State) : Res :=
  let i := ring.val
  if s.rd RNG_STAT_STATE i ≠ rsActive ∨ !s.workerUp i then .next s else
  let (s, bs, c) := s.hrbRead (s.rd RNG_BASE_BASE i) 8
  let v := if c = cOK then leNat bs else (s.ring i).lastHb
  if v ≠ (s.ring i).lastHb then .next ((s.setRing i { s.ring i with lastHb := v }).wr RNG_STAT_HB_AGE i 0)
  else
    let s := s.bump RNG_STAT_HB_AGE i 1
    .next (if hbLimit (s.rd RNG_CFG_HB_TIMEOUT i) ≤ s.rd RNG_STAT_HB_AGE i then s.expire i else s)

/-- A ring leaves ORPHANED. -/
def State.unorphan (s : State) (i st : Nat) : State :=
  (s.wr RNG_STAT_STATE i st).wr RNG_ORPHAN_ORPHAN (i / 64) (setBitsN (s.rd RNG_ORPHAN_ORPHAN (i / 64)) (i % 64) 1 0)

/-- RECLAIM: an orphaned ring returns to ACTIVE. -/
def execReclaim (ring : Fin 128) (s : State) : Res :=
  let i := ring.val
  let s := s.wake 2
  if s.rd RNG_STAT_STATE i ≠ rsOrphaned then .next s else .next ((s.unorphan i rsActive).wr RNG_STAT_HB_AGE i 0)

/-- DISCARD: an orphaned ring's jobs are aborted without completions, its streams stop, and it is
disabled. -/
def execDiscard (ring : Fin 128) (s : State) : Res :=
  let i := ring.val
  let s := s.wake 2
  if s.rd RNG_STAT_STATE i ≠ rsOrphaned then .next s else
  let mine := fun j : Job => match j.ring with | some (r, _) => r == i | none => false
  let s := s.abortJobs (s.rd FLT_STATUS_ABORT_KIND) mine
  let s := { s with plans := s.plans.map fun j => if mine j then { j with ring := none } else j }
  let s := (s.ring i).streams.foldl (fun s n => s.disableStream n) s
  let s := s.setRing i { s.ring i with taken := [], streams := [] }
  .next ((((s.unorphan i rsDisabled).wr RNG_CFG_ENABLE i 0).wr RNG_STAT_RUNNING i 0).calmDown)

/-- Whether work holds the module out of its low-power states: a job, or an enabled stream (R443). -/
def State.busy (s : State) : Bool := !s.plans.isEmpty || (List.range 64).any fun n => s.on SMP_CFG_ENABLE n

/-- DOLDRUMS_AUTO_ENTRY: after 60 s with no ACTIVE ring and no job, once any ring has been enabled. -/
def execDoldrumsAutoEntry (s : State) : Res :=
  if s.awake && !s.armedLee && !s.anyRing && s.plans.isEmpty && s.rings.any (fun e => e.2.used) && decide (s.calmSince + 6000000000 ≤ s.wall)
  then .next (s.wr PWR_STATE_STATE 0 1) else .next s

/-! ### Mailboxes (R409 to R412) -/

/-- MBX_LOG takes a refused access (R414). -/
def State.mbxLog (s : State) (c master code : Nat) : State :=
  let s := if s.on MBX_LOG_VALID then s.wr MBX_LOG_MULTI 0 1
    else (((s.wr MBX_LOG_CHANNEL 0 c).wr MBX_LOG_MASTER 0 master).wr MBX_LOG_CODE 0 code).wr MBX_LOG_VALID 0 1
  s.bump MBX_LOG_COUNT 0 1

/-- Whether a master may act on a channel: as its bound SENDER or RECEIVER while DUAL is 1; any requester
but Breakwater and a late host while DUAL is 0. -/
def State.mbxOk (s : State) (c master : Nat) (send : Bool) : Bool :=
  if master = 9 || 11 < master then false
  else if s.on GLB_HOSTCFG_DUAL then
    s.on MBX_BIND_VALID c && (if send then s.rd MBX_BIND_SENDER c else s.rd MBX_BIND_RECEIVER c) == master
  else !(master < 2 && (s.rd MBX_CTRL_LATE).testBit master)

/-- MAILBOX_SEND: an aligned 8 B write of a channel's data word, accepted while FULL is 0. -/
def execMailboxSend (c : Fin 64) (master : Master) (whole : Bool) (data : W64) (s : State) : Res :=
  let c := c.val
  let m := master.val
  let s := if m < 2 then s.wake 3 else s
  if !whole then .next (if m < 2 then s.hostLog m 2 (16 * c) cADDR_FAULT else s.hostNote 0 2 (16 * c) cADDR_FAULT)
  else if !s.mbxOk c m true then .next (s.mbxLog c m cPERM)
  else if s.on MBX_STAT_FULL c then .next (s.mbxLog c m cCAPACITY)
  else
    let s := (s.wrWord MBX_DATA c data).wr MBX_STAT_FULL c 1
    .next (((s.wr MBX_STAT_STAMP c m).wr MBX_STAT_CODE c cOK).wr MBX_STAT_SENDS c (s.rd MBX_STAT_SENDS c + 1))

/-- MAILBOX_TAKE: a write of 1 to TAKE clears FULL. -/
def execMailboxTake (c : Fin 64) (master : Master) (whole : Bool) (s : State) : Res :=
  let c := c.val
  let m := master.val
  if !whole then .next (if m < 2 then s.hostLog m 2 (16 * c + 8) cADDR_FAULT else s.hostNote 0 2 (16 * c + 8) cADDR_FAULT)
  else if !s.mbxOk c m false then .next (s.mbxLog c m cPERM)
  else .next (s.wr MBX_STAT_FULL c 0)

/-- Receiver resets of class A channels (R411): a waiting message is lost and CODE reads ABORTED. In
single-host attachment every requester but the sender is a receiver. -/
def State.receiverReset (s : State) (master : Nat) : State :=
  (List.range 48).foldl (fun s k =>
    let c := 16 + k
    let hit := if s.on GLB_HOSTCFG_DUAL then s.on MBX_BIND_VALID c && s.rd MBX_BIND_RECEIVER c == master
      else s.rd MBX_STAT_STAMP c != master
    if s.on MBX_STAT_FULL c && hit then (s.wr MBX_STAT_FULL c 0).wr MBX_STAT_CODE c cABORTED else s) s

/-- MAILBOX_LOCK: the supervisor sets LOCK, which fixes DUAL and, in single-host attachment, which host is
late (R378, R412). Host writes are ignored and logged. -/
def execMailboxLock (master : Master) (s : State) : Res :=
  let m := master.val
  if m < 2 then .next (s.hostLog m 0 0x100200 cPERM)
  else if m ≠ 2 ∨ s.on MBX_CTRL_LOCK then .next s
  else
    let up0 := s.on GLB_PORT_LINK_UP 0
    let up1 := s.on GLB_PORT_LINK_UP 1
    let s := (s.wr MBX_CTRL_LOCK 0 1).flag GLB_HOSTCFG_DUAL 0 (up0 && up1)
    .next (s.wr MBX_CTRL_LATE 0 (if up0 && up1 then 0 else (if up0 then 0 else 1) + (if up1 then 0 else 2)))

/-! ### Token records (R317) -/

/-- Ring instance that carries a stream's token records. -/
def State.tokenRing (s : State) (n : Nat) : Nat := s.rd SMP_CFG_OUT_HOST n * 64 + s.rd SMP_CFG_OUT_RING n
/-- Whether CQ_HEAD has not yet passed a token record (R502). -/
def State.unread (s : State) (r : RingRec) : Bool :=
  let head := s.rd RNG_IDX_CQ_HEAD r.ring
  decide (idxSub r.idx head < idxSub (s.rd RNG_IDX_CQ_TAIL r.ring) head)
/-- Write a stream's oldest waiting record; a FENCED module writes none (R505). -/
def State.writeToken (s : State) (n : Nat) : State :=
  let i := s.tokenRing n
  match (s.smp n).waiting with
  | [] => s
  | r :: rs =>
    if s.rd RNG_STAT_STATE i = rsDisabled ∨ s.rd RNG_CFG_MODE i ≠ 1 ∨ s.safe ∨ s.rd TWN_STATUS_STATE = 6 then s else
    let tail := s.rd RNG_IDX_CQ_TAIL i
    if idxSub tail (s.rd RNG_IDX_CQ_HEAD i) = s.cqSize i then s.cqStall i else
    let (s, _) := s.hrbWrite (s.cqAddr i tail) r []
    let s := s.setSmp n { s.smp n with waiting := rs }
    let s := ((s.wr RNG_IDX_CQ_TAIL i (tail + 1)).cqStall i).flag SMP_STATE_RING_STALL n (decide (64 ≤ rs.length))
    let s := { s with twn := { s.twn with written := s.twn.written.filter s.unread ++ [(⟨n, i, tail, leNat (r.take 8), r⟩ : RingRec)] } }
    if s.on RNG_CFG_IRQ_EN i then s.msix (i / 64) (i % 64) else s

/-- TOKEN_RECORD_WRITE: the oldest waiting token record of a stream is written at CQ_TAIL of its token ring
when that ring is ACTIVE or ORPHANED and has room. -/
def execTokenRecordWrite (n : Fin 64) (s : State) : Res := .next (s.writeToken n.val)

end Sys2Proof.Machine
end

