-- ==== Sys2Proof/Machine/Notes.lean ====
section
/-! DEFINITION. Notes between dies and to firmware channels (R148 to R150, R208, R284 to R286, R430). -/
namespace Sys2Proof.Machine

/-- Notes per swell and per destination queue in the optical mode in force (R208). -/
def State.noteRoom (s : State) : Nat := if s.calm then 5 else 7
def State.noteQueue (s : State) : Nat := if s.calm then 20 else 28

/-- Destination station of a note, by dense index: a die, or the Harbour die for DRANK 0xFE. A die's own rank
names no other die (log 33). -/
def noteDest (d drank : Nat) : Option Nat :=
  if drank = 0xFE then some 40 else if drank < 24 ∧ drank ≠ d then some drank else none

/-- The destination word is well formed (R149, R430); the written range must lie in the tile store (log 33). -/
def noteWordOk (q w len : Nat) : Bool :=
  if q = 40 then decide (w < 64) else decide (w < 2 ^ 32) && decide (align32 (bitsN w 8 20) + 32 * len ≤ storeSize)

/-- NOTE starts: the checks, then the note joins the queue toward its destination. -/
def startNote (pt : At) (m : MoveCmd) (s : State) : State :=
  let d := pt.die.val
  match noteDest d (m.osfAt 39 8) with
  | none => s.endFault pt m m.rb.toNat
  | some q =>
    let queued := (s.notes.filter fun n => n.src == d && n.dst == q && n.reply.isNone).length
    let code := armCode [(cADDR_FAULT, !m.localOk || !noteWordOk q m.rb.toNat m.len),
      (cCAPACITY, decide (s.noteQueue ≤ queued)), (cABORTED, s.inReset q)]
    if code = cADDR_FAULT then s.endFault pt m (if m.localOk then m.rb.toNat else outAddr m.la.toNat)
    else if code ≠ cOK then s.endAt pt m code
    else
      let t := (s.tile (tileKey pt.die pt.tile)).settle pt.cyc
      let (t, data, poison) := t.readLocal m
      let s := s.putTile d pt.tile.val (t.activate pt.cyc m (if poison then cPOISON else cOK) 1 data poison)
      { s with notes := s.notes ++ [⟨d, q, pt.tile.val, m.id, m.osfAt 47 3, m.rc.toNat % 65536, m.rb.toNat, data, poison, 0, 0, none⟩] }

/-! ### Note ticks (R208)

`sent` of a note: 0 not sent yet; 1, 2 in the swell of tick 1,018, 1,019; 3, 4 to be sent again with the notes of
its first swell, in that order; 5, 6 failed in this cycle. -/

/-- What the last cycle's failures, and swells that never arrived, become in the next cycle. -/
def NoteMsg.again (n : NoteMsg) : NoteMsg :=
  if n.sent = 1 ∨ n.sent = 5 then { n with sent := 3 } else if n.sent = 2 ∨ n.sent = 6 then { n with sent := 4 } else n

/-- Mark as sent the first `k` notes that a predicate selects. -/
def markSent (mark : Nat) (p : NoteMsg → Bool) : Nat → List NoteMsg → List NoteMsg
  | 0, ns => ns
  | _, [] => []
  | k + 1, n :: ns => if p n then { n with sent := mark } :: markSent mark p k ns else n :: markSent mark p (k + 1) ns

/-- One note swell's choice toward one destination: a failed swell's notes again, or the oldest unsent ones. -/
def pickNotes (room mark src dst : Nat) (ns : List NoteMsg) : List NoteMsg :=
  let on (k : Nat) (n : NoteMsg) : Bool := n.src == src && n.dst == dst && n.sent == k
  if ns.any (on 3) then markSent mark (on 3) room ns
  else if ns.any (on 4) then markSent mark (on 4) room ns
  else markSent mark (on 0) room ns

/-- Notes that a note swell carries, by its mark: 1 in tick 1,018, 2 in tick 1,019. -/
def State.notesIn (s : State) (src dst mark : Nat) : List NoteMsg :=
  s.notes.filter fun n => n.src == src && n.dst == dst && n.sent == mark
/-- Waveguide and drop port of a note swell (Table 9-4). -/
def notePort (src : Nat) : Nat := src
/-- NOTE_TICK: in ticks 1,018 and 1,019 a Headland station sends a note swell to every other one and to the Harbour
station, which sends one to each Headland station, with the notes that it has for it. -/
def execNoteTick (q : Fin 41) (s : State) : Res :=
  let src := q.val
  if (s.tk ≠ 1018 ∧ s.tk ≠ 1019) ∨ s.idle ∨ !s.listens src ∨ (24 ≤ src ∧ src < 40) then .next s else
  let mark := s.tk - 1017
  let ns := if s.tk = 1018 then s.notes.map fun n => if n.src == src then n.again else n else s.notes
  let dsts := (List.range 24 ++ [40]).filter (· != src)
  let s := { s with notes := dsts.foldl (fun ns d => pickNotes s.noteRoom mark src d ns) ns }
  .next (dsts.foldl (fun s d =>
    let ns := s.notesIn src d mark
    let w := slackWg src d
    s.launch src w (slackSwell 5 src w d (notePort src) s.tk (noteMarks ns) (noteBytes ns))) s)

/-- Act on the sending tile of a note. -/
def State.endNote (s : State) (n : NoteMsg) (code : Nat) : State :=
  s.onTileNow n.src n.tile fun t => t.finishMove t.now n.id code

/-- Whether a die accepts an expected role and epoch, and the rank a refusal reports (R284). -/
def State.noteAccept (s : State) (q r e : Nat) : Bool :=
  let epoch := (s.die q).epoch
  let role := s.rd TID_ROLE_ROLE q
  role != 0 && r == role && decide (idxSub epoch e ≤ idxSub epoch (s.rd TID_ROLE_SINCE q))
def State.noteRank (s : State) (q r e : Nat) : Nat :=
  let prev := s.rd TID_ROLE_PREV_ROLE q
  let last := idxSub (s.rd TID_ROLE_SINCE q) 1
  if r = prev ∧ prev ≠ 0 ∧ idxSub last e ≤ idxSub last (s.rd TID_ROLE_PREV_SINCE q) then s.rd TID_ROLE_FWD_RANK q else 0xFF
/-- The 8 B reply record (R150). -/
def State.noteReply (s : State) (q r e : Nat) : Nat :=
  (s.die q).epoch + s.noteRank q r e * 2 ^ 16 + s.rd TID_ROLE_ROLE q * 2 ^ 24

/-- A note arrives at a Headland die: written through the tile's inbound buffer and counted on a match, else dropped and answered. -/
def State.landNote (s : State) (cycs : List Nat) (n : NoteMsg) : State :=
  if s.noteAccept n.dst n.role n.epoch then
    let tile := n.dest % 256
    let code := if n.poison then cPOISON else cOK
    let t := s.tile (n.dst * 256 + tile)
    let c := cycs.getD (tile / 64) t.now
    let s := s.putTile n.dst tile
      ((t.settle c).inbound 10 (align32 (bitsN n.dest 8 20)) n.data (.count (BitVec.ofNat 4 (bitsN n.dest 28 4)) code))
    s.endNote n code
  else
    { s with notes := s.notes ++ [{ n with src := n.dst, dst := n.src, reply := some (s.noteReply n.dst n.role n.epoch),
                                           tries := 0, sent := 0 }] }

/-- A reply arrives at the sender of a refused note: the record over its local range, and ROLE_MOVED. -/
def State.landReply (s : State) (n : NoteMsg) (rec_ : Nat) : State :=
  s.onTileNow n.dst n.tile fun t =>
    match t.active.find? fun a => a.cmd.id == n.id with
    | some a => (t.writeBytes a.cmd.la32 (leBytes 8 rec_)).finishMove t.now n.id cROLE_MOVED
    | none => t

/-- The slot a firmware channel keeps a note in (Table 18-3). The spec gives the note's descriptor no layout
(log 34). -/
def noteSlot (descr : Nat) (n : NoteMsg) : List Byte :=
  leBytes 8 descr ++ leBytes 1 (stnId n.src) ++ leBytes 1 n.tile ++ leBytes 6 0 ++ n.data ++ leBytes (128 - n.data.length) 0
    ++ leBytes 112 0

/-- A note arrives for a firmware channel (R430). -/
def State.landChannel (s : State) (n : NoteMsg) : State :=
  let c := n.dest % 64
  let q := smGet (fun _ => []) s.fw.chans c
  if !s.fw.opened.contains c then s.endNote n cADDR_FAULT
  else if 16 ≤ q.length then s.endNote n cCAPACITY
  else
    let (v, s) := s.fresh
    { s with fw := { s.fw with chans := smSet (fun _ => []) s.fw.chans c (q ++ [noteSlot v n]) } }.endNote n
      (if n.poison then cPOISON else cOK)

/-- A note of a failed swell: sent again, at most three more times, then TIMEOUT at its sender. -/
def State.failNote (s : State) (n : NoteMsg) : State :=
  let rest := s.notes.erase n
  if n.tries < 3 then { s with notes := s.notes.map fun m => if m == n then { n with tries := n.tries + 1, sent := n.sent + 4 } else m }
  else
    let s := { s with notes := rest }
    match n.reply with
    | none => s.endNote n cTIMEOUT
    | some _ => s.onTileNow n.dst n.tile fun t => t.finishMove t.now n.id cTIMEOUT
/-- Note swells that never arrived have failed. -/
def State.settleNotes (s : State) : State :=
  (s.notes.filter fun n => n.sent == 1 || n.sent == 2).foldl (fun s n => s.failNote n) s

/-- The notes of a swell land, with their data as it arrived. -/
def State.landNotes (cycs : List Nat) (payload : List Byte) : Nat → List NoteMsg → State → State
  | _, [], s => s
  | i, n :: ns, s =>
    let s := { s with notes := s.notes.erase n }
    let n := { n with data := (payload.drop (136 * i + 8)).take n.data.length }
    State.landNotes cycs payload (i + 1) ns
      (match n.reply with
      | some r => s.landReply n r
      | none => if n.dst = 40 then s.landChannel n else s.landNote cycs n)

/-- NOTE_SWELL: a note swell, the first or second of a cycle, reaches a station from another in its tick. `cycs` gives the
receiving die's region cycles. -/
def execNoteSwell (q src : Fin 41) (second : Bool) (cycs : List Nat) (rx : Rx) (s : State) : Res :=
  let mark := if second then 2 else 1
  let tick := 1017 + mark
  if s.idle || !s.listens q.val || (s.tk != tick && s.tk != tick + 1) then .next s else
  match s.air.find? fun x => x.kind == 5 && x.sstn == stnId src.val && x.dst == stnId q.val && x.tick == tick with
  | none => .next s
  | some x =>
    let mine := s.notesIn src.val q.val mark
    let s := { s with air := s.air.eraseP (· == x) }
    match rxSwell s.calm x (if s.pathBad src.val x.swg q.val then Rx.fec else rx) with
    | none => .next (mine.foldl (fun s n => s.failNote n) (s.fecEvent q.val src.val x.swg))
    | some y =>
      if y.expected [5] x.sstn x.swg x.dst x.dport x.tick 0 then .next (State.landNotes cycs y.payload 0 mine s)
      else .next (mine.foldl (fun s n => s.failNote n) (s.discard q.val x.dport))

/-- Notes to and from a die that enters reset: ABORTED at their senders, and its own discarded (R286, Table 21-3). -/
def State.dropNotes (s : State) (q : Nat) : State :=
  let hit := s.notes.filter fun n => n.src == q || n.dst == q
  let s := { s with notes := s.notes.filter fun n => n.src != q && n.dst != q }
  hit.foldl (fun s n => match n.reply with
    | none => if n.dst = q then s.endNote n cABORTED else s
    | some _ => if n.src = q then s.onTileNow n.dst n.tile fun t => t.finishMove t.now n.id cABORTED else s) s

end Sys2Proof.Machine
end

