-- ==== Sys2Proof/Machine/Fabric.lean ====
section
/-! DEFINITION. The rack fabric: packets, flows, planes, targets, atomics, replicas, teardown and the Squall drill
(14_rack_fabric.md, 15_fabric_memory_semantics.md). Wall counts are reference ticks of 10 ns. -/
namespace Sys2Proof.Machine

def pLD : Nat := 1
def pST : Nat := 2
def pATOM : Nat := 3
def pMGMT : Nat := 7
def planeDown : Nat := 0
def planeTraining : Nat := 1
def planeUp : Nat := 2
def planeDisabled : Nat := 3

def State.onFab (s : State) (f : Fab → Fab) : State := { s with fab := f s.fab }
/-- Runtime firmware, the supervisor or the owning host (R331, R377). -/
def State.mayFab (s : State) (master : Nat) : Bool := s.mayConfigure master || (decide (3 ≤ master) && decide (master ≤ 8))
/-- A host's refused BAR0 write is logged. -/
def State.refuse (s : State) (master off : Nat) : State := if master < 2 then s.hostLog master 0 off cPERM else s

/-! ### Packets (R323 to R325) -/

/-- Header bytes 0–27 of a packet sent on a plane (Table 14-1). -/
def Pkt.head (p : Pkt) (plane : Nat) : List Byte :=
  leBytes 1 (p.typ + 16 * p.vc) ++ leBytes 1 p.dst ++ leBytes 1 p.src
    ++ leBytes 1 (plane + 8 * p.attempt + (if p.last then 64 else 0)) ++ leBytes 2 p.flow ++ leBytes 1 p.pathEpoch
    ++ leBytes 1 p.pmask ++ leBytes 4 p.seq ++ leBytes 6 p.off ++ leBytes 2 p.plen ++ leBytes 2 p.epoch
    ++ leBytes 1 (p.role + 8 * p.aop + (if p.w64 then 64 else 0)) ++ leBytes 1 p.code ++ leBytes 2 p.midx ++ leBytes 2 p.req
/-- Payload padded to whole 32 B units. -/
def Pkt.payload (p : Pkt) : List Byte := p.data ++ leBytes ((32 - p.data.length % 32) % 32) 0
/-- A packet as sent. -/
def Pkt.bytes (p : Pkt) (plane : Nat) : List Byte :=
  p.head plane ++ leBytes 4 (crc32c (p.head plane ++ p.payload)) ++ p.payload
/-- Credits a packet consumes (R326). -/
def Pkt.credits (p : Pkt) : Nat := (32 + p.payload.length + 63) / 64

/-- The fields of a packet's bytes. -/
def pktOf (bs : List Byte) : Pkt :=
  let h := leNat (bs.take 32)
  let plen := bitsN h 144 9
  { typ := bitsN h 0 4, vc := bitsN h 4 2, dst := bitsN h 8 6, src := bitsN h 16 6, attempt := bitsN h 27 3, last := h.testBit 30,
    flow := bitsN h 32 12, pathEpoch := bitsN h 48 8, pmask := bitsN h 56 8, seq := bitsN h 64 32, off := bitsN h 96 46, plen := plen,
    epoch := bitsN h 160 16, role := bitsN h 176 3, aop := bitsN h 179 3, w64 := h.testBit 182, code := bitsN h 184 8,
    midx := bitsN h 192 13, req := bitsN h 208 16, data := (bs.drop 32).take (if bs.length = 32 then 0 else plen) }

/-- PLEN fits a type (Table 14-2). -/
def Pkt.lenOk (p : Pkt) : Bool :=
  let w := if p.w64 then 8 else 4
  match p.typ with
  | 1 => decide (32 ≤ p.plen) && decide (p.plen ≤ 256)
  | 2 => decide (32 ≤ p.plen) && decide (p.plen ≤ 256)
  | 3 => p.plen == (if p.aop = 2 then 2 * w else w)
  | 4 => if p.code = cOK ∨ p.code = cPOISON then decide (p.plen ≤ 256) else p.plen == 0
  | 5 => decide (p.plen ≤ 256)
  | 6 => if p.code = cOK then p.plen == 4 || p.plen == 8 else p.plen == 0
  | _ => decide (4 ≤ p.plen) && decide (p.plen ≤ 32)
/-- The payload a type carries, in whole units. -/
def Pkt.carried (p : Pkt) : Nat := if p.typ = 1 ∨ p.typ = 5 then 0 else (p.plen + 31) / 32 * 32
def Pkt.vcOk (p : Pkt) : Bool :=
  if p.typ ≤ 3 then p.vc == 0 || p.vc == 3 else if p.typ ≤ 6 then p.vc == 1 else p.vc == 2
/-- Reserved bits of Table 14-1. -/
def hdrReserved (h : Nat) : Bool :=
  bitsN h 6 2 != 0 || bitsN h 14 2 != 0 || bitsN h 22 2 != 0 || h.testBit 31 || bitsN h 44 4 != 0 || bitsN h 142 2 != 0
    || bitsN h 153 7 != 0 || h.testBit 183 || bitsN h 205 3 != 0

/-- R325 steps 1 to 3: nothing, a CRC failure (1) or a malformed packet (2); so is a response with a reserved code, which no
P16 sends (R3, log 98). -/
def State.pktBad (s : State) (bs : List Byte) : Nat :=
  let h := leNat (bs.take 32)
  let p := pktOf bs
  if bs.length < 32 || bitsN h 224 32 != crc32c (bs.take 28 ++ bs.drop 32) then 1
  else if p.typ = 0 || decide (7 < p.typ) || decide (4 < p.attempt) || hdrReserved h || decide (4 ≤ p.typ ∧ 12 < p.code) || !p.vcOk || !p.lenOk
      || bs.length != 32 + p.carried || p.dst != s.rd FAB_CTRL_NODE_ID then 2
  else 0

/-- Receive credits of each VC (R326). -/
def rxCredits : Nat := 64
/-- A packet arrives on a plane: it takes receive buffer, is checked, and is handled if it is of the type named. One for
which the plane holds no credits cannot have been sent. -/
def State.arrive (s : State) (plane typ : Nat) (bs : List Byte) (f : Pkt → State → State) : State :=
  let p := pktOf bs
  let k := plane * 4 + p.vc
  if rxCredits < smGet (fun _ => 0) s.fab.held k + (bs.length + 63) / 64 then s else
  let s := s.onFab fun x => { x with held := smUpd (fun _ => 0) x.held k (· + (bs.length + 63) / 64) }
  match s.pktBad bs with
  | 1 => (s.bump FAB_PLANE_CRC_ERR plane 1).fault 0x53 0x30 plane
  | 2 => (s.bump FAB_PLANE_MALFORMED plane 1).fault 0x53 0x30 plane
  | _ => if p.typ = typ then f p s else s

/-! ### Nodes, ranks and planes (R328 to R330, R340) -/

def State.planeSt (s : State) (p : Nat) : Nat := s.rd FAB_PLANE_STATE p
def State.nodeUp (s : State) (n : Nat) : Bool := s.rd FAB_NODE_STATE n == 1
/-- Planes usable toward a node, for a rank's mask. -/
def State.usable (s : State) (n mask p : Nat) : Bool :=
  s.planeSt p == planeUp && (s.rd FAB_NODE_PLANE_MASK n).testBit p && mask.testBit p
/-- A flow's node and plane mask; flow 4,095 holds a node. -/
def State.flowNode (s : State) (f : Nat) : Nat × Nat :=
  if f = 4095 then (s.rd FAB_FLOW0_RANK f % 64, 255)
  else (s.rd FAB_RANK_NODE (s.rd FAB_FLOW0_RANK f), s.rd FAB_RANK_PLANE_MASK (s.rd FAB_FLOW0_RANK f))
/-- The plane a response leaves on: the one it is bound for, or the lowest UP plane in the node's mask. -/
def State.replyPlane (s : State) (plane node : Nat) : Option Nat :=
  if s.planeSt plane = planeUp then some plane else (List.range 8).find? fun p => s.usable node 255 p
/-- Queue a response or management packet; one that no plane can carry is discarded. -/
def State.sendOut (s : State) (plane : Nat) (p : Pkt) : State :=
  match s.replyPlane plane p.dst with
  | some k => s.onFab fun x => { x with outq := x.outq ++ [(k, p)] }
  | none => s

/-! ### Logs (R368) -/

def State.reqLog (s : State) (faddr code flow rank station tile : Nat) (late : Bool) : State :=
  let s := if s.on FAB_REQLOG_VALID then s.wr FAB_REQLOG_MULTI 0 1
    else
      let s := (((s.wr FAB_REQLOG_FADDR 0 faddr).wr FAB_REQLOG_CODE 0 code).flag FAB_REQLOG_LATE 0 late).wr FAB_REQLOG_VALID 0 1
      (((s.wr FAB_REQLOG_INFO_FLOW 0 flow).wr FAB_REQLOG_INFO_RANK 0 rank).wr FAB_REQLOG_INFO_STATION 0 station).wr FAB_REQLOG_INFO_TILE 0 tile
  s.bump FAB_REQLOG_INFO_COUNT 0 1
def State.tgtLog (s : State) (p : Pkt) (code : Nat) : State :=
  let s := if s.on FAB_TGTLOG_VALID then s.wr FAB_TGTLOG_MULTI 0 1
    else
      let s := (((s.wr FAB_TGTLOG_OFFSET 0 p.off).wr FAB_TGTLOG_SRC_NODE 0 p.src).wr FAB_TGTLOG_CODE 0 code).wr FAB_TGTLOG_VALID 0 1
      ((s.wr FAB_TGTLOG_INFO_FLOW 0 p.flow).wr FAB_TGTLOG_INFO_TYPE 0 p.typ).wr FAB_TGTLOG_INFO_REQ_ID 0 (if p.typ = pATOM then p.req else 0)
  s.bump FAB_TGTLOG_INFO_COUNT 0 1

/-- Codes of a command that FAB_REQLOG records. -/
def logged (code : Nat) : Bool := code != cOK && code != cPOISON && code != cROLE_MOVED && code != cABORTED

/-! ### Completing commands (R152, R352, R360) -/

/-- A command is complete: its outcome is logged (R368) and goes to its tile, behind the data on its way through the
inbound buffer, or to FAB_DIRECT_CMD. -/
def State.endCmd (s : State) (c : FabCmd) : State :=
  let s := s.onFab fun x => { x with cmds := x.cmds.filter (·.cid != c.cid) }
  let (d, t) := match c.tile with | some (d, t, _) => (d, t) | none => (0x30, 0)
  let s := match c.first with
    | some (a, k) => if logged c.code then s.reqLog a k c.flow c.rank d t false else s
    | none => s
  let s := if c.code = cTARGET_LOST then s.fault 0x56 0x30 c.flow else s
  let s := if c.direct then (s.wr FAB_DIRECT_CMD_CODE 0 c.code).wr FAB_DIRECT_CMD_BUSY 0 0 else s
  match c.tile with
  | some (d, t, id) => s.onTileNow d t fun x => x.inbound 10 c.addr [] (.part id c.code)
  | none => s

/-- Commands with no packet left, whose data has landed, are complete. -/
def State.endCmds (s : State) : State :=
  let done := s.fab.cmds.filter fun c => c.landing == 0 && !s.fab.pkts.any fun p => p.cid == c.cid
  done.foldl (fun s c => s.endCmd c) s
/-- Change an outstanding command. -/
def State.onCmd (s : State) (cid : Nat) (f : FabCmd → FabCmd) : State :=
  s.onFab fun x => { x with cmds := x.cmds.map fun e => if e.cid == cid then f e else e }

/-- Issued and not acknowledged sequence numbers of a flow. -/
def State.countOut (s : State) (f : Nat) : State :=
  s.wr FAB_FLOW1_OUTSTANDING f (min 1024 (s.fab.pkts.filter fun p => p.pkt.flow == f).length)

/-- A code of a packet reaches its command: the one R7 places first stays (R154, R352). -/
def State.cmdCode (s : State) (cid code : Nat) (p : FabPkt) : State :=
  s.onCmd cid fun e => { e with
    code := worstCode e.code code,
    first := if e.first.isNone && logged code then some (p.pkt.dst * 2 ^ 46 + p.pkt.off, code) else e.first }

/-- A packet is acknowledged with a code. -/
def State.ackPkt (s : State) (p : FabPkt) (code : Nat) : State :=
  let s := s.onFab fun x => { x with pkts := x.pkts.filter fun q => !(q.pkt.flow == p.pkt.flow && q.pkt.seq == p.pkt.seq) }
  ((s.cmdCode p.cid code p).countOut p.pkt.flow).endCmds

/-- Writes at a command's local range: through the tile's inbound buffer, or to HBM. -/
def State.landLocal (s : State) (c : FabCmd) (off : Nat) (data : List Byte) (bad : List Bool) : State :=
  match c.tile with
  | some (d, t, _) => s.onTileNow d t fun x => x.inbound 10 (c.addr + off) data .more
  | none =>
    if !c.direct || data.isEmpty then s
    else if (s.shg (paStack c.addr)).lost then s.onCmd c.cid fun e => { e with code := worstCode e.code cTARGET_LOST }
    else (s.onCmd c.cid fun e => { e with landing := e.landing + 1 }).hrbStore (c.addr + off) data bad (.directLand c.cid)
/-- A write of returned data into HBM has ended. -/
def State.directLanded (s : State) (cid code : Nat) : State :=
  (s.onCmd cid fun e => { e with code := worstCode e.code code, landing := e.landing - 1 }).endCmds

/-- The reply record of R294, written once. -/
def State.landRole (s : State) (c : FabCmd) (p : Pkt) : State :=
  if c.replied then s
  else
    let s := s.landLocal c (if c.typ = pATOM then 16 else 0) (leBytes 8 (p.epoch + p.pmask * 2 ^ 16 + p.role * 2 ^ 24)) []
    s.onCmd c.cid fun e => { e with replied := true }

/-- Poison bits of a packet's units. -/
def maskBad (pmask n : Nat) : List Bool := (List.range n).map fun u => pmask.testBit u

/-- A response arrives (R334, R352, R353, R360): the first for its sequence counts, later ones are duplicates. -/
def State.response (s : State) (p : Pkt) : State :=
  let f := p.flow
  if !s.on FAB_FLOW0_OPEN f && f != 4095 then s else
  match s.fab.pkts.find? fun q => q.pkt.flow == f && q.pkt.seq == p.seq && q.sent.isSome with
  | none =>
    let s := s.bump FAB_FLOW1_DUP_ACK f 1
    if p.code = cSTALE_ATOMIC then
      (s.reqLog ((s.flowNode f).1 * 2 ^ 46 + p.off) cSTALE_ATOMIC f (s.rd FAB_FLOW0_RANK f) (if f = 4095 then 0x30 else 0) 0 true).fault 0x57 0x30 f
    else s
  | some q =>
    if q.pkt.typ + 3 ≠ p.typ then s else
    let s := match s.fab.cmds.find? fun c => c.cid == q.cid with
      | none => s
      | some c =>
        if p.code = cROLE_MOVED then s.landRole c p
        else if p.typ = 4 ∧ (p.code = cOK ∨ p.code = cPOISON) then
          s.landLocal c (256 * q.pkt.midx) (p.data.take (min q.pkt.plen (c.room - 256 * q.pkt.midx))) (maskBad p.pmask ((p.plen + 31) / 32))
        else if p.typ = 6 ∧ p.code = cOK then s.landLocal c 0 (leBytes 8 (leNat p.data)) []
        else s
    s.ackPkt q p.code

def execLdr (plane : Fin 8) (pkt : List (BitVec 8)) (s : State) : Res := .next (s.arrive plane.val 4 pkt fun p s => s.response p)
def execSta (plane : Fin 8) (pkt : List (BitVec 8)) (s : State) : Res := .next (s.arrive plane.val 5 pkt fun p s => s.response p)
def execAtomr (plane : Fin 8) (pkt : List (BitVec 8)) (s : State) : Res := .next (s.arrive plane.val 6 pkt fun p s => s.response p)

/-! ### Replicas (R361 to R363) -/

def State.replOn (s : State) (e : Nat) : Bool :=
  s.on FAB_REPL0_VALID e && decide (1 ≤ s.rd FAB_REPL1_COUNT e) && decide (s.rd FAB_REPL1_COUNT e ≤ 8)
/-- Nodes an entry lists, nearest first. -/
def State.replNodes (s : State) (e : Nat) : List Nat :=
  if s.replOn e then (List.range (s.rd FAB_REPL1_COUNT e)).map fun i => bitsN (s.rd FAB_REPL1_NODES e) (6 * i) 6 else []
/-- Whether a byte range touches an entry's pages. -/
def State.replRange (s : State) (e off len : Nat) : Bool :=
  let a := s.rd FAB_REPL0_BASE e * 2 ^ 21
  let b := a + s.rd FAB_REPL0_PAGES e * 2 ^ 21
  s.replOn e && decide (off < b) && decide (a < off + len)
/-- The lowest entry that matches a rank and range. -/
def State.replMatch (s : State) (rank off len : Nat) : Option Nat :=
  (List.range 64).find? fun e => s.rd FAB_REPL0_RANK e == rank && s.replRange e off len
/-- The replica a packet of an entry is aimed at. -/
def State.replica (s : State) (e : Nat) : Option Nat :=
  let ns := s.replNodes e
  if ns.contains (s.rd FAB_CTRL_NODE_ID) then some (s.rd FAB_CTRL_NODE_ID)
  else ns.find? fun n => s.nodeUp n && (List.range 8).any fun p => s.usable n 255 p
/-- HELD of every entry: the module's own node is listed (R363). -/
def State.setHeld (s : State) : State :=
  (List.range 64).foldl (fun s e => s.flag FAB_REPL0_HELD e ((s.replNodes e).contains (s.rd FAB_CTRL_NODE_ID))) s

/-! ### Starting commands (R151, R153, R332, R333) -/

/-- Consecutive packets of a command over its remote range, 256 B each. -/
def splitCmd (mk : Nat → Nat → Nat → Bool → FabPkt) (off len : Nat) : Nat → Nat → List FabPkt
  | 0, _ => []
  | n + 1, i => mk i (off + 256 * i) (min 256 (len - 256 * i)) (n == 0) :: splitCmd mk off len n (i + 1)

/-- Issue a command's packets on its flow; a flow whose plane is not UP detours at once (log 37). -/
def State.issue (s : State) (c : FabCmd) (node off len role epoch aop : Nat) (w64 : Bool) (data : List Byte) (bad : List Bool) : State :=
  let f := c.flow
  let seq := s.rd FAB_FLOW1_NEXT_SEQ f
  let me := s.rd FAB_CTRL_NODE_ID
  let n := if c.typ = pATOM then 1 else (len + 255) / 256
  let mk (i o l : Nat) (last : Bool) : FabPkt :=
    let e := if c.typ = pLD ∧ f ≠ 4095 then s.replMatch c.rank o l else none
    let dst := match e with | some e => (s.replica e).getD node | none => node
    let units := (List.range ((l + 31) / 32)).filter fun u => bad.getD (8 * i + u) false
    let pm := if c.typ = pLD then 0 else units.foldl (fun m u => m + 2 ^ u) 0
    ⟨c.cid, ⟨c.typ, 0, dst, me, 0, last, f, 0, pm, (seq + i) % 2 ^ 32, o, if c.typ = pATOM then data.length else l, epoch,
      if e.isSome then 7 else role, aop, w64, 0, i, 0,
      if c.typ = pLD then [] else if c.typ = pATOM then data else (data.drop (256 * i)).take l⟩, e, false, true, none⟩
  let ps := splitCmd mk off len n 0
  let s := s.wr FAB_FLOW1_NEXT_SEQ f ((seq + n) % 2 ^ 32)
  let down := s.planeSt (s.rd FAB_FLOW0_CUR_PLANE f) != planeUp
  let s := (s.onFab fun x => { x with cmds := x.cmds ++ [c], pkts := x.pkts ++ ps, nextCid := x.nextCid + 1,
                                      downFlows := if down && !x.downFlows.contains f then x.downFlows ++ [f] else x.downFlows }).countOut f
  (ps.filter fun p => match p.repl with | some e => (s.replica e).isNone | none => !s.nodeUp p.pkt.dst).foldl
    (fun s p => s.ackPkt p cTARGET_LOST) s

/-- The conditions a tile's command meets before anything is sent, in R7's order. -/
def State.fabCause (s : State) (m : MoveCmd) (typ : Nat) : Nat :=
  let rank := m.osfAt 39 8
  let f := m.osfAt 47 12
  let off := m.rb.toNat
  let node := s.rd FAB_RANK_NODE rank
  let w := if m.osfAt 62 1 = 1 then 8 else 4
  let start := if typ = pATOM then off else align32 off
  let bytes := if typ = pATOM then w else m.bytes
  armCode [(cPERM, f == 4095 || !s.on FAB_FLOW0_OPEN f || s.rd FAB_FLOW0_RANK f != rank),
    (cADDR_FAULT, !m.localOk || decide (2 ^ 46 ≤ off) || !s.on FAB_RANK_VALID rank || decide (2 ^ 46 < start + bytes)
      || (typ == pATOM && off % w != 0)),
    (cTARGET_LOST, !s.nodeUp node && !(typ == pLD && (s.replMatch rank start bytes).isSome)),
    (cREPLICA_WRITE, typ != pLD && (s.replMatch rank start bytes).isSome),
    (cTIMEOUT, s.on FAB_FLOW0_FAILED f)]

/-- FLD, FST and FATM start. -/
def startFabric (typ : Nat) (pt : At) (m : MoveCmd) (s : State) : State :=
  let d := pt.die.val
  let rank := m.osfAt 39 8
  let f := m.osfAt 47 12
  let off := if typ = pATOM then m.rb.toNat else align32 m.rb.toNat
  let node := s.rd FAB_RANK_NODE rank
  if m.len = 0 then s.endAt pt m cOK else
  match s.fabCause m typ with
  | 0 =>
    let w64 := m.osfAt 62 1 == 1
    let w := if w64 then 8 else 4
    let t := (s.tile (tileKey pt.die pt.tile)).settle pt.cyc
    let bad := t.badUnits m.la32 m.bytes
    let (t, data, p) := if typ = pLD then (t, [], false) else t.readLocal m
    let data := if typ = pATOM then data.take w ++ (if m.osfAt 59 3 = 2 then (data.drop 8).take w else []) else data
    let s := s.putTile d pt.tile.val (t.activate pt.cyc m (if p then cPOISON else cOK) 1 data p)
    s.issue ⟨s.fab.nextCid, f, rank, typ, some (d, pt.tile.val, m.id), false, m.la32, cOK, false, m.bytes, 0, none⟩ node off
      (if typ = pATOM then w else m.bytes) (m.rc.toNat / 2 ^ 16 % 8) (m.rc.toNat % 2 ^ 16) (if typ = pATOM then m.osfAt 59 3 else 0)
      (typ == pATOM && w64) data (if typ = pLD then [] else bad)
  | c =>
    let s := if logged c then s.reqLog (node * 2 ^ 46 + off % 2 ^ 46) c f rank d pt.tile.val false else s
    let s := if c = cTARGET_LOST then s.fault 0x56 0x30 f else s
    if c = cADDR_FAULT && !m.localOk then s.endFault pt m (outAddr m.la.toNat) else s.endAt pt m c

/-! ### FAB_DIRECT (R331; log 38) -/

/-- A FAB_DIRECT that fails before anything is sent. -/
def State.directFail (s : State) (node start code : Nat) : State :=
  let s := if code = cTARGET_LOST then s.fault 0x56 0x30 4095 else s
  let s := if logged code then s.reqLog (node * 2 ^ 46 + start % 2 ^ 46) code 4095 (node % 64) 0x30 0 false else s
  (s.wr FAB_DIRECT_CMD_CODE 0 code).wr FAB_DIRECT_CMD_BUSY 0 0
/-- Bytes of the remote range: whole 32 B units at least, as LD and ST packets carry (R324), or the operand of an atomic. -/
def directBytes (op len : Nat) (w64 : Bool) : Nat := if op = 2 then (if w64 then 8 else 4) else max 32 len
/-- Bytes of the buffer that a store or an atomic reads. -/
def directSource (op aop len : Nat) : Nat := if op = 2 then (if aop = 2 then 16 else 8) else max 32 len
/-- The access is sent, with the data read from the buffer: for an atomic, operand and compare value. -/
def State.directGo (s : State) (op node aop : Nat) (w64 : Bool) (len off buf code : Nat) (data : List Byte) (bad : List Bool) : State :=
  let start := if op = 2 then off else align32 off
  let w := if w64 then 8 else 4
  let data := if op = 2 then data.take w ++ (if aop = 2 then (data.drop 8).take w else []) else data
  if code ≠ cOK ∧ code ≠ cPOISON then s.directFail node start code
  else s.issue ⟨s.fab.nextCid, 4095, node, op + 1, none, true, buf, if code = cPOISON then cPOISON else cOK, false, len, 0, none⟩
    node start (directBytes op len w64) 7 0 (if op = 2 then aop else 0) (op == 2 && w64) data bad

/-- A FAB_DIRECT access of an operation: 0 load, 1 store, 2 atomic. -/
def State.direct (s : State) (op master node : Nat) (aop : Nat) (w64 : Bool) (len off buf : Nat) : State :=
  if !s.mayFab master then s.refuse master 0x900300
  else if s.on FAB_DIRECT_CMD_BUSY then s
  else
    let s := (((s.wr FAB_DIRECT_CMD_NODE 0 node).wr FAB_DIRECT_CMD_OP 0 op).wr FAB_DIRECT_CMD_AOP 0 aop).flag FAB_DIRECT_CMD_W64 0 w64
    let s := ((s.wr FAB_DIRECT_CMD_LEN 0 len).wr FAB_DIRECT_OFF_OFFSET 0 off).wr FAB_DIRECT_BUF_ADDR 0 buf
    let s := s.wr FAB_FLOW0_RANK 4095 node
    let n := directBytes op len w64
    let hole := !paOk buf (if op = 0 then max 1 len else directSource op aop len)
    let start := if op = 2 then off else align32 off
    let code := armCode [(cADDR_FAULT, hole || decide (2 ^ 46 < start + n) || (op == 2 && off % n != 0)),
      (cUNSUPPORTED, (op != 2 && (len == 0 || decide (256 < len))) || (op == 2 && decide (4 < aop))),
      (cTARGET_LOST, !s.nodeUp node || (op != 0 && (s.shg (paStack buf)).lost)), (cTIMEOUT, s.on FAB_FLOW0_FAILED 4095)]
    if code ≠ cOK then (if code = cADDR_FAULT && hole then s.paFault 0x30 0 buf else s).directFail node start code
    else
      let s := s.wr FAB_DIRECT_CMD_BUSY 0 1
      if op = 0 then s.directGo op node aop w64 len off buf cOK [] []
      else s.hrbLoad buf (directSource op aop len) (.directRead op node aop w64 len off buf)

def execFabDirectLoad (master : Master) (node : Fin 64) (len : BitVec 9) (off : BitVec 46) (buf : BitVec 41) (s : State) : Res :=
  .next (s.direct 0 master.val node.val 0 false len.toNat off.toNat buf.toNat)
def execFabDirectStore (master : Master) (node : Fin 64) (len : BitVec 9) (off : BitVec 46) (buf : BitVec 41) (s : State) : Res :=
  .next (s.direct 1 master.val node.val 0 false len.toNat off.toNat buf.toNat)
def execFabDirectAtomic (master : Master) (node : Fin 64) (aop : BitVec 3) (w64 : Bool) (off : BitVec 46) (buf : BitVec 41)
    (s : State) : Res := .next (s.direct 2 master.val node.val aop.toNat w64 0 off.toNat buf.toNat)

/-! ### Sending (R326, R327, R334, R357) -/

def State.credit (s : State) (plane vc : Nat) : Nat := smGet (fun _ => 0) s.fab.credits (plane * 4 + vc)
/-- Sequence numbers of a flow that may be sent start at its oldest unacknowledged one. -/
def State.windowOk (s : State) (p : FabPkt) : Bool :=
  match s.fab.pkts.find? fun q => q.pkt.flow == p.pkt.flow with
  | some q => decide ((p.pkt.seq + 2 ^ 32 - q.pkt.seq) % 2 ^ 32 < 1024)
  | none => true
/-- An atomic waits until its REQ_ID has not been sent within 2 ms. -/
def State.reqFree (s : State) (p : FabPkt) : Bool :=
  p.pkt.typ != pATOM || p.named || (let w := smGet (fun _ => 0) s.fab.reqSent s.fab.nextReq
    w == 0 || decide (w + 200000 ≤ s.wall + 1))

/-- The VC of a flow's requests. -/
def State.flowVc (s : State) (f : Nat) : Nat := if s.on FAB_FLOW0_DETOURED f then 3 else 0

/-- What a port sends next: strict priority VC2, VC1, VC0, VC3 among packets that have their credits. -/
def State.nextOut (s : State) (plane vc : Nat) : Option FabOut :=
  match s.fab.outq.find? fun o => o.1 == plane && o.2.vc == vc with
  | some o => if o.2.credits ≤ s.credit plane vc then some o else none
  | none => none
def State.nextReqPkt (s : State) (plane vc : Nat) : Option FabPkt :=
  s.fab.pkts.find? fun p => p.queued && s.rd FAB_FLOW0_CUR_PLANE p.pkt.flow == plane && s.flowVc p.pkt.flow == vc && s.windowOk p
    && s.reqFree p && decide (p.pkt.credits ≤ s.credit plane vc)

/-- Invert one bit of a payload, or of the header's first 28 bytes when there is none. -/
def flipBit (bs : List Byte) (v : Nat) : List Byte :=
  let b := if 32 < bs.length then 256 + v % (8 * (bs.length - 32)) else v % 224
  listSet bs (b / 8) ((bs.getD (b / 8) 0) ^^^ BitVec.ofNat 8 (2 ^ (b % 8)))

/-- Whether a Squall drill perturbs a fabric port. -/
def State.drillPort (s : State) (plane : Nat) : Bool :=
  s.on FAB_SQUALL_CTRL_EN && s.rd FAB_SQUALL_CTRL_TARGET == 0 && (s.rd FAB_SQUALL_CTRL_PORTS).testBit plane

/-- A packet of a held one's port has left ahead of it. -/
def SquallHold.overtake (plane : Nat) (h : SquallHold) : SquallHold := if h.plane == plane then { h with left := h.left - 1 } else h
/-- A packet leaves on a port: its credits go, held packets are overtaken, and a drill may perturb it. -/
def State.transmit (s : State) (plane : Nat) (p : Pkt) : State :=
  let bs := p.bytes plane
  let pay (s : State) : State := s.onFab fun x => { x with credits := smUpd (fun _ => 0) x.credits (plane * 4 + p.vc) (· - p.credits) }
  let take (s : State) : State := (pay s).onFab fun x => { x with
    squall := x.squall.map (SquallHold.overtake plane) }
  if s.drillPort plane && p.vc != 2 then
    let (s, c, bit) := s.squallDraw
    match c with
    | 0 => (take s).emit (.fabric plane bs)
    | 1 => s
    | 2 => (take s).emit (.fabric plane (flipBit bs bit))
    | _ =>
      let s := pay s
      s.onFab fun x => { x with squall := x.squall ++ [⟨plane, bs, max 1 (s.rd FAB_SQUALL_RATE_DELAY), s.wall⟩] }
  else (take s).emit (.fabric plane bs)

/-- Send a request packet of a flow. -/
def State.sendReq (s : State) (plane vc : Nat) (p : FabPkt) : State :=
  let f := p.pkt.flow
  let atom := p.pkt.typ == pATOM
  let req := if atom && !p.named then s.fab.nextReq else p.pkt.req
  let pk := { p.pkt with vc := vc, attempt := s.rd FAB_FLOW0_ATTEMPT f, pathEpoch := s.rd FAB_FLOW0_PATH_EPOCH f, req := req }
  let s := s.onFab fun x => { x with
    pkts := x.pkts.map fun q => if q == p then { p with pkt := { p.pkt with req := req }, named := true, queued := false, sent := some s.wall } else q,
    nextReq := if atom && !p.named then (x.nextReq + 1) % 65536 else x.nextReq,
    reqSent := if atom then smSet (fun _ => 0) x.reqSent req (s.wall + 1) else x.reqSent }
  s.transmit plane pk

/-- FABRIC_PACKET_SEND: a port sends its next packet. -/
def execFabricPacketSend (plane : Fin 8) (s : State) : Res :=
  let k := plane.val
  if !s.on FAB_CTRL_NODE_VALID ∨ s.planeSt k ≠ planeUp ∨ s.safe then .next s else
  let out (o : FabOut) : State := (s.onFab fun x => { x with outq := x.outq.erase o }).transmit k o.2
  match s.nextOut k 2, s.nextOut k 1, s.nextReqPkt k 0, s.nextReqPkt k 3 with
  | some o, _, _, _ => .next (out o)
  | none, some o, _, _ => .next (out o)
  | none, none, some p, _ => .next (s.sendReq k 0 p)
  | none, none, none, some p => .next (s.sendReq k 3 p)
  | none, none, none, none => .next s

/-- Whether a fibre port's transmitters may send: powered and outside safe state, which turns them off (R257). -/
def State.portLit (s : State) (port : Nat) : Bool := !s.safe && !(s.rd HRN_PORTLIGHT_OFF).testBit port

/-- CREDIT_RETURN: the P16 frees a receive buffer unit and returns its credit over a plane that is UP, or a plane returns one
to the P16. -/
def execCreditReturn (plane : Fin 8) (vc : Fin 4) (inward : Bool) (s : State) : Res :=
  let k := plane.val * 4 + vc.val
  if inward then .next (s.onFab fun x => { x with credits := smUpd (fun _ => 0) x.credits k (fun c => min 255 (c + 1)) })
  else if smGet (fun _ => 0) s.fab.held k = 0 ∨ !s.portLit plane.val ∨ s.planeSt plane.val ≠ planeUp then .next s
  else .next ((s.onFab fun x => { x with held := smUpd (fun _ => 0) x.held k (· - 1) }).emit (.credit plane.val vc.val))

/-- SQUALL_REORDER_RELEASE: the oldest held packet of a port (8 and 9 are the twin ports) that DELAY packets have overtaken, or that has
been held 10 µs, leaves, and overtakes the others; a port that cannot send loses it. -/
def execSquallReorderRelease (plane : Fin 10) (s : State) : Res :=
  if 8 ≤ plane.val then
    match s.twn.squall.find? fun h => h.port + 8 == plane.val && (h.left == 0 || decide (h.since + 1000 ≤ s.wall)) with
    | none => .next s
    | some h =>
      let s := { s with twn := { s.twn with squall := (s.twn.squall.erase h).map fun x : TwinHeld => if x.port == h.port then { x with left := x.left - 1 } else x } }
      .next (if s.portLit plane.val then s.emit h.frame else s)
  else
  match s.fab.squall.find? fun h => h.plane == plane.val && (h.left == 0 || decide (h.since + 1000 ≤ s.wall)) with
  | none => .next s
  | some h =>
    let s := s.onFab fun x => { x with squall := (x.squall.erase h).map (SquallHold.overtake plane.val) }
    .next (if s.portLit plane.val && s.planeSt plane.val == planeUp then s.emit (.fabric plane.val h.data) else s)

/-! ### Planes (R322, R336) -/

/-- A plane enters DOWN (or DISABLED) from another state: its flows are to detour and its queued responses find
another plane. -/
def State.planeOff (s : State) (p st cause : Nat) : State :=
  let was := s.planeSt p
  let s := (s.wr FAB_PLANE_STATE p st).wr FAB_PLANE_DOWN_CAUSE p cause
  if was = planeDown ∨ was = planeDisabled then s
  else
    let s := s.fault 0x51 0x30 p
    let mine := (List.range 4096).filter fun f => (s.on FAB_FLOW0_OPEN f || (s.fab.pkts.any fun q => q.pkt.flow == f))
      && s.rd FAB_FLOW0_CUR_PLANE f == p
    let lost := s.fab.outq.filter fun o => o.1 == p
    let s := s.onFab fun x => { x with downFlows := x.downFlows ++ mine.filter fun f => !x.downFlows.contains f,
                                       outq := x.outq.filter fun o => o.1 != p }
    lost.foldl (fun s o => s.sendOut p o.2) s

/-- A plane leaves DOWN for TRAINING, unless DISABLE holds it (R336). -/
def State.planeTrain (s : State) (p : Nat) : State :=
  s.wr FAB_PLANE_STATE p (if s.on FAB_PLANE_DISABLE p then planeDisabled else planeTraining)
/-- A plane is UP: detoured flows with this home may return. -/
def State.planeOn (s : State) (p : Nat) : State :=
  let home := (List.range 4096).filter fun f => s.on FAB_FLOW0_DETOURED f && s.rd FAB_FLOW0_HOME f == p
  let s := (s.wr FAB_PLANE_STATE p planeUp).wr FAB_PLANE_DOWN_CAUSE p 0
  s.onFab fun x => { x with mayReturn := x.mayReturn ++ home.filter fun f => !x.mayReturn.contains f,
                            detours := smSet (fun _ => []) x.detours p [] }

/-- FABRIC_PORT_DOWN: a lane loses lock for 1 µs, or the port opens. -/
def execFabricPortDown (plane : Fin 8) (opened : Bool) (s : State) : Res :=
  let p := plane.val
  let s := s.onFab fun x => { x with link := x.link.filter (· != p) }
  .next (if s.planeSt p = planeDisabled then s else s.planeOff p planeDown (if opened then 2 else 1))

/-- FABRIC_PORT_UP: a port that is down, neither open nor off, retrains by itself: its plane enters TRAINING; in TRAINING, all
eight lanes hold lock and credits (64 to 255 for each VC) have been exchanged, and the plane is UP (log 99). -/
def execFabricPortUp (plane : Fin 8) (credits : List Nat) (s : State) : Res :=
  let p := plane.val
  if !s.portLit p ∨ (s.rd HRN_PORTLIGHT_OPEN).testBit p = true then .next s
  else if s.planeSt p = planeDown ∨ s.on FAB_PLANE_DISABLE p = true then .next (s.planeTrain p)
  else if s.planeSt p = planeUp then .next s
  else
  let s := s.onFab fun x => { x with
    link := if x.link.contains p then x.link else x.link ++ [p],
    credits := (List.range 4).foldl (fun m v => smSet (fun _ => 0) m (p * 4 + v) (min 255 (credits.getD v 64))) x.credits,
    held := (List.range 4).foldl (fun m v => smSet (fun _ => 0) m (p * 4 + v) 0) x.held }
  .next (s.planeOn p)

/-- FIBRE_PORT_OPEN: an open port's transmitters change to probe mode, with a NOTE, and a fabric port's plane goes down
(R256, R322). -/
def execFibrePortOpen (port : Fin 10) (s : State) : Res :=
  let s := s.openPort port.val
  if 8 ≤ port.val then .next s else
  let s := s.onFab fun x => { x with link := x.link.filter (· != port.val) }
  .next (if s.planeSt port.val = planeDisabled then s else s.planeOff port.val planeDown 2)
/-- FIBRE_PORT_RESTORED: after 100 ms of received light an open port returns to full power and starts link training. -/
def execFibrePortRestored (port : Fin 10) (s : State) : Res :=
  if !(s.rd HRN_PORTLIGHT_OPEN).testBit port.val ∨ !s.portLit port.val then .next s else
  let s := s.wr HRN_PORTLIGHT_OPEN 0 (setBit (s.rd HRN_PORTLIGHT_OPEN) port.val false)
  .next (if port.val < 8 ∧ s.planeSt port.val = planeDown then s.planeTrain port.val else s)

/-- PLANE_DISABLE: DISABLE holds a plane DISABLED; clearing it lets the plane train again. -/
def execPlaneDisable (plane : Fin 8) (master : Master) (disable : Bool) (s : State) : Res :=
  let p := plane.val
  if !s.mayFab master.val then .next (s.refuse master.val (0x900100 + 8 * p))
  else
    let s := s.flag FAB_PLANE_DISABLE p disable
    .next (if disable then s.planeOff p planeDisabled 5
      else if s.planeSt p = planeDisabled then s.wr FAB_PLANE_STATE p planeTraining else s)

/-! ### Detour, timeout and return (R337 to R339) -/

/-- DETOUR_TO in reference ticks. -/
def State.detourTo (s : State) : Nat := 100 * min 200 (max 5 (s.rd FAB_CTRL_DETOUR_TO))
/-- The flow's oldest unacknowledged packet has waited DETOUR_TO since it was last sent. -/
def State.flowLate (s : State) (f : Nat) : Bool :=
  match s.fab.pkts.find? fun p => p.pkt.flow == f with
  | some p => (match p.sent with | some w => decide (w + s.detourTo ≤ s.wall) | none => false)
  | none => false

/-- PLANE_TRIP detours away from a plane within 1 ms take it DOWN. -/
def State.countDetour (s : State) (p : Nat) : State :=
  let s := (s.bump FAB_PLANE_DETOURS p 1).fault 0x50 0x30 p
  let recent := s.wall :: (smGet (fun _ => []) s.fab.detours p).filter fun w => decide (s.wall < w + 100000)
  let s := s.onFab fun x => { x with detours := smSet (fun _ => []) x.detours p recent }
  if max 1 (s.rd FAB_CTRL_PLANE_TRIP) ≤ recent.length ∧ s.planeSt p = planeUp then s.planeOff p planeDown 3 else s

/-- The next plane after the current one, cyclically, that is UP and usable for the flow. -/
def State.nextPlane (s : State) (f : Nat) : Option Nat :=
  let cur := s.rd FAB_FLOW0_CUR_PLANE f
  let (n, m) := s.flowNode f
  ((List.range 8).map fun i => (cur + 1 + i) % 8).find? fun p => s.usable n m p

/-- DETOUR: a flow moves plane and sends every unacknowledged packet again in VC3. -/
def execDetour (flow : Fin 4096) (s : State) : Res :=
  let f := flow.val
  let down := s.fab.downFlows.contains f
  if !(down || s.flowLate f) ∨ s.rd FAB_FLOW0_ATTEMPT f = 4 then .next s else
  let old := s.rd FAB_FLOW0_CUR_PLANE f
  let fresh := !s.on FAB_FLOW0_DETOURED f
  let s := (((s.wr FAB_FLOW0_PATH_EPOCH f (s.rd FAB_FLOW0_PATH_EPOCH f + 1)).wr FAB_FLOW0_ATTEMPT f (s.rd FAB_FLOW0_ATTEMPT f + 1)).wr
    FAB_FLOW0_DETOURED f 1)
  let next := s.nextPlane f
  let s := match next with | some p => s.wr FAB_FLOW0_CUR_PLANE f p | none => s
  let s := s.onFab fun x => { x with
    downFlows := x.downFlows.filter (· != f), mayReturn := if fresh then x.mayReturn.filter (· != f) else x.mayReturn,
    pkts := x.pkts.map fun p => if p.pkt.flow == f && (p.sent.isSome || s.windowOk p) then
      { p with queued := next.isSome, sent := some s.wall } else p }
  .next (s.countDetour old)

/-- ATTEMPT_TIMEOUT: attempt 4 times out: the flow's commands complete with TIMEOUT and the flow fails. -/
def execAttemptTimeout (flow : Fin 4096) (s : State) : Res :=
  let f := flow.val
  if s.rd FAB_FLOW0_ATTEMPT f ≠ 4 ∨ !(s.flowLate f || s.fab.downFlows.contains f) then .next s else
  let ps := s.fab.pkts.filter fun p => p.pkt.flow == f
  let s := s.onFab fun x => { x with downFlows := x.downFlows.filter (· != f) }
  let s := ps.foldl (fun s p => s.ackPkt p cTIMEOUT) s
  .next ((s.wr FAB_FLOW0_FAILED f 1).fault 0x52 0x30 f)

/-- FLOW_RETURN: a detoured flow with nothing outstanding returns to HOME once HOME has come UP since the detour, or
RETURN has been written. -/
def execFlowReturn (flow : Fin 4096) (s : State) : Res :=
  let f := flow.val
  if !s.on FAB_FLOW0_DETOURED f ∨ s.on FAB_FLOW1_OUTSTANDING f ∨ !s.fab.mayReturn.contains f then .next s else
  let s := ((s.wr FAB_FLOW0_CUR_PLANE f (s.rd FAB_FLOW0_HOME f)).wr FAB_FLOW0_PATH_EPOCH f (s.rd FAB_FLOW0_PATH_EPOCH f + 1)).wr FAB_FLOW0_ATTEMPT f 0
  .next ((s.wr FAB_FLOW0_DETOURED f 0).onFab fun x => { x with mayReturn := x.mayReturn.filter (· != f) })

/-- RETURN: permits a detoured flow to return home. -/
def execReturnHome (flow : Fin 4096) (master : Master) (s : State) : Res :=
  let f := flow.val
  if !s.mayFab master.val then .next (s.refuse master.val (0x908000 + 16 * f))
  else if !s.on FAB_FLOW0_DETOURED f ∨ s.fab.mayReturn.contains f then .next s
  else .next (s.onFab fun x => { x with mayReturn := x.mayReturn ++ [f] })

/-! ### Opening and closing flows (R332) -/

/-- FLOW_OPEN: OPEN = 1 binds a flow to a rank and a home plane; an open flow ignores it. -/
def execFlowOpen (flow : Fin 4096) (master : Master) (rank : BitVec 8) (home : Fin 8) (s : State) : Res :=
  let f := flow.val
  if !s.mayFab master.val then .next (s.refuse master.val (0x908000 + 16 * f))
  else if s.on FAB_FLOW0_OPEN f then .next s
  else
    let s := ((s.wr FAB_FLOW0_OPEN f 1).wr FAB_FLOW0_RANK f rank.toNat).wr FAB_FLOW0_HOME f home.val
    let s := (((s.wr FAB_FLOW0_CUR_PLANE f home.val).wr FAB_FLOW0_ATTEMPT f 0).wr FAB_FLOW0_FAILED f 0).wr FAB_FLOW0_DETOURED f 0
    .next ((s.wr FAB_FLOW1_NEXT_SEQ f 0).onFab fun x => { x with downFlows := x.downFlows.filter (· != f), mayReturn := x.mayReturn.filter (· != f) })

/-- A management packet of this module. -/
def State.mgmt (s : State) (dst flow : Nat) (data : List Byte) : Pkt :=
  ⟨pMGMT, 2, dst, s.rd FAB_CTRL_NODE_ID, 0, false, flow, 0, 0, 0, 0, data.length, 0, 0, 0, false, 0, 0, 0, data⟩

/-- FLOW_CLOSE_REQUEST: OPEN = 0 closes a flow with nothing outstanding and tells its node. -/
def execFlowCloseRequest (flow : Fin 4096) (master : Master) (s : State) : Res :=
  let f := flow.val
  if !s.mayFab master.val then .next (s.refuse master.val (0x908000 + 16 * f))
  else if !s.on FAB_FLOW0_OPEN f ∨ s.on FAB_FLOW1_OUTSTANDING f then .next s
  else
    let s := s.wr FAB_FLOW0_OPEN f 0
    let s := s.onFab fun x => { x with downFlows := x.downFlows.filter (· != f), mayReturn := x.mayReturn.filter (· != f) }
    .next (s.sendOut (s.rd FAB_FLOW0_CUR_PLANE f) (s.mgmt (s.flowNode f).1 0 (leBytes 1 4 ++ leBytes 1 0 ++ leBytes 2 f)))

/-! ### Targets (R335, R348 to R351, R358, R359) -/

/-- `a` is newer than `b` by fewer than half the sequence numbers. -/
def seqAfter (a b : Nat) : Bool := decide (0 < (a + 2 ^ 32 - b) % 2 ^ 32) && decide ((a + 2 ^ 32 - b) % 2 ^ 32 < 2 ^ 31)
def State.inCtx (s : State) (p : Pkt) : Option InCtx := s.fab.ctxs.find? fun c => c.node == p.src && c.flow == p.flow
/-- Whether a request is older than its context's window, and whether it has been applied. -/
def InCtx.old (c : InCtx) (seq : Nat) : Bool := seqAfter c.top seq && decide (1024 ≤ (c.top + 2 ^ 32 - seq) % 2 ^ 32)
def State.applied (s : State) (p : Pkt) : Bool := match s.inCtx p with | some c => c.done.contains p.seq | none => false
/-- A context sees a sequence number; `done` sets its bit, if the context is still there. -/
def InCtx.see (c : InCtx) (seq : Nat) (done : Bool) : InCtx :=
  let top := if seqAfter seq c.top then seq else c.top
  let ds := if done && !c.done.contains seq then c.done ++ [seq] else c.done
  { c with top := top, done := ds.filter fun x => decide ((top + 2 ^ 32 - x) % 2 ^ 32 < 1024) }
def State.see (s : State) (p : Pkt) (done : Bool) : State :=
  match s.inCtx p with
  | some c => s.onFab fun x => { x with ctxs := x.ctxs.map fun e => if e == c then c.see p.seq done else e }
  | none => if done then s else s.onFab fun x => { x with ctxs := x.ctxs ++ [(⟨p.src, p.flow, p.seq, []⟩ : InCtx).see p.seq false] }
/-- The first request from a key allocates its context, if one is free (R335). -/
def State.meet (s : State) (p : Pkt) : State :=
  if (s.inCtx p).isSome || decide (s.fab.ctxs.length < 4096) then s.see p false else s

/-- A response to a request (R324). A ROLE_MOVED response carries the record of R294 in its EPOCH, ROLE and PMASK
fields (log 39). -/
def State.respond (s : State) (plane : Nat) (p : Pkt) (code pmask plen : Nat) (data : List Byte) : State :=
  let moved := code == cROLE_MOVED
  s.sendOut plane ⟨p.typ + 3, 1, p.src, p.dst, p.attempt, false, p.flow, p.pathEpoch,
    if moved then s.rd TID_MROLE_FWD_RANK else pmask, p.seq, p.off, plen,
    if moved then s.rd TID_MROLE_MEPOCH else 0, if moved then s.rd TID_MROLE_MROLE else 0, 0, false, code, p.midx, p.req, data⟩

/-- Codes FAB_TGTLOG records. -/
def tgtLogged (c : Nat) : Bool := [cADDR_FAULT, cPERM, cUNSUPPORTED, cSTALE_ATOMIC, cREPLICA_WRITE, cCAPACITY, cTIMEOUT].contains c
/-- A request is answered without an access. -/
def State.refuseReq (s : State) (plane : Nat) (p : Pkt) (code : Nat) : State :=
  let s := if tgtLogged code then s.tgtLog p code else s
  let s := if code = cADDR_FAULT ∨ code = cPERM ∨ code = cREPLICA_WRITE then s.fault 0x55 0x30 p.src
    else if code = cCAPACITY then s.fault 0x54 0x30 p.src
    else if code = cSTALE_ATOMIC then (s.bump FAB_ATOM_STALE 0 1).fault 0x57 0x30 p.src
    else if code = cTIMEOUT ∧ p.typ = pATOM then s.fault 0x58 0x30 p.src else s
  s.respond plane p code 0 (if p.typ = pST then p.plen else 0) []

/-- Whether the module answers no access now: low power, safe state or QUIET (R366, R444). -/
def State.quietFor (s : State) (p : Pkt) : Bool := !s.awake || s.safe || (s.on FAB_TEAR_QUIET && p.flow != 4095)

/-- R325 step 4 with R292 and R363: the code that stops a request, or OK. -/
def State.tgtCause (s : State) (p : Pkt) : Nat :=
  let a := if p.typ = pATOM then p.off else align32 p.off
  let n := if p.typ = pATOM then (if p.w64 then 8 else 4) else p.plen
  armCode [(cPERM, !s.nodeUp p.src), (cADDR_FAULT, !paOk a n || (p.typ == pATOM && p.off % n != 0)),
    (cUNSUPPORTED, p.role == 5 || p.role == 6 || (p.typ == pATOM && decide (4 < p.aop))),
    (cROLE_MOVED, decide (p.role < 5) && (p.role != s.rd TID_MROLE_MROLE || p.epoch != s.rd TID_MROLE_MEPOCH)),
    (cREPLICA_WRITE, p.typ != pLD && (List.range 64).any fun e => s.on FAB_REPL0_HELD e && s.replRange e a n),
    (cCAPACITY, (s.inCtx p).isNone)]

/-- LD: a load request is checked, and its data read from HBM; then it is answered (R349, R351). -/
def State.tgtLd (s : State) (plane : Nat) (p : Pkt) : State :=
  match s.tgtCause p with
  | 0 =>
    if (s.shg (paStack p.off)).lost then s.refuseReq plane p cTARGET_LOST
    else s.hrbLoad (align32 p.off) p.plen (.target plane p)
  | c => s.refuseReq plane p c
def State.tgtLdEnd (s : State) (plane : Nat) (p : Pkt) (code : Nat) (data : List Byte) (bad : List Bool) : State :=
  if code = cOK ∨ code = cPOISON then
    let pm := if code = cPOISON then ((List.range bad.length).filter fun u => bad.getD u false).foldl (fun m u => m + 2 ^ u) 0 else 0
    (s.see p true).respond plane p code pm p.plen (data.take p.plen)
  else s.refuseReq plane p code

/-- ST: a store request is checked, applied once and answered after commit. -/
def State.tgtSt (s : State) (plane : Nat) (p : Pkt) : State :=
  match s.tgtCause p with
  | 0 =>
    if s.applied p then s.respond plane p cOK 0 p.plen []
    else if (s.shg (paStack p.off)).lost then s.refuseReq plane p cTARGET_LOST
    else s.hrbStore (align32 p.off) p.data (maskBad p.pmask ((p.plen + 31) / 32)) (.target plane p)
  | c => s.refuseReq plane p c
def State.tgtStEnd (s : State) (plane : Nat) (p : Pkt) (code : Nat) : State :=
  if code = cOK then (s.see p true).respond plane p (if p.pmask = 0 then cOK else cPOISON) 0 p.plen []
  else s.refuseReq plane p code

/-- The result of an atomic (R153, R356). -/
def atomOp (aop w old x cmp : Nat) : Nat :=
  match aop with
  | 0 => (old + x) % 2 ^ (8 * w)
  | 1 => x
  | 2 => if old = cmp then x else old
  | 3 => if sextN (8 * w) x < sextN (8 * w) old then x else old
  | _ => if sextN (8 * w) old < sextN (8 * w) x then x else old

/-- The reply cache will take an entry beside those of the atomics in progress: a free place, or one at least 2 ms old; none
when all are younger (R358). -/
def State.cacheRoom (s : State) : Bool :=
  let n := s.fab.cache.length + (s.fab.atoms.filter (·.2.2)).length
  decide (n < 4096) || (match s.fab.cache[n - 4096]? with | some e => decide (e.wall + 200000 ≤ s.wall) | none => false)
def State.cachePut (s : State) (e : Reply) : State :=
  let s := s.onFab fun x => { x with cache := (if x.cache.length < 4096 then x.cache else x.cache.drop 1) ++ [e] }
  s.wr FAB_ATOM_ENTRIES 0 s.fab.cache.length

/-- Width of an atomic's operand. -/
def Pkt.width (p : Pkt) : Nat := if p.w64 then 8 else 4
/-- The new value of an atomic's operand. -/
def Pkt.newValue (p : Pkt) (old : Nat) : Nat :=
  atomOp p.aop p.width old (leNat (p.data.take p.width)) (leNat ((p.data.drop p.width).take p.width))
/-- An atomic is answered with OK, POISON or TIMEOUT, which its cache entry keeps (R358). -/
def State.answerAtom (s : State) (plane : Nat) (p : Pkt) (code old : Nat) : State :=
  let s := s.cachePut ⟨p.src, p.req, p.flow, p.seq, code, if code = cOK then old else 0, s.wall⟩
  if code = cTIMEOUT then s.refuseReq plane p code
  else (s.see p true).respond plane p code 0 (if code = cOK then p.width else 0) (if code = cOK then leBytes p.width old else [])

/-- A new atomic passes its checks: its operand is read. The answer is whether its access runs. -/
def State.tgtAtomNew (s : State) (plane : Nat) (p : Pkt) : State × Bool :=
  match worstCode (s.tgtCause p) (if s.cacheRoom then cOK else cCAPACITY) with
  | 0 =>
    if (s.shg (paStack p.off)).lost then (s.refuseReq plane p cTARGET_LOST, false)
    else (s.hrbLoad p.off p.width (.target plane p), true)
  | c => ((if c = cCAPACITY && !s.cacheRoom then s.bump FAB_ATOM_FULL 0 1 else s).refuseReq plane p c, false)

/-- Whether a request is older than its window: a duplicate of an acknowledged sequence, dropped (R335). -/
def State.tooOld (s : State) (p : Pkt) : Bool := match s.inCtx p with | some c => c.old p.seq | none => false

/-- An atomic is decided: answered from the reply cache, refused as stale, or begun (R359). -/
def State.startAtom (s : State) (plane : Nat) (p : Pkt) : State × Bool :=
  let key := s.fab.cache.filter fun e => e.node == p.src && e.req == p.req
  match key.find? fun e => e.flow == p.flow && e.seq == p.seq with
  | some e =>
    let s := s.bump FAB_ATOM_HITS 0 1
    (if e.code = cOK then s.respond plane p cOK 0 p.width (leBytes p.width e.old) else s.respond plane p e.code 0 0 [], false)
  | none =>
    if s.tooOld p then (s, false)
    else if s.applied p || !key.isEmpty then (s.refuseReq plane p cSTALE_ATOMIC, false)
    else s.tgtAtomNew plane p

/-- The 32 B unit of an atomic. -/
def Pkt.unit (p : Pkt) : Nat := p.off / 32
/-- The atomics of one unit take their turns, until one whose access runs. -/
def State.runAtoms : List (Nat × Pkt × Bool) → State → State
  | [], s => s
  | x :: xs, s =>
    if x.2.2 then s else
    let s := s.onFab fun f => { f with atoms := f.atoms.erase x }
    match s.startAtom x.1 x.2.1 with
    | (s, true) => s.onFab fun f => { f with atoms := (x.1, x.2.1, true) :: f.atoms }
    | (s, false) => State.runAtoms xs s
def State.nextAtom (s : State) (unit : Nat) : State :=
  let mine := s.fab.atoms.filter fun x => x.2.1.unit == unit
  if mine.any (·.2.2) then s else State.runAtoms mine s
/-- ATOM: atomics of one 32 B unit are performed one at a time in arrival order (R356). -/
def State.tgtAtom (s : State) (plane : Nat) (p : Pkt) : State :=
  (s.onFab fun f => { f with atoms := f.atoms ++ [(plane, p, false)] }).nextAtom p.unit

/-- An atomic's turn ends. -/
def State.doneAtom (s : State) (plane : Nat) (p : Pkt) : State :=
  (s.onFab fun f => { f with atoms := f.atoms.erase (plane, p, true) }).nextAtom p.unit
/-- The operand of an atomic has been read: a poisoned one is not applied, and the result of another is written (R359). -/
def State.tgtAtomRead (s : State) (plane : Nat) (p : Pkt) (code : Nat) (data : List Byte) : State :=
  let old := leNat ((data.drop (p.off % 32)).take p.width)
  if code = cPOISON ∨ (code = cOK ∧ p.pmask ≠ 0) then (s.answerAtom plane p cPOISON 0).doneAtom plane p
  else if code = cTIMEOUT then (s.answerAtom plane p cTIMEOUT 0).doneAtom plane p
  else if code ≠ cOK then (s.refuseReq plane p code).doneAtom plane p
  else if (s.shg (paStack p.off)).lost then (s.refuseReq plane p cTARGET_LOST).doneAtom plane p
  else s.hrbStore p.off (leBytes p.width (p.newValue old)) [] (.atomic plane p old)
/-- The result of an atomic has been written. After a TIMEOUT the operand holds its old or its new value, as the write has
reached the Shingle or not. -/
def State.tgtAtomEnd (s : State) (plane : Nat) (p : Pkt) (code old : Nat) : State :=
  (if code = cOK ∨ code = cTIMEOUT then s.answerAtom plane p code old else s.refuseReq plane p code).doneAtom plane p
/-- The access of an inbound request has ended. -/
def State.targetEnd (s : State) (plane : Nat) (p : Pkt) (code : Nat) (data : List Byte) (bad : List Bool) : State :=
  if p.typ = pLD then s.tgtLdEnd plane p code data bad
  else if p.typ = pST then s.tgtStEnd plane p code
  else s.tgtAtomRead plane p code data

/-- A request: one in a quiet time is answered ABORTED, others are handled. An inbound request wakes a module in
low power (R443). -/
def State.tgtReq (s : State) (plane typ : Nat) (pkt : List Byte) (f : State → Nat → Pkt → State) : State :=
  s.arrive plane typ pkt fun p s =>
    if s.quietFor p then (s.respond plane p cABORTED 0 (if typ = pST then p.plen else 0) []).wake 5 else f (s.meet p) plane p

def execLd (plane : Fin 8) (pkt : List (BitVec 8)) (s : State) : Res := .next (s.tgtReq plane.val 1 pkt fun s k p => if s.tooOld p then s else s.tgtLd k p)
def execSt (plane : Fin 8) (pkt : List (BitVec 8)) (s : State) : Res := .next (s.tgtReq plane.val 2 pkt fun s k p => if s.tooOld p then s else s.tgtSt k p)
def execAtom (plane : Fin 8) (pkt : List (BitVec 8)) (s : State) : Res := .next (s.tgtReq plane.val 3 pkt State.tgtAtom)

/-! ### Management (R341, R364 to R366) -/

/-- A management packet of a kind; one that R341 does not allow is malformed. -/
def State.arriveMgmt (s : State) (plane kind : Nat) (pkt : List Byte) (ok : Pkt → Bool) (f : Pkt → State → State) : State :=
  s.arrive plane pMGMT pkt fun p s =>
    let k := leNat (p.data.take 1)
    let allowed := if k = 4 then s.nodeUp p.src else p.src == 63 && decide (1 ≤ k) && decide (k ≤ 3)
    let bad (s : State) : State := (s.bump FAB_PLANE_MALFORMED plane 1).fault 0x53 0x30 plane
    if !allowed then bad s else if k ≠ kind then s else if ok p then f p s else bad s

def Pkt.byte (p : Pkt) (i : Nat) : Nat := leNat ((p.data.drop i).take 1)

/-- PLANE_STATE: the fabric manager sets a plane down; or up, through TRAINING, when it or a detour trip took it down and the
link holds lock. -/
def execPlaneState (plane : Fin 8) (pkt : List (BitVec 8)) (s : State) : Res :=
  .next (s.arriveMgmt plane.val 1 pkt (fun p => decide (p.byte 1 < 8) && (p.byte 2 == 0 || p.byte 2 == 2)) fun p s =>
    let k := p.byte 1
    if s.planeSt k = planeDisabled then s
    else if p.byte 2 = 0 then s.planeOff k planeDown 4
    else if s.planeSt k ≠ planeUp && s.fab.link.contains k && !s.on FAB_PLANE_DISABLE k
        && (s.rd FAB_PLANE_DOWN_CAUSE k == 3 || s.rd FAB_PLANE_DOWN_CAUSE k == 4) then (s.planeTrain k).planeOn k
    else s)

/-- A replicated packet of a lost replica goes to the next eligible one under its sequence number. -/
def State.reaim (s : State) (p : FabPkt) : State :=
  match p.repl with
  | none => s.ackPkt p cTARGET_LOST
  | some e => match s.replica e with
    | none => s.ackPkt p cTARGET_LOST
    | some n => s.onFab fun x => { x with pkts := x.pkts.map fun q => if q == p then { p with pkt := { p.pkt with dst := n }, queued := true } else q }

/-- A node is LOST: its inbound contexts are released and the packets aimed at it are aimed again. -/
def State.nodeLost (s : State) (n : Nat) : State :=
  let s := s.onFab fun x => { x with ctxs := x.ctxs.filter fun c => c.node != n }
  (s.fab.pkts.filter fun q => q.pkt.dst == n).foldl (fun s q => s.reaim q) s

/-- NODE_STATE: the fabric manager sets a node's state; LOST ends what is outstanding to it. -/
def execNodeState (plane : Fin 8) (pkt : List (BitVec 8)) (s : State) : Res :=
  .next (s.arriveMgmt plane.val 2 pkt (fun p => decide (p.byte 1 < 63) && decide (p.byte 2 < 3)) fun p s =>
    let n := p.byte 1
    let s := (s.wr FAB_NODE_STATE n (p.byte 2)).wr FAB_NODE_PLANE_MASK n (p.byte 3)
    if p.byte 2 ≠ 2 then s else s.nodeLost n)

/-- FLOW_CLOSE: releases the sender's inbound context. -/
def execFlowClose (plane : Fin 8) (pkt : List (BitVec 8)) (s : State) : Res :=
  .next (s.arriveMgmt plane.val 4 pkt (fun _ => true) fun p s =>
    s.onFab fun x => { x with ctxs := x.ctxs.filter fun c => !(c.node == p.src && c.flow == leNat ((p.data.drop 2).take 2)) })

/-- The fabric steps of a teardown: commands of flows 0–4,094 record ABORTED, the flows close, contexts are
released, and QUIET begins. -/
def State.tearDown (s : State) : State :=
  let mine := s.fab.cmds.filter fun c => c.flow != 4095
  let s := s.onFab fun x => { x with
    pkts := x.pkts.filter fun p => p.pkt.flow == 4095, ctxs := x.ctxs.filter fun c => c.flow == 4095,
    downFlows := x.downFlows.filter (· == 4095), mayReturn := x.mayReturn.filter (· == 4095) }
  let s := mine.foldl (fun s c => s.endCmd { c with code := worstCode c.code cABORTED }) s
  let s := (List.range 4095).foldl (fun s f => if s.on FAB_FLOW0_OPEN f then (s.wr FAB_FLOW0_OPEN f 0).wr FAB_FLOW1_OUTSTANDING f 0 else s) s
  ((s.wr FAB_CTRL_LOCK 0 0).wr FAB_TEAR_QUIET 0 1).onFab fun x => { x with quiet := s.wall + 200000 }

/-- TEARDOWN: the named job is aborted, its fabric work ends and QUIET runs for 2 ms. -/
def execTeardown (plane : Fin 8) (pkt : List (BitVec 8)) (s : State) : Res :=
  .next (s.arriveMgmt plane.val 3 pkt (fun p => p.plen == 16 && decide (p.byte 1 < 3) && (p.byte 2 == 255 || decide (p.byte 2 < 63))
      && leNat ((p.data.drop 3).take 5) == 0) fun p s =>
    let plan := leNat ((p.data.drop 8).take 8)
    let s := (((s.wr FAB_TEAR_REASON 0 (p.byte 1)).wr FAB_TEAR_NODE 0 (if p.byte 2 = 255 then 63 else p.byte 2)).bump FAB_TEAR_COUNT 0 1).fault 0x59 0x30 0
    let mine := fun j : Job => plan == 0 || j.plan == plan
    if s.plans.any mine then
      (((s.wr FAB_TEAR_VALID 0 1).abortJobs 0x59 mine)).tearDown
    else if plan = 0 then s.tearDown else s)

/-- QUIET_END: the 2 ms window ends. -/
def execQuietEnd (s : State) : Res :=
  .next (if s.on FAB_TEAR_QUIET && decide (s.fab.quiet ≤ s.wall) then s.wr FAB_TEAR_QUIET 0 0 else s)

/-! ### Squall drill (R342, R344) -/

/-- SQUALL_START: the owning host starts a drill. -/
def execSquallStart (master : Master) (target : BitVec 2) (ports : BitVec 8) (duration : BitVec 16) (s : State) : Res :=
  if !(master.val < 2 && s.owns master.val) then .next s
  else if s.on FAB_SQUALL_CTRL_EN ∨ target = 3 then .next s
  else
    let s := ((s.wr FAB_SQUALL_CTRL_TARGET 0 target.toNat).wr FAB_SQUALL_CTRL_PORTS 0 ports.toNat).wr FAB_SQUALL_CTRL_DURATION_MS 0 duration.toNat
    .next (((s.wr FAB_SQUALL_CTRL_EN 0 1).onFab fun x => { x with squallAt := s.wall, draws := 0 }).stlDrill 1)

/-- SQUALL_END: EN is written to 0 by the owning host, or DURATION_MS has passed. -/
def execSquallEnd (master : Option Master) (s : State) : Res :=
  match master with
  | some m => .next (if m.val < 2 && s.owns m.val then s.endSquall else s)
  | none =>
    let d := s.rd FAB_SQUALL_CTRL_DURATION_MS
    .next (if d ≠ 0 ∧ s.fab.squallAt + 100000 * d ≤ s.wall then s.endSquall else s)

/-- A reset of a Headland die: its tiles' commands go on, their completions discarded (Table 21-3). -/
def State.orphanCmds (s : State) (d : Nat) : State :=
  s.onFab fun x => { x with cmds := x.cmds.map fun c => match c.tile with
    | some (e, _, _) => if e == d then { c with tile := none } else c
    | none => c }

end Sys2Proof.Machine
end

