-- ==== Sys2Proof/Machine/Fault.lean ====
section
/-! DEFINITION. Fault collection, reactions, Breakwater and safe state (20_faults_breakwater.md). -/
namespace Sys2Proof.Machine

def State.onFlt (s : State) (f : Flt → Flt) : State := { s with flt := f s.flt }

/-! ### Twin frames (R496) -/

/-- Header bytes 0 to 11. -/
def State.twinHead (s : State) (typ dseq : Nat) : List Byte :=
  leBytes 1 typ ++ leBytes 1 (s.rd TWN_STATUS_STATE) ++ leBytes 2 (s.rd TWN_CTRL_PAIR_ID) ++ leBytes 4 dseq
    ++ leBytes 4 (s.rd TWN_STATUS_ACKSEQ)
/-- A twin port whose transmitters are off or in probe mode carries no frame (R256, R257). -/
def State.twinDark (s : State) (port : Nat) : Bool :=
  (s.rd HRN_PORTLIGHT_OPEN).testBit (8 + port) || (s.rd HRN_PORTLIGHT_OFF).testBit (8 + port)
/-- Send a twin frame without a payload on a port (Table 22-1). -/
def State.twinFrame (s : State) (port typ : Nat) : State :=
  let head := s.twinHead typ 0 ++ leBytes 16 0
  if s.twinDark port then s else s.emit (.twin port typ (head ++ leBytes 4 (crc32c head)))

/-! ### Safe state (R470, R471) -/

/-- The voted trip takes the module to safe state: the trip record, vector 97 and AER on both ports, TRIP
frames to a twin, clocks and transmitters stopped, lasers at STANDBY, stacks in self-refresh. Without the 60 V bus there is
no Breakwater and no SMBus pin to drive (R15). -/
def State.enterSafe (s : State) (cause votes station value : Nat) : State :=
  if s.rst.powered = false then s else
  let s := (((((s.wr BWT_TRIP_CAUSE 0 cause).wr BWT_TRIP_VOTES 0 votes).wr BWT_TRIP_STATION 0 station).wr BWT_TRIP_VALUE 0
    value).wr BWT_TRIP_HOURS 0 (s.powerS / 3600)).wr BWT_TRIP_PENDING 0 1
  let s := (s.strand 8 (leBytes 8 (rfWord s.regs BWT_TRIP 0).toNat)).onStl fun r => { r with trips := r.trips + 1 }
  let s := s.emit .alert
  if s.safe then s else
  let s := s.wr BWT_STATUS_SAFE 0 1
  let s := (s.msix 0 97).msix 1 97
  let s := if s.rd TWN_STATUS_STATE = 0 then s else (s.twinFrame 0 4).twinFrame 1 4
  let s := (List.range 24).foldl (fun s d => s.cutCoupler d []) s
  let s := (List.range 16).foldl (fun s k => if s.rd SHG_STATUS_STATE k = 3 then s.wr SHG_STATUS_STATE k 4 else s) s
  let s := { s.mapStns (fun _ x => { x with up := false }) with air := [] }
  let s := allSrcs.foldl (fun s n => if s.srcSt n = lit then s.setSrc n standby else s) s
  let s := s.wr HRN_PORTLIGHT_OFF 0 1023
  (s.emit (.aer 0 0)).emit (.aer 1 0)

/-! ### Kinds (Tables 20-2, 22-6) -/

def kindOk (k : Nat) : Bool := (kindDefaults k).isSome
/-- Collector level: 0 cell, 1 block, 2 region, 3 chip. -/
def kindLevel (k station : Nat) : Nat :=
  if k ≤ 0x06 then 0 else if k = 0x07 then 1
  else if k = 0x08 then (if station < 24 then 2 else 3)
  else if k ≤ 0x0B ∨ k = 0x32 ∨ k = 0x33 then 2 else 3
/-- Rows whose reactions column says None: nothing aborts or is added at any class. -/
def kindNone (k : Nat) : Bool :=
  [0x20, 0x22, 0x23, 0x60, 0x61, 0x62, 0x63, 0x70, 0x71, 0x72, 0x78].contains k || (0x50 ≤ k && k ≤ 0x59) || (0x80 ≤ k && k ≤ 0x87)
/-- The class at which a row names a quarantine, or an abort. -/
def kindQuar (k : Nat) : Option Nat :=
  if [0x01, 0x07, 0x10, 0x30, 0x31].contains k then some 2 else if k = 0x02 then some 3 else none
def kindAbort (k : Nat) : Nat :=
  if kindNone k then 4
  else if [0x02, 0x03, 0x04, 0x09, 0x0C, 0x11, 0x12, 0x13, 0x14, 0x17, 0x21, 0x34, 0x43, 0x44, 0x45].contains k then 2 else 3
/-- Throttle level a row names at a class or below (R461). -/
def kindThrottle (k cls : Nat) : Nat :=
  if k = 0x0A then (if 2 ≤ cls then 2 else 0)
  else if k = 0x0B then (if 2 ≤ cls then 2 else if cls = 1 then 1 else 0)
  else if k = 0x10 then (if 1 ≤ cls then 1 else 0) else 0

/-! ### Quarantine (R462) -/

/-- Physical position of a logical column under the map in force (R79). -/
def State.physTile (s : State) (row col : Nat) : Nat :=
  let failed := s.rd HDL_ROWMAP_FAILED row
  let bad (p : Nat) : Bool := failed.testBit p && !s.flt.pendRows.contains (row, p)
  (((List.range 18).filter fun p => !bad p)[col]?).getD 17

/-- Whether a job exists on a die: one whose LAUNCH has passed its checks and that has not ended (R463). -/
def State.jobOn (s : State) (d : Nat) : Bool := (s.die d).running || s.plans.any fun j => j.dies.contains d
/-- A tile's quarantine: marked failed; its row shifts at once, or after the job's abort on every die; a row without a
spare keeps the die from launching. -/
def State.quarTile (s : State) (d tile : Nat) : State :=
  let row := d * 16 + tile / 16
  let p := s.physTile row (tile % 16)
  let failed := s.rd HDL_ROWMAP_FAILED row
  let s := if failed.testBit p then s else s.wr HDL_ROWMAP_FAILED row (failed + 2 ^ p)
  let n := popN 18 (s.rd HDL_ROWMAP_FAILED row)
  let s := (s.wr HDL_ROWMAP_SPARES_USED row (min n 2)).flag HDL_ROWMAP_UNREPAIRED row (decide (2 < n))
  let s := (s.wr HDL_ROWMAP_PENDING row 1).onFlt fun f => { f with
    pendRows := f.pendRows ++ [(row, p)],
    noSpare := if 2 < n then f.noSpare ++ [d] else f.noSpare }
  if s.jobOn d then s else s.shiftRows d

/-- A lane group's quarantine: failed in its direction, its map rebuilt at slack water (R178, R180). -/
def State.quarLane (s : State) (d g : Nat) : State :=
  let c := s.coupler d
  s.setCoupler d (if g < 1024 then { c with failUp := if c.failUp.contains g then c.failUp else c.failUp ++ [g], rebuild := true }
    else { c with failDn := if c.failDn.contains (g - 1024) then c.failDn else c.failDn ++ [g - 1024], rebuild := true })

/-- Whether a running Squall drill's target holds the unit (R344): the Harene layer's waveguides. -/
def State.drillCovers (s : State) (kind : Nat) : Bool :=
  s.on FAB_SQUALL_CTRL_EN && s.rd FAB_SQUALL_CTRL_TARGET == 2 && kind == 0x10

/-- The physical unit a quarantine list entry names: tile row × 18 + position, bundle × 16 + waveguide, or lane
group. -/
def State.quarUnit (s : State) (kind station unit : Nat) : Nat :=
  let tile (t : Nat) : Nat := t / 16 * 18 + s.physTile (station * 16 + t / 16) (t % 16)
  if kind = 0x07 then tile (unit / 8) else if kind ≤ 0x02 then tile unit
  else if kind = 0x10 then
    match stnQ (unit / 256) with
    | some q => wgBundle q (unit % 256) * 16 + s.physWg (wgBundle q (unit % 256)) (unit % 256 % 15)
    | none => unit
  else unit

def State.quarantine (s : State) (kind station unit : Nat) : State :=
  let u := s.quarUnit kind station unit
  let s := (s.bump FLT_STATUS_QUARANTINES 0 1).onFlt fun f => { f with quarList := f.quarList ++ [(kind, station, u)] }
  if kind = 0x07 then s.quarTile station (unit / 8)
  else if kind ≤ 0x02 then s.quarTile station unit
  else if kind = 0x10 then
    match stnQ (unit / 256) with
    | some q => s.quarantineWg (wgBundle q (unit % 256)) (unit % 256 % 15)
    | none => s
  else s.quarLane station unit

/-! ### Events (R458 to R464) -/

/-- Jobs that the faulting unit serves (R463). -/
def State.serves (s : State) (kind station : Nat) (j : Job) : Bool :=
  if station < 24 then j.dies.contains station
  else if kind = 0x45 then j.dies.any fun d => txSlots (s.activeBuf d) station || rxSlots (s.activeBuf d) station
  else true

/-- The collector that buffers a record: level 4 is the root. -/
def collector (level station child : Nat) : Nat × Nat × Nat :=
  match level with
  | 0 => (0, station, child) | 1 => (1, station, child / 16) | 2 => (2, station, child / 64)
  | 3 => (3, station, 0) | _ => (4, 0, 0)
def FltRec.place (r : FltRec) : Nat × Nat × Nat := collector r.level r.station r.child

/-- A record reaches a collector; a full buffer drops it (R457). -/
def State.bufferRec (s : State) (r : FltRec) : State :=
  if 16 ≤ (s.flt.recs.filter fun x => x.place == r.place).length then
    (if r.level < 4 then s.bump STN_FLT_DROPPED ((stnQ r.station).getD 40) 1 else s.bump FLT_QUEUE_LOST 0 1)
  else s.onFlt fun f => { f with recs := f.recs ++ [r] }

/-- The tile of a die whose block or region a record belongs to. -/
def recChild (kind unit : Nat) : Nat :=
  if kind = 0x07 then unit / 8 else if kindLevel kind 0 = 2 then unit % 4 * 64 else unit % 256

/-- FLT_REQ is the highest throttle request over all instances (R461). -/
def State.fltReq (s : State) : Nat := s.flt.insts.foldl (fun m i => max m (kindThrottle i.kind i.cls)) 0

/-- Highest current class among a kind's instances. -/
def State.setTop (s : State) (kind : Nat) : State :=
  s.wr FLT_KIND_TOP kind ((s.flt.insts.filter fun i => i.kind == kind).foldl (fun m i => max m i.cls) (s.rd FLT_KIND_BASE kind))

/-- An instance as it stands; one at rest has its base class and no window. -/
def State.fltInst (s : State) (e : FaultEvt) : FltInst :=
  let base := match e.cls with | some c => c | none => s.rd FLT_KIND_BASE e.kind
  match s.flt.insts.find? fun i => i.kind == e.kind && i.station == e.station && i.unit == e.unit with
  | some i => { i with base := base, cls := max i.cls base }
  | none => ⟨e.kind, e.station, e.unit, base, base, 0, false, 0, false⟩

/-- The event's count and the instance after it: past N the class steps up, the count returns to 0 and a new
window, closing at `close`, opens. -/
def FltInst.count1 (n close : Nat) (i : FltInst) : FltInst × Nat :=
  if n < i.count + 1 then ({ i with cls := min 3 (i.cls + 1), count := 0, window := true, close := close }, i.count + 1)
  else ({ i with count := i.count + 1, window := true, close := if i.window then i.close else close }, i.count + 1)

/-- Wall count at which a window of a kind opened now closes. -/
def State.windowEnd (s : State) (kind : Nat) : Nat := s.wall + 100000 * min 600000 (max 1 (s.rd FLT_KIND_W_MS kind))

def State.putInst (s : State) (i : FltInst) : State :=
  s.onFlt fun f => { f with insts := i :: f.insts.filter fun x => !(x.kind == i.kind && x.station == i.station && x.unit == i.unit) }

/-- Counting, the record and the reactions of one event at an instance's class. The Harbour die collects the resets of other
dies (R433, Table 20-2). -/
def State.react (s : State) (e : FaultEvt) (i : FltInst) (count : Nat) : State :=
  let cls := i.cls
  let quarDue := match kindQuar e.kind with | some c => decide (c ≤ cls) && !i.quar | none => false
  let supp := quarDue && s.drillCovers e.kind && !s.safe
  let quar := quarDue && !supp && !s.safe
  let tileQ := quar && (e.kind ≤ 2 || e.kind == 7)
  let abort := (decide (kindAbort e.kind ≤ cls) || tileQ) && !s.safe
  let safe := e.kind == 0x0C && cls == 3 && !s.safe
  let s := (s.putInst { i with quar := i.quar || quar }).setTop e.kind
  let s := s.bump FLT_KIND_EVENTS e.kind 1
  let part := if e.kind = 0x0C ∨ e.kind = 0x45 then 0x30 else e.station
  let q := (stnQ part).getD 40
  let s := s.bump (if cls = 0 then STN_FLT_NOTES else if cls = 1 then STN_FLT_DEGRADED else STN_FLT_SEVERE) q 1
  let bits := (if 1 ≤ cls && !s.safe then 1 else 0) + (if kindThrottle e.kind cls ≠ 0 && !s.safe then 2 else 0) + (if quar then 4 else 0)
    + (if abort then 8 else 0) + (if safe then 16 else 0) + (if supp then 32 else 0)
  let level := kindLevel e.kind e.station
  let data := leBytes 8 s.wall ++ leBytes 1 e.kind ++ leBytes 1 cls ++ leBytes 1 e.station ++ leBytes 1 level
    ++ leBytes 2 e.unit ++ leBytes 2 count ++ leBytes 8 e.addr ++ leBytes 1 e.code ++ leBytes 1 bits ++ leBytes 6 0
  let s := s.bufferRec ⟨level, part, recChild e.kind e.unit, data⟩
  let s := if 1 ≤ cls && !s.safe then { s.msixOwner 96 with twn := { s.twn with healthyFrom := s.wall } } else s
  let s := if quar then s.quarantine e.kind e.station e.unit else s
  let s := if abort then s.abortJobs e.kind (s.serves e.kind e.station) else s
  if safe then let (v, s) := s.fresh; s.enterSafe 11 7 e.station (v % 65536) else s

/-- One event of a source instance (R458). -/
def State.event (s : State) (e : FaultEvt) : State :=
  if !kindOk e.kind then s else
  let (i, n) := (s.fltInst e).count1 (max 1 (s.rd FLT_KIND_N e.kind)) (s.windowEnd e.kind)
  s.react e i n

/-- Upsets of stored and transferred data. -/
def State.upset (s : State) (src : FaultSrc) : State :=
  match src with
  | .tileUpset d t w dbl =>
    let x := s.tile (tileKey d t)
    s.setTile (tileKey d t) { x with ecc := smSet (fun _ => 0) x.ecc w.val (if dbl then 2 else 1) }
  | .ibufUpset d t w dbl =>
    let x := s.tile (tileKey d t)
    s.setTile (tileKey d t) { x with ieccs := smSet (fun _ => 0) x.ieccs w.val (if dbl then 2 else 1) }
  | .hbmUpset b onDie syms => s.upsetBlk b onDie (syms.map fun x => (x.1.val, x.2.toNat))
  | .poolUpset d l e =>
    let x := s.line d.val l.toNat
    if x.valid = 0 then s else s.setLine d.val l.toNat { x with err := e.toNat }
  | .laneUpset d g n => s.setCoupler d.val { s.coupler d.val with upsets := (s.coupler d.val).upsets ++ [(g.val, n)] }
  | _ => s

/-- FAULT_EVENT: the oldest event the block raised, or one a unit's hardware detects, is counted and acted
on; an upset marks the data it strikes. -/
def execFaultEvent (src : FaultSrc) (s : State) : Res :=
  match src with
  | .raised => match s.raised with
    | [] => .next s
    | e :: es => .next (({ s with raised := es }).event e)
  | .event k st u =>
    let base := if k = 0x09 ∧ st.val < 24 ∧ (s.die st.val).running = true then some 2 else none
    .next (s.event ⟨k.toNat, stnId st.val, u.toNat, base, 0, 0⟩)
  | _ => .next (s.upset src)

/-- FAULT_WINDOW_CLOSE: the window of an instance closes; above base the class falls one step, and a new
window opens while it is still above base. -/
def execFaultWindowClose (kind : BitVec 8) (station : Fin 41) (unit : BitVec 16) (s : State) : Res :=
  match s.flt.insts.find? fun i => i.kind == kind.toNat && i.station == stnId station.val && i.unit == unit.toNat && i.window && decide (i.close ≤ s.wall) with
  | none => .next s
  | some i =>
    let cls := if i.base < i.cls then i.cls - 1 else i.cls
    let i' := { i with cls := cls, count := 0, window := decide (i.base < cls), close := s.windowEnd i.kind }
    let s := if cls = i.base && !i.quar then s.onFlt fun f => { f with insts := f.insts.filter (· != i) } else s.putInst i'
    .next (s.setTop kind.toNat)

/-- RECORD_FORWARD: a collector forwards its oldest record one level up; the root's go to the record queue. -/
def execRecordForward (level : Fin 5) (station : Fin 41) (child : Fin 256) (s : State) : Res :=
  let place := collector level.val (stnId station.val) child.val
  match s.flt.recs.find? fun r => r.place == place with
  | none => .next s
  | some r =>
    let s := s.onFlt fun f => { f with recs := f.recs.eraseP fun x => x == r }
    if r.level < 4 then .next (s.bufferRec { r with level := r.level + 1 })
    else if s.on FLT_QUEUE_FULL then .next (s.bump FLT_QUEUE_LOST 0 1)
    else
      let t := s.rd FLT_QUEUE_TAIL
      let s := s.onFlt fun f => { f with queue := smSet (fun _ => []) f.queue t r.data }
      let t' := (t + 1) % 512
      .next (((s.wr FLT_QUEUE_TAIL 0 t').flag FLT_QUEUE_FULL 0 (t' == s.rd FLT_QUEUE_HEAD)).emit .alert)

/-! ### Breakwater (R467 to R472) -/

/-- Whether the condition of a cause of Table 20-5 holds: the value measured (°C, 10 mV or 10 mA) is past the limit, that of
BWT_TIGHTEN or the fixed one, for as many µs as the cause names; the loop is open; two channels have failed. The value of cause 3 is
the average of 1 ms. Causes 9, 11 and 12 are seen by the channels alone. -/
def State.pastLimit (s : State) (cause value us : Nat) : Bool :=
  match cause with
  | 1 => decide (6500 < value ∧ 10 ≤ us)
  | 2 => decide (value < 4800 ∧ 100 ≤ us)
  | 3 => decide (100 * s.rd BWT_TIGHTEN_CUR_TRIP < value)
  | 4 => decide (8000 < value ∧ 10 ≤ us)
  | 5 => decide (s.rd BWT_TIGHTEN_HDL_TRIP < value)
  | 6 => decide (s.rd BWT_TIGHTEN_HBM_TRIP < value)
  | 7 => decide (s.rd BWT_TIGHTEN_HRB_TRIP < value)
  | 8 => decide (80 < value)
  | 10 => !s.on HRN_CART_INTERLOCK
  | 13 => decide (2 ≤ popN 3 (s.rd BWT_STATUS_CH_FAILED))
  | 9 => decide (10 ≤ us)
  | c => decide (c = 11 ∨ c = 12)

/-- BREAKWATER_TRIP: channels find the value that their taps measure past the limit of a cause of Table 20-5, and vote; a
2-of-3 voted trip enters safe state. Failed channels vote trip. -/
def execBreakwaterTrip (cause : BitVec 4) (votes : BitVec 3) (station : BitVec 8) (value : BitVec 16) (us : Nat) (s : State) : Res :=
  let v := Nat.lor votes.toNat (s.rd BWT_STATUS_CH_FAILED)
  if popN 3 v < 2 ∨ !s.pastLimit cause.toNat value.toNat us then .next s
  else .next (s.enterSafe cause.toNat v station.toNat value.toNat)

/-- BREAKWATER_DISAGREEMENT: a channel's decision differs from the others'; the second within 1 s fails it,
and a second failed channel trips at once. Cause 13 measures nothing: VALUE is the command's (log 114). -/
def execBreakwaterDisagreement (ch : Fin 3) (value : BitVec 16) (s : State) : Res :=
  let s := s.bump BWT_STATUS_DISAGREE 0 1
  let recent := (smGet (fun _ => []) s.flt.disagree ch.val).filter fun w => decide (s.wall < w + 100000000)
  let s := s.onFlt fun f => { f with disagree := smSet (fun _ => []) f.disagree ch.val (s.wall :: recent) }
  let failed := s.rd BWT_STATUS_CH_FAILED
  if recent.isEmpty || failed.testBit ch.val then .next s
  else
    let s := (s.wr BWT_STATUS_CH_FAILED 0 (failed + 2 ^ ch.val)).fault 0x78 0x30 ch.val
    .next (if failed = 0 then s else s.enterSafe 13 (failed + 2 ^ ch.val) 0xFF value.toNat)

/-- BWT_TIGHTEN: the first write since POR tightens the limits and locks them; a looser value is applied as
the fused one. -/
def execBwtTighten (master : Master) (hdl hbm hrb cur : BitVec 8) (s : State) : Res :=
  if !s.mayConfigure master.val then .next (if master.val < 2 then s.hostLog master.val 0 0x800008 cPERM else s)
  else if s.on BWT_TIGHTEN_LOCK then .next s
  else
    let t (f : Fld) (v : BitVec 8) (s : State) : State := s.wr f 0 (min v.toNat (s.rd f))
    .next ((t BWT_TIGHTEN_CUR_TRIP cur (t BWT_TIGHTEN_HRB_TRIP hrb (t BWT_TIGHTEN_HBM_TRIP hbm (t BWT_TIGHTEN_HDL_TRIP hdl s)))).wr
      BWT_TIGHTEN_LOCK 0 1)

/-- TRIP_ACKNOWLEDGE: the owning host clears PENDING; HOLD falls from 1 to 0 (R471, R493). -/
def execTripAcknowledge (master : Master) (s : State) : Res :=
  if !(master.val < 2 && s.owns master.val) then .next (if master.val < 2 then s.hostLog master.val 0 0x800010 cPERM else s)
  else
    let s := s.wr BWT_TRIP_PENDING 0 0
    .next (if s.rd GLB_POST_HOLD = 1 then s.wr GLB_POST_HOLD 0 0 else s)

/-- A refused BAR0 write is logged: a host's on its port, a firmware core's without a port (log 98). -/
def State.refusedWrite (s : State) (m off : Nat) : State :=
  if m < 2 then s.hostLog m 0 off cPERM else s.hostNote 0 0 off cPERM

/-- FAULT_INJECT: in factory mode a write stores the fields, and with GO injects an event of any kind at a class and forces
channels to vote trip; otherwise the write is ignored and logged. -/
def execFaultInject (master : Master) (kind station : BitVec 8) (unit : BitVec 16) (cls : BitVec 2) (ch : BitVec 3)
    (go : Bool) (s : State) : Res :=
  if !(s.on FLT_STATUS_FACTORY && s.mayConfigure master.val) then .next (s.refusedWrite master.val 0x700010) else
  let s := ((((s.wr FLT_INJ_KIND 0 kind.toNat).wr FLT_INJ_STATION 0 station.toNat).wr FLT_INJ_UNIT 0 unit.toNat).wr
    FLT_INJ_CLASS 0 cls.toNat).wr FLT_INJ_BWT_CH 0 ch.toNat
  if !go then .next s else
  let e : FaultEvt := ⟨kind.toNat, station.toNat, unit.toNat, none, 0, 0⟩
  let s := if !kindOk kind.toNat then s else
    let (i, n) := ({ s.fltInst e with cls := cls.toNat }).count1 (max 1 (s.rd FLT_KIND_N e.kind)) (s.windowEnd e.kind)
    s.react e i n
  let v := Nat.lor ch.toNat (s.rd BWT_STATUS_CH_FAILED)
  if ch ≠ 0 && 2 ≤ popN 3 v then
    let (c, s) := s.fresh
    .next (s.enterSafe (c % 16) v 0xFF (c / 16 % 65536))
  else .next s

/-- CARTRIDGE_INTERLOCK_OPEN: the cartridge turns every source off and Breakwater trips on cause 10 (R253).
The sources are left WARM (log 25); VALUE of the trip is the command's (log 114). -/
def execCartridgeInterlockOpen (value : BitVec 16) (s : State) : Res :=
  let s := (s.wr HRN_CART_INTERLOCK 0 0).onLight fun l => { l with raising := [] }
  let s := s.enterSafe 10 7 0xFF value.toNat
  .next (allSrcs.foldl (fun s n =>
    if [lit, standby, ready, locking].contains (s.srcSt n) then s.setSrc n warm else s) s)

end Sys2Proof.Machine
end

