-- ==== Sys2Proof/Machine/Ferry.lean ====
section
/-! DEFINITION. Ferry DMA channels (R380 to R392). -/
namespace Sys2Proof.Machine

def State.fry (s : State) (c : Nat) : Fry := smGet (fun _ => Fry.reset) s.frys c
def State.setFry (s : State) (c : Nat) (x : Fry) : State := { s with frys := smSet (fun _ => Fry.reset) s.frys c x }

def fsIdle : Nat := 0
def fsRun : Nat := 1
def fsWait : Nat := 2
def fsHalt : Nat := 3

/-- Whether a master may write a channel's registers (R377). -/
def State.fryMay (s : State) (c m : Nat) : Bool := s.rd FRY_CFG_OWNER c == m || s.mayConfigure m
/-- Whether a channel's owner may name a side: a host only HBM and its own port (R380). -/
def State.sideOk (s : State) (c side : Nat) : Bool :=
  let o := s.rd FRY_CFG_OWNER c
  side == 0 || (side < 3 && (2 ≤ o || side == o + 1))
/-- A refused write to a channel's register. -/
def State.fryRefuse (s : State) (c m : Nat) : State := if m < 2 then s.hostLog m 0 (0x300000 + 0x40 * c) cPERM else s

/-- One more start pending; past 255 it is counted in OVER (R384). -/
def State.fryCredit (s : State) (c : Nat) : State :=
  if s.rd FRY_STAT_CREDITS c = 255 then s.bump FRY_STAT_OVER c 1 else s.wr FRY_STAT_CREDITS c (s.rd FRY_STAT_CREDITS c + 1)
def State.period (s : State) (c : Nat) : Nat := max 1024 (s.rd FRY_PERIOD_PERIOD c)

/-- FERRY_ENABLE: ENABLE from 0 to 1 clears the indices, or fails on a bad configuration (R381). -/
def execFerryEnable (ch : Fin 32) (master : Master) (s : State) : Res :=
  let c := ch.val
  if !s.fryMay c master.val then .next (s.fryRefuse c master.val)
  else if s.on FRY_CFG_ENABLE c then .next s
  else
    let trig := s.rd FRY_CFG_TRIG c
    if 12 < s.rd FRY_RING_LOG2N c || 12 < s.rd FRY_CQ_LOG2N c || trig == 3 || (trig == 1 && s.rd FRY_CFG_SRC_CH c == c)
        || !s.sideOk c (s.rd FRY_CQ_SIDE c) then
      .next ((s.wr FRY_STAT_STATE c fsHalt).wr FRY_STAT_CODE c cUNSUPPORTED)
    else
      let s := (((s.wr FRY_IDX_HEAD c 0).wr FRY_IDX_TAIL c 0).wr FRY_IDX_CQ_TAIL c 0).wr FRY_IDX_CQ_HEAD c 0
      let s := (((s.wr FRY_STAT_CREDITS c 0).wr FRY_STAT_STATE c fsIdle).wr FRY_CFG_ENABLE c 1).setFry c { s.fry c with phase := true }
      let next := s.rd FRY_TIMER_NEXT c
      if trig = 2 && next < s.ticks then
        .next ((s.fryCredit c).wr FRY_TIMER_NEXT c (next + ((s.ticks - next) / s.period c + 1) * s.period c))
      else .next s

/-- Address of transfer offset `o` on a side. -/
def sideAddr (addr fw : Nat) (fix : Bool) (o : Nat) : Nat := if fix then addr + o % 2 ^ (5 + fw) else addr + o
/-- A descriptor meets a condition: the code R7 places first stays, with its address. -/
def FryDesc.note (d : FryDesc) (code addr : Nat) : FryDesc :=
  let w := worstCode d.code code
  { d with code := w, fault := if w = d.code && d.code ≠ cOK then d.fault else if w = cOK then 0 else addr }
/-- A descriptor stops at a failing burst. -/
def FryDesc.halt (d : FryDesc) (code addr : Nat) : FryDesc := { d.note code addr with stop := true }

/-- FERRY_DISABLE: bursts in flight finish and the current descriptor completes with ABORTED (R390). -/
def execFerryDisable (ch : Fin 32) (master : Master) (s : State) : Res :=
  let c := ch.val
  if !s.fryMay c master.val then .next (s.fryRefuse c master.val) else
  let s := s.wr FRY_CFG_ENABLE c 0
  match (s.fry c).cur with
  | none => .next (s.wr FRY_STAT_STATE c fsIdle)
  | some d => .next (s.setFry c { s.fry c with cur := some (d.halt cABORTED (sideAddr d.src d.sfw d.sfix d.next)) })

/-- FERRY_OWNER_WRITE: the owning host or the supervisor changes the OWNER of a disabled channel. -/
def execFerryOwnerWrite (ch : Fin 32) (master : Master) (owner : BitVec 6) (s : State) : Res :=
  let c := ch.val
  if !s.mayConfigure master.val then .next (s.fryRefuse c master.val)
  else .next (if s.on FRY_CFG_ENABLE c then s else s.wr FRY_CFG_OWNER c owner.toNat)

/-- FERRY_DOORBELL: a BAR4 doorbell or a write of TAIL sets TAIL; too far ahead halts the channel (R384). -/
def execFerryDoorbell (ch : Fin 32) (master : Master) (bar4 : Bool) (tail : BitVec 16) (s : State) : Res :=
  let c := ch.val
  let m := master.val
  if bar4 && s.rd FRY_CFG_OWNER c != m then .next (s.hostLog (m % 2) 2 (0x2000 + 8 * c) cPERM)
  else if !s.fryMay c m then .next (s.fryRefuse c m)
  else
    let s := s.wr FRY_IDX_TAIL c tail.toNat
    if s.on FRY_CFG_ENABLE c && s.rd FRY_CFG_TRIG c == 0 && decide (2 ^ s.rd FRY_RING_LOG2N c < idxSub tail.toNat (s.rd FRY_IDX_HEAD c)) then
      .next ((s.wr FRY_STAT_STATE c fsHalt).wr FRY_STAT_CODE c cUNSUPPORTED)
    else .next s

/-- FERRY_TIMER: the tide counter has reached NEXT: one credit, and NEXT rises by PERIOD. -/
def execFerryTimer (ch : Fin 32) (s : State) : Res :=
  let c := ch.val
  if s.on FRY_CFG_ENABLE c && s.rd FRY_CFG_TRIG c == 2 && !s.idle && decide (s.rd FRY_TIMER_NEXT c ≤ s.ticks) then
    .next ((s.fryCredit c).wr FRY_TIMER_NEXT c (s.rd FRY_TIMER_NEXT c + s.period c))
  else .next s

/-! ### Descriptors (R382, R383) -/

/-- A misaligned side, and one whose HBM range touches a hole or leaves its stack. -/
def sideSkew (addr fw : Nat) (fix : Bool) : Bool := addr % 32 != 0 || (fix && addr % 2 ^ (5 + fw) != 0)
def sideHole (side addr len fw : Nat) (fix : Bool) : Bool := side == 0 && !paOk addr (if fix then min len (2 ^ (5 + fw)) else len)

/-- A hole that a checked descriptor names is logged at its stack (R466); the answer is the address the record gives. -/
def State.descFault (s : State) (d : FryDesc) : State × Nat :=
  let sh := sideHole d.ss d.src d.len d.sfw d.sfix
  let dh := sideHole d.ds d.dst d.len d.dfw d.dfix
  let s := if sh then s.paFault 0x30 0 d.src else s
  let s := if dh then s.paFault 0x30 0 d.dst else s
  (s, if sideSkew d.src d.sfw d.sfix then d.src else if sh then faultPa d.src
    else if sideSkew d.dst d.dfw d.dfix then d.dst else faultPa d.dst)

/-- The descriptor an entry holds (Table 16-6), with the code its checks give and the address at fault. -/
def State.parseDesc (s : State) (c index : Nat) (bs : List Byte) : State × FryDesc :=
  let n (a k : Nat) : Nat := leNat ((bs.drop a).take k)
  let sb := n 20 1
  let db := n 21 1
  let fl := n 22 1
  let len := n 16 4
  let code := armCode [
    (cUNSUPPORTED, fl % 2 == 0 || decide (3 < fl) || n 23 1 != 0 || n 28 36 != 0 || decide (63 < sb) || decide (63 < db)
      || sb % 4 == 3 || db % 4 == 3 || len == 0 || len % 32 != 0),
    (cPERM, (sb % 4 != 3 && !s.sideOk c (sb % 4)) || (db % 4 != 3 && !s.sideOk c (db % 4))),
    (cADDR_FAULT, sideSkew (n 0 8) (bitsN sb 3 3) (sb.testBit 2) || sideHole (sb % 4) (n 0 8) len (bitsN sb 3 3) (sb.testBit 2)
      || sideSkew (n 8 8) (bitsN db 3 3) (db.testBit 2) || sideHole (db % 4) (n 8 8) len (bitsN db 3 3) (db.testBit 2)),
    (cTIMEOUT, !s.hbmOpen && (sb % 4 == 0 || db % 4 == 0))]
  let d : FryDesc := ⟨n 0 8, n 8 8, len, sb % 4, sb.testBit 2, bitsN sb 3 3, db % 4, db.testBit 2, bitsN db 3 3,
    fl.testBit 1, n 24 4, index, 0, [], 0, cOK, 0, false⟩
  if code = cOK then (s, d)
  else if code = cADDR_FAULT then ((s.descFault d).1, d.halt code (s.descFault d).2)
  else (s, d.halt code (if code = cPERM && s.sideOk c d.ss then d.dst else d.src))

/-- DESCRIPTOR_START: an enabled channel with work and no descriptor fetches and checks the one at HEAD. -/
def execDescriptorStart (ch : Fin 32) (s : State) : Res :=
  let c := ch.val
  let trig := s.rd FRY_CFG_TRIG c
  let head := s.rd FRY_IDX_HEAD c
  let work := if trig = 0 then head != s.rd FRY_IDX_TAIL c else s.on FRY_STAT_CREDITS c
  if !s.on FRY_CFG_ENABLE c ∨ s.rd FRY_STAT_STATE c = fsHalt ∨ (s.fry c).cur.isSome ∨ (s.fry c).held.isSome ∨ !work
      ∨ !s.awake ∨ s.safe then .next s else
  let s := if trig = 0 then s else s.wr FRY_STAT_CREDITS c (s.rd FRY_STAT_CREDITS c - 1)
  let a := s.rd FRY_RING_BASE c / 64 * 64 + head % 2 ^ s.rd FRY_RING_LOG2N c * 64
  let (s, bs, code) := s.hrbRead a 64
  let (s, d) := if bs.isEmpty then (s, { (s.parseDesc c head (leBytes 64 0)).2 with code := code, fault := a, stop := true }) else s.parseDesc c head bs
  .next (((s.wr FRY_IDX_HEAD c (head + 1)).wr FRY_STAT_STATE c fsRun).setFry c { s.fry c with cur := some d })

/-! ### Bursts (R386, R387) -/

/-- Bytes to the end of a burst on a side. -/
def sideRoom (addr fw : Nat) (fix : Bool) (o : Nat) : Nat :=
  if fix then 2 ^ (5 + fw) - o % 2 ^ (5 + fw) else 4096 - (addr + o) % 4096
/-- Length of the burst that starts at the descriptor's next byte. -/
def FryDesc.burst (d : FryDesc) : Nat :=
  min (min (d.len - d.next) 4096) (min (sideRoom d.src d.sfw d.sfix d.next) (sideRoom d.dst d.dfw d.dfix d.next))

/-- What a port does to a burst toward it: PERM without bus mastering, ABORTED when its link is down. -/
def State.portCode (s : State) (side : Nat) : Nat :=
  if side = 0 then cOK
  else if !(s.port (side - 1)).busMaster then cPERM
  else if !s.on GLB_PORT_LINK_UP (side - 1) then cABORTED else cOK

/-- Channels that can start a burst now. -/
def State.fryReady (s : State) (c : Nat) : Bool :=
  match (s.fry c).cur with
  | some d => !d.stop && decide (d.next < d.len) && decide (d.bursts.length < 2) && s.rd FRY_STAT_STATE c == fsRun
  | none => false
/-- Bursts in flight. -/
def State.inFlight (s : State) : Nat :=
  (List.range 32).foldl (fun n c => n + (match (s.fry c).cur with | some d => d.bursts.length | none => 0)) 0

/-- The channel the engine chooses: lowest PRIO, then round-robin after the last that started. -/
def State.fryPick (s : State) : Option Nat :=
  let ready := (List.range 32).filter s.fryReady
  match (List.range 4).find? fun p => ready.any fun c => s.rd FRY_CFG_PRIO c == p with
  | none => none
  | some p =>
    let last := smGet (fun _ => 31) s.fryLast p
    ((List.range 32).map fun k => (last + 1 + k) % 32).find? fun c => ready.contains c && s.rd FRY_CFG_PRIO c == p

/-- Change the running descriptor of a channel. -/
def State.onDesc (s : State) (c : Nat) (f : FryDesc → FryDesc) : State := s.setFry c { s.fry c with cur := (s.fry c).cur.map f }
def FryDesc.burstAt (d : FryDesc) (off : Nat) : Option FryBurst := d.bursts.find? (·.off == off)
/-- A burst is over: it moved `n` bytes. -/
def FryDesc.drop (d : FryDesc) (off n : Nat) : FryDesc :=
  { d with bursts := d.bursts.filter (·.off != off), written := d.written + n }
/-- A burst ends with a code at an address, and so does its descriptor. -/
def FryDesc.fail (d : FryDesc) (off code addr : Nat) : FryDesc := (d.drop off 0).halt code addr
def FryDesc.onBurst (d : FryDesc) (off : Nat) (f : FryBurst → FryBurst) : FryDesc :=
  { d with bursts := d.bursts.map fun b => if b.off == off then f b else b }
/-- Where the first poisoned unit of a burst stands. -/
def firstBad (a : Nat) (bad : List Bool) : Nat := a + 32 * (firstIdx bad).getD 0

/-- A burst's source read from HBM starts, through the memory channel (R387). -/
def State.fryLoad (s : State) (c : Nat) (d : FryDesc) (off n : Nat) : State :=
  let sa := sideAddr d.src d.sfw d.sfix off
  if (s.shg (paStack sa)).lost then s.onDesc c fun d => d.fail off cTARGET_LOST sa
  else s.hrbLoad sa n (.fryRead c off)
/-- A burst's source has been read from HBM. -/
def State.fryLoaded (s : State) (c off code : Nat) (data : List Byte) (bad : List Bool) : State :=
  s.onDesc c fun d =>
    let sa := sideAddr d.src d.sfw d.sfix off
    if code = cPOISON then (d.note cPOISON (firstBad sa bad)).onBurst off fun b => { b with data := some (data, bad) }
    else if code = cOK then d.onBurst off fun b => { b with data := some (data, []) }
    else d.fail off code sa

/-- BURST_START: the engine starts a burst for the channel it chooses, and reads its source. -/
def execBurstStart (s : State) : Res :=
  if 32 ≤ s.inFlight ∨ !s.awake ∨ s.safe then .next s else
  match s.fryPick with
  | none => .next s
  | some c =>
    match (s.fry c).cur with
    | none => .next s
    | some d =>
      let code := armCode [(s.portCode d.ss, s.portCode d.ss != cOK), (s.portCode d.ds, s.portCode d.ds != cOK)]
      if code ≠ cOK then
        .next (s.onDesc c fun d => d.halt code (if s.portCode d.ss = code then sideAddr d.src d.sfw d.sfix d.next else sideAddr d.dst d.dfw d.dfix d.next))
      else
        let n := d.burst
        let s := { s with fryLast := smSet (fun _ => 31) s.fryLast (s.rd FRY_CFG_PRIO c) c }
        let s := s.onDesc c fun d => { d with next := d.next + n, bursts := d.bursts ++ [⟨d.next, n, none, false⟩] }
        .next (if d.ss = 0 then s.fryLoad c d d.next n else s)

/-- The burst of a descriptor that a command names: its first, or its second. -/
def FryDesc.pick (d : FryDesc) (second : Bool) : Option FryBurst := d.bursts[if second then 1 else 0]?

/-- A burst that has its whole source writes it: to a host at once, to HBM through the memory channel. -/
def State.fryStore (s : State) (c : Nat) (d : FryDesc) (b : FryBurst) (data : List Byte) (bad : List Bool) : State :=
  let da := sideAddr d.dst d.dfw d.dfix b.off
  if d.ds ≠ 0 then (s.emit (.hostWrite (d.ds - 1) da data (bad.any id))).onDesc c fun d => d.drop b.off b.len
  else if (s.shg (paStack da)).lost then s.onDesc c fun d => d.fail b.off cTARGET_LOST da
  else (s.onDesc c fun d => d.onBurst b.off fun b => { b with data := some (data, bad), writing := true }).hrbStore da data bad (.fryWrite c b.off)
/-- A burst's write to HBM has ended. -/
def State.fryStored (s : State) (c off code : Nat) : State :=
  s.onDesc c fun d => match d.burstAt off with
    | none => d
    | some b => if code = cOK then d.drop off b.len else d.fail off code (sideAddr d.dst d.dfw d.dfix off)

/-- BURST_DONE: a burst has read its whole source (`data` and `ep` are what a host answered) and its writes go out; poison
travels with its units. -/
def execBurstDone (ch : Fin 32) (second : Bool) (data : List (BitVec 8)) (ep : Bool) (s : State) : Res :=
  let c := ch.val
  if s.safe then .next s else
  match (s.fry c).cur with
  | none => .next s
  | some d =>
    match d.pick second with
    | none => .next s
    | some b =>
      if b.writing then .next s
      else if d.ss = 0 then
        match b.data with
        | none => .next s
        | some (bs, bad) => .next (s.fryStore c d b bs bad)
      else
        let s := if ep then s.onDesc c fun d => d.note cPOISON (sideAddr d.src d.sfw d.sfix b.off) else s
        .next (s.fryStore c d b (data.take b.len ++ leBytes (b.len - data.length) 0) (if ep then List.replicate (b.len / 32) true else []))

/-- FERRY_READ_TIMEOUT: a host read unanswered for 10 ms ends the descriptor with TIMEOUT. -/
def execFerryReadTimeout (ch : Fin 32) (second : Bool) (s : State) : Res :=
  let c := ch.val
  match (s.fry c).cur with
  | none => .next s
  | some d =>
    match d.pick second with
    | none => .next s
    | some b =>
      if d.ss = 0 ∨ b.writing = true then .next s
      else .next ((s.emit (.aer (d.ss - 1) 4)).onDesc c fun d => d.fail b.off cTIMEOUT (sideAddr d.src d.sfw d.sfix b.off))

/-! ### Completion (R388, R389) -/

/-- A record that cannot be written is lost, and the channel halts (R389). -/
def State.loseRecord (s : State) (c : Nat) : State :=
  ((s.setFry c { s.fry c with held := none }).wr FRY_STAT_CQ_LOST c 1).wr FRY_STAT_STATE c fsHalt
/-- The record is written at CQ_TAIL, its vector signalled; OK and POISON credit the channels chained to this
one. A queue that cannot be reached loses it. -/
def State.writeRecord (s : State) (c : Nat) (rec_ : List Byte) (irq : Bool) : State :=
  let side := s.rd FRY_CQ_SIDE c
  if side ≠ 0 && s.portCode side ≠ cOK then s.loseRecord c
  else
    let tail := s.rd FRY_IDX_CQ_TAIL c
    let size := 2 ^ s.rd FRY_CQ_LOG2N c
    let x := s.fry c
    let rec_ := rec_.take 5 ++ leBytes 1 (c + (if x.phase then 128 else 0)) ++ (rec_.drop 6).take 10 ++ leBytes 8 s.wall ++ rec_.drop 24
    let a := s.rd FRY_CQ_ADDR c * 64 + tail % size * 32
    let (s, wc) := if side = 0 then s.hrbWrite a rec_ [] else (s.emit (.hostWrite (side - 1) a rec_ false), cOK)
    if wc ≠ cOK then s.loseRecord c else
    let s := s.setFry c { x with phase := if (tail + 1) % size = 0 then !x.phase else x.phase, held := none }
    let s := (s.wr FRY_IDX_CQ_TAIL c (tail + 1)).wr FRY_STAT_CQ_STALL c 0
    let code := leNat ((rec_.drop 4).take 1)
    let s := if irq then
        (if s.rd FRY_CFG_OWNER c < 2 then s.msix (s.rd FRY_CFG_OWNER c) (64 + c) else s.msixOwner (64 + c)) else s
    if code = cOK ∨ code = cPOISON then
      (List.range 32).foldl (fun s k => if s.on FRY_CFG_ENABLE k && s.rd FRY_CFG_TRIG k == 1 && s.rd FRY_CFG_SRC_CH k == c
        then s.fryCredit k else s) s
    else s

/-- Whether the completion queue is full. -/
def State.cqFull (s : State) (c : Nat) : Bool :=
  idxSub (s.rd FRY_IDX_CQ_TAIL c) (s.rd FRY_IDX_CQ_HEAD c) == 2 ^ s.rd FRY_CQ_LOG2N c

/-- STATE once a descriptor's record is written. -/
def State.fryAfter (s : State) (c code : Nat) : Nat :=
  if s.on FRY_CFG_ENABLE c && code != cOK && code != cPOISON then fsHalt else fsIdle

/-- DESCRIPTOR_COMPLETE: the last unit has been read back; the record is written, or held while the queue is
full. -/
def execDescriptorComplete (ch : Fin 32) (s : State) : Res :=
  let c := ch.val
  if s.safe ∨ !s.awake then .next s else
  match (s.fry c).cur with
  | none => .next s
  | some d =>
    if !d.bursts.isEmpty ∨ (!d.stop ∧ d.next < d.len) then .next s else
    let rec_ := leBytes 4 d.tag ++ leBytes 1 d.code ++ leBytes 1 0 ++ leBytes 2 d.index ++ leBytes 8 d.written
      ++ leBytes 8 0 ++ leBytes 8 (if d.code = cOK then 0 else d.fault)
    let s := (s.setFry c { s.fry c with cur := none }).wr FRY_STAT_CODE c d.code
    let s := s.wr FRY_STAT_STATE c (s.fryAfter c d.code)
    if s.cqFull c then
      let s := (s.setFry c { s.fry c with held := some (rec_, d.irq) }).wr FRY_STAT_CQ_STALL c 1
      .next (if s.rd FRY_STAT_STATE c = fsIdle then s.wr FRY_STAT_STATE c fsWait else s)
    else .next (s.writeRecord c rec_ d.irq)

/-- FERRY_RECORD_RELEASE: a held record is written once the consumer has advanced CQ_HEAD. -/
def execFerryRecordRelease (ch : Fin 32) (s : State) : Res :=
  let c := ch.val
  match (s.fry c).held with
  | none => .next s
  | some (r, irq) =>
    if s.cqFull c ∨ s.safe ∨ !s.awake then .next s
    else .next ((if s.rd FRY_STAT_STATE c = fsWait then s.wr FRY_STAT_STATE c fsIdle else s).writeRecord c r irq)

/-- A reset of port p reaches the channels that read, write or record there (Table 16-5). -/
def State.ferryPortReset (s : State) (p : Nat) : State :=
  (List.range 32).foldl (fun s c =>
    let s := match (s.fry c).cur with
      | some d => if d.ss = p + 1 ∨ d.ds = p + 1 then
            (s.dropHrb fun op => match op with | .fryRead c' _ => c' == c | _ => false).setFry c
              { s.fry c with cur := some ({ d with bursts := d.bursts.filter (·.writing) }.halt cABORTED
                  (if d.ss = p + 1 then sideAddr d.src d.sfw d.sfix d.written else sideAddr d.dst d.dfw d.dfix d.written)) } else s
      | none => s
    if (s.fry c).held.isSome && s.rd FRY_CQ_SIDE c == p + 1 then
      s.loseRecord c
    else s) s

end Sys2Proof.Machine
end

