-- ==== Sys2Proof/Machine/Ports.lean ====
section
/-! DEFINITION. Host ports: BAR2, MSI-X, ownership, port resets and link training (R369 to R379). -/
namespace Sys2Proof.Machine

/-! ### BAR2 (R372, R373, R444, R482) -/

/-- Module physical address of a BAR2 offset, if the offset lies within the BAR. -/
def State.bar2Pa (s : State) (p off : Nat) : Option Nat :=
  let n := 2 ^ (s.port p).bar2Log
  if off < n then some (s.rd GLB_BAR2WIN_WIN_BASE p * 2 ^ 30 / n * n + off) else none

/-- Whether BAR2 is served: HBM open to it, and no low-power state. -/
def State.bar2Up (s : State) : Bool := s.awake && s.hbmOpen

/-- The memory access of a BAR2 read has ended: data, with EP when a unit is poisoned, or Completer Abort (R373). -/
def State.bar2Answer (s : State) (p pa len code : Nat) (data : List Byte) : State :=
  if code = cOK ∨ code = cPOISON then s.emit (.reply ((data.drop (pa % 32)).take len) (code == cPOISON))
  else (s.emit (.replyError cTIMEOUT)).emit (.aer p 2)
/-- BAR2_READ: a read through the memory channel; Unsupported Request on a hole. -/
def execBar2Read (port : Fin 2) (off : BitVec 41) (len : Nat) (s : State) : Res :=
  let p := port.val
  match s.bar2Pa p off.toNat with
  | none => .next s
  | some pa =>
    if s.safe then .next ((s.emit (.replyError cTIMEOUT)).emit (.aer p 2))
    else if !s.bar2Up then .next (((s.hostLog p 1 off.toNat cTIMEOUT).emit (.replyError cTIMEOUT)).wake 4)
    else if !paOk pa len then .next ((s.hostLog p 1 off.toNat cADDR_FAULT).emit (.replyError cADDR_FAULT))
    else if len = 0 then .next (s.emit (.reply [] false))
    else if (s.shg (paStack pa)).lost then .next (s.bar2Answer p pa len cTARGET_LOST [])
    else .next (s.hrbLoad pa len (.bar2Read p pa len))

/-- BAR2_WRITE: bytes written to HBM through the memory channel, poisoned when EP is set; discarded on a hole, and when the
stack is lost. -/
def execBar2Write (port : Fin 2) (off : BitVec 41) (data : List (BitVec 8)) (ep : Bool) (s : State) : Res :=
  let p := port.val
  match s.bar2Pa p off.toNat with
  | none => .next s
  | some pa =>
    let s := if ep then s.emit (.aer p 3) else s
    if s.safe then .next (s.emit (.aer p 2))
    else if !s.bar2Up then .next ((s.hostLog p 1 off.toNat cTIMEOUT).wake 4)
    else if !paOk pa data.length then .next (s.hostLog p 1 off.toNat cADDR_FAULT)
    else if data.isEmpty ∨ (s.shg (paStack pa)).lost then .next s
    else .next (s.hrbStore pa data (if ep then List.replicate ((pa % 32 + data.length + 31) / 32) true else []) (.bar2Write p))

/-! ### MSI-X (R374) -/

/-- Pended messages whose masks are clear are sent. -/
def State.sendPended (s : State) (p : Nat) : State :=
  let x := s.port p
  if x.funcMask || !x.enable || !x.busMaster || !s.on GLB_PORT_LINK_UP p then s
  else
    let vs := (List.range 256).filter fun v => x.pend.getLsbD v && !x.mask.getLsbD v
    let s := vs.foldl (fun s v => s.emit (.msix p v)) s
    s.setPort p { x with pend := x.pend &&& x.mask }

/-- MSIX_UNMASK: a vector's mask bit, or with none the Function Mask, clears; pended messages go out. -/
def execMsixUnmask (port : Fin 2) (vector : Option (BitVec 8)) (s : State) : Res :=
  let p := port.val
  let x := s.port p
  .next ((s.setPort p (match vector with
    | some v => { x with mask := x.mask &&& ~~~(bit256 v.toNat) }
    | none => { x with funcMask := false })).sendPended p)

/-! ### Ownership (R376, R423) -/

/-- MISMATCH: RELEASE of the driver and of the runtime bundle differ and both are nonzero (R422). -/
def State.updMismatch (s : State) : State :=
  let d := s.rd GLB_DRVVER_VERSION % 2 ^ 32
  let r := s.rd GLB_RTVER_VERSION % 2 ^ 32
  s.flag GLB_FWSTAT_MISMATCH 0 (d != r && d != 0 && r != 0)
/-- Ownership changes: GLB_DRVVER is cleared. -/
def State.clearDriver (s : State) : State := (s.wr GLB_DRVVER_VERSION 0 0).updMismatch

/-- CLAIM: a port's host becomes the owning host while there is none. -/
def execClaim (port : Fin 2) (s : State) : Res :=
  if s.on GLB_HOSTCFG_OWNER_VALID then .next s
  else .next ((s.wr GLB_HOSTCFG_OWNER_VALID 0 1).wr GLB_HOSTCFG_OWNER 0 port.val).clearDriver

/-- RELEASE: the owning host gives up ownership; another host's write is ignored and logged. -/
def execRelease (port : Fin 2) (s : State) : Res :=
  if s.owns port.val then .next (s.wr GLB_HOSTCFG_OWNER_VALID 0 0).clearDriver
  else .next (s.hostLog port.val 0 0x200 cPERM)

/-- Whether the other host may take over from the owner. -/
def State.ownerLost (s : State) : Bool :=
  let o := s.rd GLB_HOSTCFG_OWNER
  let down := !s.on GLB_PORT_LINK_UP o && decide ((s.port o).downAt + 100000000 ≤ s.wall)
  let mine := ((List.range 64).map (o * 64 + ·)).filter fun i => s.rd RNG_STAT_STATE i != rsDisabled
  down || (!mine.isEmpty && mine.all fun i => s.rd RNG_STAT_STATE i == rsOrphaned)

/-- TAKEOVER: the other host takes ownership when the owner's link has been down for 1 s or all its enabled
rings are orphaned. -/
def execTakeover (port : Fin 2) (s : State) : Res :=
  if s.on GLB_HOSTCFG_OWNER_VALID && s.rd GLB_HOSTCFG_OWNER != port.val && s.ownerLost then
    .next (s.wr GLB_HOSTCFG_OWNER 0 port.val).clearDriver
  else .next s

/-! ### Port events (R378, R379) -/

/-- Registers with fields that a PORT event on port p ends: its window, the Squall drill of the fabric, and FLT_INJ, which R5
keeps across no event. -/
def portReg (p no inst : Nat) : Bool :=
  no == FLT_INJ || decide (FAB_SQUALL_CTRL ≤ no ∧ no ≤ FAB_SQUALL_CNT) || (no == GLB_BAR2WIN && inst == p)
/-- A PORT event on a port; `down` when the link goes down with it. -/
def State.portEvent (s : State) (p : Nat) (down : Bool) : State :=
  let s := s.setPort p { Port.reset with downAt := if down && s.on GLB_PORT_LINK_UP p then s.wall else (s.port p).downAt }
  let s := s.endSquall
  let s := ({ s with regs := rfReset 2 (portReg p) s.regs }).bump GLB_PORT_RESETS p 1
  let s := if down then (((s.wr GLB_PORT_LINK_UP p 0).wr GLB_PORT_SPEED p 0).wr GLB_PORT_WIDTH p 0).wr GLB_PORT_FLIT p 0 else s
  let s := (s.ferryPortReset p).dropHrb fun op => match op with | .bar2Read q _ _ => q == p | _ => false
  let s := (List.range 64).foldl (fun s n => s.expire (p * 64 + n)) s
  let s := s.receiverReset p
  if s.owns p then s.clearDriver else s

/-- PORT_RESET: PERST#, Hot Reset, link-down or Function Level Reset. -/
def execPortReset (port : Fin 2) (down : Bool) (s : State) : Res := .next (s.portEvent port.val down)

/-- PORT_LINK_UP: a port's link finishes training and serves its host. -/
def execPortLinkUp (port : Fin 2) (speed : BitVec 3) (width : BitVec 5) (flit : Bool) (s : State) : Res :=
  let p := port.val
  .next ((((s.wr GLB_PORT_LINK_UP p 1).wr GLB_PORT_SPEED p speed.toNat).wr GLB_PORT_WIDTH p width.toNat).flag GLB_PORT_FLIT p flit)

end Sys2Proof.Machine
end

