-- ==== Sys2Proof/Machine/Firmware.lean ====
section
/-! DEFINITION. The firmware complex: containers, runtime loads, core stops and restarts
(18_mousk_firmware.md; containers of 23_security_lifecycle.md). Core 0 is S0, 1 is S1, n + 1 is worker n. -/
namespace Sys2Proof.Machine

def State.onFw (s : State) (f : Fw → Fw) : State := { s with fw := f s.fw }
def State.onSec (s : State) (f : Sec → Sec) : State := { s with sec := f s.sec }

/-! ### Containers (R514, R515) -/

/-- Fields of a container's header (Table 23-4). -/
def contType (h : List Byte) : Nat := fieldAt h 4 1
def contVersion (h : List Byte) : Nat := fieldAt h 8 8
def contSvn (h : List Byte) : Nat := fieldAt h 24 2
def contLen (h : List Byte) : Nat := fieldAt h 28 4
def contPlain (h : List Byte) : List Byte := (h.drop 64).take 32
/-- Whole container in bytes: header, ciphertext, signature. -/
def contSize (h : List Byte) : Nat := 128 + contLen h + 29792

/-- Longest payload of a type. -/
def contMax (t : Nat) : Nat := if t ≤ 2 then 0x100000 else if t = 3 then 0x40000 else 0x1000
/-- Minimum SVN held for a type. -/
def State.minSvn (s : State) (t : Nat) : Nat :=
  if t = 1 then s.rd SEC_STATUS_MIN_SVN_SUP else smGet (fun _ => 0) s.sec.minSvn t

/-- The checks of Table 23-4 in their order: the cause of the first that fails, 0 when all pass. A runtime
container's SVN is not compared. -/
def State.contCheck (s : State) (h : List Byte) (c : Crypto) (typ : Nat) : Nat :=
  if fieldAt h 0 4 ≠ 1 ∨ contType h = 0 ∨ 4 < contType h ∨ fieldAt h 5 3 ≠ 0 ∨ fieldAt h 26 2 ≠ 0 ∨ fieldAt h 32 4 ≠ 0
      ∨ fieldAt h 96 32 ≠ 0 then 1
  else if fieldAt h 16 8 ≠ 0 ∧ fieldAt h 16 8 ≠ s.rd GLB_MODULE_ID_SERIAL then 2
  else if contLen h = 0 ∨ contMax (contType h) < contLen h then 3
  else if !c.sig then 4
  else if contType h ≠ 2 ∧ contSvn h < s.minSvn (contType h) then 5
  else if !c.gcm then 6
  else if !c.digest then 7
  else if contType h ≠ typ then 8 else 0

/-- The container staged at an HBM address, checked: code, header. ADDR_FAULT and POISON come from the read;
otherwise CHECK takes the cause of the first failed check. -/
def State.stagedCont (s : State) (pa typ : Nat) (c : Crypto) : State × Nat × List Byte :=
  if pa % 4096 ≠ 0 then (s, cADDR_FAULT, [])
  else
    let (s, h, rc) := s.hrbRead pa 128
    if rc ≠ cOK then (s, rc, h)
    else
    let early := fieldAt h 0 4 = 1 ∧ contLen h ≤ 0x100000
    let (s, _, rc) := if early then s.hrbRead (pa + 128) (contSize h - 128) else (s, [], cOK)
    if rc ≠ cOK then (s, rc, h)
    else
      let k := s.contCheck h c typ
      let s := s.wr SEC_UPD_CHECK 0 k
      (s, if k = 0 then cOK else if typ = 2 ∧ k = 3 ∧ contLen h ≠ 0 then cCAPACITY else cUNSUPPORTED, h)

/-! ### Cores -/

def State.coreSt (s : State) (c : Nat) : Nat := s.rd GLB_FWCORE_STATE c
def State.supCore (s : State) : Nat := s.rd GLB_FWSTAT_ACTIVE_SUP
/-- A core starts: RUNNING with the watchdog's starting time (R424). -/
def State.startCore (s : State) (c : Nat) : State := (s.wr GLB_FWCORE_STATE c coreRunning).wr GLB_FWCORE_WDT_MS c 1000
def workers : List Nat := [2, 3, 4, 5, 6, 7]

/-- First and count of the note channels a core owns (Table 18-2). -/
def ownedChans (c : Nat) : List Nat :=
  if c < 2 then List.range 16 else (List.range 8).map (16 + 8 * (c - 2) + ·)
/-- A core's firmware opens its channels as it starts (log 40). -/
def State.openChans (s : State) (c : Nat) : State :=
  s.onFw fun f => { f with opened := f.opened ++ (ownedChans c).filter fun k => !f.opened.contains k }

/-- The pending image is rejected: rollback of an update (R524). -/
def State.onSlot (s : State) (b : Bool) (f : Slot → Slot) : State :=
  s.onSec fun x => if b then { x with slotB := f x.slotB } else { x with slotA := f x.slotA }
def State.slot (s : State) (b : Bool) : Slot := if b then s.sec.slotB else s.sec.slotA

/-- STAGE changes: an UPDATE entry and vector 101 (R524). -/
def State.setStage (s : State) (stage old new : Nat) : State :=
  let s := (s.wr SEC_UPD_STAGE 0 stage).flag SEC_UPD_BUSY 0 (decide (1 ≤ stage) && decide (stage ≤ 5))
  let s := s.strand 9 (leBytes 1 1 ++ leBytes 1 stage ++ leBytes 1 (s.rd SEC_UPD_SLOT) ++ leBytes 1 (s.rd SEC_UPD_CHECK)
    ++ leBytes 8 old ++ leBytes 8 new)
  s.msixOwner 101

/-- A rollback: the slot written is REJECTED, and STAGE 7. -/
def State.rollBack (s : State) : State :=
  let b := s.on SEC_UPD_SLOT
  let new := (s.slot b).version
  let s := (s.onSlot b fun x => { x with st := 3 }).wr SEC_UPD_DEADLINE_S 0 0
  s.setStage 7 (s.slot (!b)).version new

/-- A core stops (R424, R425, R427) with a cause of Table 18-7. A worker is RESTARTING, or HELD while the
supervisor restarts; the supervisor's load in progress is aborted, and a LAUNCH not latched will not be. -/
def State.stopCore (s : State) (c cause : Nat) : State :=
  let st := s.coreSt c
  if c < 2 then
    if c ≠ s.supCore ∨ (s.fw.phase ≠ 0 ∧ s.fw.phase ≠ 3) then s
    else
      let failed := s.fw.phase = 3
      let s := (s.wr GLB_FWCORE_STATE c coreRestarting).wr GLB_FWCORE_LAST_CAUSE c cause
      let s := s.onFw fun f => { f with
        phase := 1,
        since := if failed then f.since else smSet (fun _ => 0) f.since c s.wall,
        supFails := if failed then s.wall :: f.supFails else f.supFails }
      let s := if s.on GLB_RTLOAD_BUSY then (s.wr GLB_RTLOAD_BUSY 0 0).wr GLB_RTLOAD_CODE 0 cABORTED else s
      let s := if s.rd SEC_UPD_STAGE = 5 then s.rollBack else s
      { s with tide := { s.tide with swapReqs := s.tide.swapReqs.filter fun r => r.modes.isNone } }
  else if st ≠ coreRunning then s
  else
    let s := (s.wr GLB_FWCORE_STATE c (if s.fw.phase = 0 then coreRestarting else coreHeld)).wr GLB_FWCORE_LAST_CAUSE c cause
    s.onFw fun f => { f with since := smSet (fun _ => 0) f.since c s.wall,
                             stops := smSet (fun _ => []) f.stops c (s.wall :: smGet (fun _ => []) f.stops c) }

/-- WATCHDOG_FIRE: a running core's watchdog expires. No watchdog counts while its core is clock-gated in a
low-power state: the workers' in Doldrums, all in Becalmed. -/
def execWatchdogFire (core : Fin 8) (s : State) : Res :=
  let p := s.rd PWR_STATE_STATE
  if p = 4 ∨ (p = 2 ∧ 2 ≤ core.val) then .next s else .next (s.stopCore core.val 1)

/-- CORE_FATAL_STOP: a core stops on an uncorrectable memory error (cause 2) or a fatal trap (cause 3). -/
def execCoreFatalStop (core : Fin 8) (mem : Bool) (s : State) : Res := .next (s.stopCore core.val (if mem then 2 else 3))

/-! ### Runtime loads (R420, R421) -/

/-- RUNTIME_LOAD: GO starts a load from GLB_RTLOAD_ADDR; a GO while BUSY is ignored. -/
def execRuntimeLoad (master : Master) (s : State) : Res :=
  if !s.mayConfigure master.val then .next (if master.val < 2 then s.hostLog master.val 0 0x300 cPERM else s)
  else if s.on GLB_RTLOAD_BUSY then .next s
  else .next ((s.wr GLB_RTLOAD_BUSY 0 1).onFw fun f => { f with rtAddr := s.rd GLB_RTLOAD_ADDR_ADDR })

/-- Work that holds the running image: a job, an enabled stream, an orphaned ring pair. -/
def State.workHeld (s : State) : Bool :=
  s.busy || (List.range 128).any fun i => s.rd RNG_STAT_STATE i == rsOrphaned

/-- The worker image region is written. -/
def State.storeImage (s : State) (plain : List Byte) : State :=
  s.onFw fun f => { f with sram := memStore f.sram 0x100000 plain }

/-- A verified image with another digest is installed: every worker stops and all six start (R421). -/
def State.installImage (s : State) (h plain : List Byte) : State :=
  let s := workers.foldl (fun s c =>
    let s := if s.coreSt c = coreRunning then (s.wr GLB_FWCORE_LAST_CAUSE c 4).receiverReset (c + 1) else s
    (s.startCore c).openChans c) s
  let s := (s.storeImage plain).onFw fun f => { f with rtPlain := contPlain h }
  (((s.wr GLB_FWSTAT_RT_LOADED 0 1).wr GLB_RTLOAD_SAME 0 0).wr GLB_RTVER_VERSION 0 (contVersion h)).updMismatch

/-- RUNTIME_LOAD_COMPLETE: the supervisor checks the container and installs, rewrites or refuses its image. -/
def execRuntimeLoadComplete (c : Crypto) (s : State) : Res :=
  if !s.on GLB_RTLOAD_BUSY ∨ !s.supUp then .next s else
  let (s, code, h) := s.stagedCont s.fw.rtAddr 2 c
  let s := s.wr GLB_RTLOAD_BUSY 0 0
  if code ≠ cOK then .next (s.wr GLB_RTLOAD_CODE 0 code)
  else if s.on GLB_FWSTAT_RT_LOADED && s.fw.rtPlain == contPlain h then
    let s := workers.foldl (fun s k => if s.coreSt k = coreFailed then
      (s.wr GLB_FWCORE_STATE k coreRestarting).onFw fun f => { f with
        since := smSet (fun _ => 0) f.since k s.wall, stops := smSet (fun _ => []) f.stops k [] } else s) s
    let s := (((s.storeImage c.plain).wr GLB_RTLOAD_SAME 0 1).wr GLB_RTVER_VERSION 0 (contVersion h)).updMismatch
    .next (s.wr GLB_RTLOAD_CODE 0 cOK)
  else if s.workHeld then .next (s.wr GLB_RTLOAD_CODE 0 cPERM)
  else .next ((s.installImage h c.plain).wr GLB_RTLOAD_CODE 0 cOK)

/-! ### Worker restart (R425, R426) -/

/-- Whole milliseconds since a core stopped. -/
def State.stoppedMs (s : State) (c : Nat) : Nat := min 65535 ((s.wall - smGet (fun _ => 0) s.fw.since c) / 100000)

/-- WORKER_RESTART: the supervisor restarts the lowest stopped worker; one that has stopped five times
within 60 s, or whose image check fails, is FAILED. -/
def execWorkerRestart (image : Bool) (s : State) : Res :=
  if !s.supUp then .next s else
  match workers.find? fun c => s.coreSt c == coreRestarting with
  | none => .next s
  | some c =>
    let recent := (smGet (fun _ => []) s.fw.stops c).filter fun w => decide (s.wall < w + 6000000000)
    let s := (s.onFw fun f => { f with stops := smSet (fun _ => []) f.stops c recent }).receiverReset (c + 1)
    if 5 ≤ recent.length ∨ !image then .next ((s.wr GLB_FWCORE_STATE c coreFailed).fault 0x61 0x30 c)
    else
      let s := ((s.startCore c).openChans c).bump GLB_FWCORE_RESTARTS c 1
      .next ((s.wr GLB_FWCORE_LAST_MS c (s.stoppedMs c)).fault 0x60 0x30 c)

/-- The state a meaning answers. -/
def Res.state (s : State) : Res → State
  | .next s' => s'
  | .fault _ => s
  | .refused _ => s
/-- Repeat a meaning. -/
def rerun (f : State → Res) : Nat → State → State
  | 0, s => s
  | n + 1, s => rerun f n ((f s).state s)

/-- Post the ended completions of a ring and take its waiting entries. -/
def State.catchUpRing (s : State) (i : Fin 128) : State :=
  let s := rerun (execCompletionPost i) (s.ring i.val).taken.length s
  rerun (execSubmissionTake i) (idxSub (s.rd RNG_IDX_SQ_TAIL i.val) (s.rd RNG_IDX_SQ_HEAD i.val)) s

/-- WORKER_CATCH_UP: a restarted worker posts what ended during the gap and takes what waits. -/
def execWorkerCatchUp (worker : Fin 6) (s : State) : Res :=
  let c := 2 + worker.val
  if s.coreSt c ≠ coreRunning then .next s
  else .next ((List.finRange 128).foldl (fun s i => if workerOf i.val = c then s.catchUpRing i else s) s)

/-! ### Supervisor restart (R427 to R429) -/

/-- No supervisor will run. -/
def State.supDead (s : State) : State :=
  ((s.wr GLB_FWSTAT_SUP_DEAD 0 1).wr GLB_POST_ERR 0 5).onFw fun f => { f with phase := 4 }

/-- SUPERVISOR_RESTART: Breakwater resets the stopped supervisor core for the Boot ROM; after three failed
attempts within 10 s it holds the core stopped. -/
def execSupervisorRestart (s : State) : Res :=
  if s.fw.phase ≠ 1 then .next s else
  let recent := s.fw.supFails.filter fun w => decide (s.wall < w + 1000000000)
  let s := s.onFw fun f => { f with supFails := recent }
  if 3 ≤ recent.length then .next ((s.wr GLB_FWCORE_STATE s.supCore coreFailed).supDead)
  else .next ((((s.onFw fun f => { f with phase := 2 }).receiverReset 2).receiverReset 11).fault 0x62 0x30 s.supCore)

/-- LAUNCHes whose swap was not latched when the supervisor stopped. -/
def State.cutLaunches (s : State) : State :=
  (s.plans.filter fun j => j.phase == .requested).foldl (fun s j => s.endJob j cABORTED) s

/-- SUPERVISOR_RESTART_COMPLETE: the restarted supervisor has rebuilt its state. -/
def execSupervisorRestartComplete (s : State) : Res :=
  if s.fw.phase ≠ 3 then .next s else
  let c := s.supCore
  let s := s.onFw fun f => { f with phase := 0, supFails := [] }
  let s := ((s.startCore c).bump GLB_FWCORE_RESTARTS c 1).wr GLB_FWCORE_LAST_MS c (s.stoppedMs c)
  let fenced := s.rd TWN_STATUS_STATE == 6
  let s := { s.flag GLB_FWSTAT_PARKED 0 fenced with tide := { s.tide with parked := fenced } }
  let s := workers.foldl (fun s k => if s.coreSt k = coreHeld then s.wr GLB_FWCORE_STATE k coreRestarting else s) s
  .next (s.cutLaunches.stlFlush.openChans c)

/-- JOB_PARK: 500 ms into an unfinished restart the Harbour die parks running jobs. -/
def execJobPark (s : State) : Res :=
  if s.fw.phase = 0 ∨ s.on GLB_FWSTAT_PARKED ∨ s.plans.isEmpty
      ∨ s.wall < smGet (fun _ => 0) s.fw.since s.supCore + 50000000 then .next s
  else .next ({ s.wr GLB_FWSTAT_PARKED 0 1 with tide := { s.tide with parked := true } }.fault 0x63 0x30 0)

end Sys2Proof.Machine
end

