-- ==== Sys2Proof/Machine/Power.lean ====
section
/-! DEFINITION. Power, temperature, low-power states and SMBus (19_clocks_power_thermal.md, R528). -/
namespace Sys2Proof.Machine

def State.onPwr (s : State) (f : Pwr → Pwr) : State := { s with pwr := f s.pwr }
def State.onRst (s : State) (f : Rst → Rst) : State := { s with rst := f s.rst }

/-! ### The 60 V input (R438 to R440) -/

/-- Mode ceiling in W (Table 1-9): Neap 2,500, Spring 3,500. -/
def State.ceiling (s : State) : Nat := if s.on TID_STATUS_PWR_MODE then 2500 else 3500
def sumOf (f : Nat × Nat × Nat → Nat) (xs : List (Nat × Nat × Nat)) : Nat := xs.foldl (fun a x => a + f x) 0

/-- Samples of the last eight whole tide cycles, active or idle. -/
def State.governorWindow (s : State) : List (Nat × Nat × Nat) :=
  let c := s.wall / 1024
  s.pwr.samples.filter fun x => decide (x.1 / 1024 < c) && decide (c ≤ x.1 / 1024 + 8)
/-- I_LIM in 10 mA units, rounded down (R439). -/
def State.iLim (s : State) : Nat :=
  let w := s.governorWindow
  let v := sumOf (·.2.1) w
  if v = 0 then 6000 else min 6000 (s.ceiling * 10000 * w.length / v)

/-- The governor's evaluation (R439): the window's current against 60.0 A and the mode ceiling, exactly. -/
def State.govern (s : State) : State :=
  let w := s.governorWindow
  let n := w.length
  let v := sumOf (·.2.1) w
  let a := sumOf (·.2.2) w
  let excess := decide (6000 * n < a) || decide (s.ceiling * 10000 * n * n < a * v)
  let under := decide (a * 100 < 95 * 6000 * n) && decide (a * v * 100 < 95 * s.ceiling * 10000 * n * n)
  let req := s.rd PWR_THROTTLE_CUR_REQ
  let s := s.wr PWR_IN_I_LIM 0 s.iLim
  if excess then (s.wr PWR_THROTTLE_CUR_REQ 0 (min 7 (req + 1))).onPwr fun p => { p with below := 0 }
  else if under then
    if 16 ≤ s.pwr.below + 1 then (s.wr PWR_THROTTLE_CUR_REQ 0 (req - 1)).onPwr fun p => { p with below := 0 }
    else s.onPwr fun p => { p with below := p.below + 1 }
  else s.onPwr fun p => { p with below := 0 }

/-- The DAILY entry's temperature band of the hottest Headland (Table 23-8). -/
def dailyBand (t : Nat) : Nat := if t < 600 then 0 else if t < 750 then 1 else if t < 850 then 2 else if t < 950 then 3 else 4
def State.hottest (s : State) : Nat := (List.range 24).foldl (fun m q => max m (s.govT q)) 0

/-- Breakwater's current limits (R452, Table 20-5): 80 A for 10 µs, and the average of a whole millisecond. Its taps see
the current that the Harbour die measures (log 100). -/
def State.currentTrip (s : State) (amps : Nat) : State :=
  if s.pastLimit 4 amps 10 then s.enterSafe 4 7 0xFF amps
  else if s.pwr.samples.length = 100 ∧ s.pastLimit 3 (s.rd PWR_IN_AMPS) 1000 = true then s.enterSafe 3 7 0xFF (s.rd PWR_IN_AMPS)
  else s

/-- POWER_SAMPLE: every 10 µs the bus voltage (10 mV) and input current (10 mA) are measured; PWR_IN reports the
1 ms averages. -/
def execPowerSample (volts amps : BitVec 16) (s : State) : Res :=
  if s.rst.held then .next s else
  let xs := ((s.wall, volts.toNat, amps.toNat) :: s.pwr.samples).take 100
  let n := xs.length
  let s := s.onPwr fun p => { p with samples := xs }
  let s := ((s.wr PWR_IN_VOLTS 0 (sumOf (·.2.1) xs / n)).wr PWR_IN_AMPS 0 (sumOf (·.2.2) xs / n)).wr PWR_IN_WATTS 0
    (sumOf (fun x => x.2.1 * x.2.2) xs / (n * 10000))
  let hot := dailyBand s.hottest
  .next ((s.onStl fun r => { r with energy := r.energy + volts.toNat * amps.toNat,
                                    bandS := smUpd (fun _ => 0) r.bandS hot (· + 1) }).currentTrip amps.toNat)

/-- BUS_VOLTAGE_EXCURSION: the bus leaves its normal band (Table 19-2): above 65.0 V for 10 µs or below 48.0 V for
100 µs Breakwater trips; between these and the band a DEGRADED fault is raised. -/
def execBusVoltageExcursion (volts : BitVec 16) (us : Nat) (s : State) : Res :=
  let v := volts.toNat
  if s.rst.powered = false then .next s
  else if s.pastLimit 1 v us then .next (s.enterSafe 1 7 0xFF v)
  else if s.pastLimit 2 v us then .next (s.enterSafe 2 7 0xFF v)
  else if 4800 ≤ v ∧ v < 5400 ∨ 6300 < v ∧ v ≤ 6500 then .next (s.fault 0x72 0x30 0)
  else .next s

/-! ### Temperature (R447 to R451) -/

/-- Level asked for by a table of thresholds (0.1 °C) and levels, rising: a level clears 2 °C below its threshold. -/
def thrLevel (prev t : Nat) : List (Nat × Nat) → Nat
  | [] => 0
  | (thr, l) :: rest => max (if thr ≤ t ∨ (l ≤ prev ∧ thr < t + 20) then l else 0) (thrLevel prev t rest)
/-- Tables 19-5, 7-4 and 11-6. -/
def hdlThr : List (Nat × Nat) := [(950, 1), (980, 2), (1010, 4), (1040, 7)]
def hrbThr : List (Nat × Nat) := [(1000, 1), (1040, 2)]
def tplThr : List (Nat × Nat) := [(900, 1), (920, 2), (940, 3)]
def shgThr : List (Nat × Nat) := [(950, 1), (980, 2), (1010, 4)]

/-- Station whose THM_STN shows a die, by fuse index. -/
def dieStn (n : Nat) : Nat := if n < 24 then n else if n < 48 then n - 24 else if n < 64 then n - 24 else 40

/-- Sensors of a sample that disagree by over 10 °C with both their neighbours (R449). -/
def badSensors (n : Nat) (temps : List Nat) : List Nat :=
  let far (i j : Nat) : Bool := decide (100 < (temps.getD i 0 - temps.getD (j % temps.length) 0) + (temps.getD (j % temps.length) 0 - temps.getD i 0))
  (List.range temps.length).filter fun i =>
    let nb := if 48 ≤ n ∧ n < 64 ∧ 3 ≤ i ∧ i + 1 < temps.length then (i - 1, i + 1) else Config.neighbours n i
    far i nb.1 && far i nb.2

/-- New exclusions: a NOTE each, counted in EXCLUDED. -/
def State.excludeSensors (s : State) (n : Nat) (temps : List Nat) : State :=
  let old := smGet (fun _ => 0) s.pwr.excl n
  let new := (badSensors n temps).filter fun i => !old.testBit i
  let q := dieStn n
  new.foldl (fun s i =>
    (s.onPwr fun p => { p with excl := smUpd (fun _ => 0) p.excl n (· + 2 ^ i) }).fault 0x70 (stnId q) i
      |>.wr THM_STN_EXCLUDED q (min 16 (s.rd THM_STN_EXCLUDED q + 1))) s
/-- Hottest sensor not excluded. -/
def State.hotSensor (s : State) (n : Nat) (temps : List Nat) : Option Nat :=
  let m := smGet (fun _ => 0) s.pwr.excl n
  let ok := (List.range temps.length).filter fun i => !m.testBit i
  if ok.isEmpty then none else some (ok.foldl (fun a i => max a (temps.getD i 0)) 0)

/-- A die of another kind left without a sensor: DEGRADED, and level 2 until MOD. -/
def State.goBlind (s : State) (n : Nat) : State :=
  if s.pwr.blind.contains n then s
  else (s.onPwr fun p => { p with blind := p.blind ++ [n] }).fault 0x71 (stnId (dieStn n)) n
def State.blindReq (s : State) (n l : Nat) : Nat := if s.pwr.blind.contains n then max 2 l else l

/-- A station's 20 kHz sampling (R448). -/
def State.setFast (s : State) (q thr : Nat) : State :=
  s.flag THM_STN_FAST q (decide (thr ≤ s.govT q) || decide (s.wall < smGet (fun _ => 0) s.pwr.fastTo q))

/-- A temperature as a register shows it. -/
def degC (t : Nat) : Nat := min 255 (t / 10)

/-- A Headland's governing temperature and what it drives (R450, R451, R184, Tables 19-5, 7-4); Breakwater trips on its
estimate (R452). -/
def State.governHdl (s : State) (d : Nat) (own : Option Nat) (ring : Nat) (few : Bool) : State :=
  let prev := smGet (fun _ => 0) s.pwr.own d
  let o := own.getD prev
  let tpl := if s.pwr.blind.contains (24 + d) then none else s.pwr.own.lookup (24 + d)
  let est := match tpl with | some t => max ring (t + 60) | none => ring
  let run := if own.isSome && decide (o + 80 < est) then smGet (fun _ => 0) s.pwr.run d + 1 else 0
  let was := s.on THM_STN_SUSPECT d
  let sus := was || few || decide (3 ≤ run)
  let s := if sus && !was then (s.wr THM_STN_SUSPECT d 1).fault 0x71 d d else s
  let gov := if sus then est + 50 else o
  let s := s.onPwr fun p => { p with own := smSet (fun _ => 0) p.own d o, run := smSet (fun _ => 0) p.run d run,
                                     gov := smSet (fun _ => 0) p.gov d gov }
  let s := (((s.wr THM_STN_GOV d (degC gov)).wr THM_STN_OWN d (degC o)).wr THM_STN_EST d (degC est)).setFast d 850
  let s := s.wr THM_STN_THR_REQ d (thrLevel (s.rd THM_STN_THR_REQ d) gov hdlThr)
  let s := (s.wr TPL_THERM_HDL_TEMP d (degC gov)).wr TPL_THERM_TAP_BAND d (min 11 (gov / 100))
  let s := s.wr TPL_THERM_THR_REQ d (s.blindReq (24 + d) (thrLevel (s.rd TPL_THERM_THR_REQ d) gov tplThr))
  let hot := s.hottest
  let s := s.onStl fun r => if 800 < hot then { r with hot := true }
    else if hot < 400 ∧ r.hot = true then { r with hot := false, thermal := r.thermal + 1 } else r
  if 10 * s.rd BWT_TIGHTEN_HDL_TRIP < est then s.enterSafe 5 7 d (degC est) else s

/-- A Shingle's or the Harbour die's governing temperature is its own reading. -/
def State.governOwn (s : State) (n t thr : Nat) (req : List (Nat × Nat)) : State :=
  let q := dieStn n
  let s := s.onPwr fun p => { p with own := smSet (fun _ => 0) p.own n t, gov := smSet (fun _ => 0) p.gov q t }
  let s := ((s.wr THM_STN_GOV q (degC t)).wr THM_STN_OWN q (degC t)).setFast q thr
  s.wr THM_STN_THR_REQ q (s.blindReq n (thrLevel (s.rd THM_STN_THR_REQ q) t req))

/-- The requests of PWR_THROTTLE: the highest over the dies of each kind (Table 19-4). -/
def State.throttleReqs (s : State) : State :=
  let top (f : Nat → Nat) (n : Nat) : Nat := (List.range n).foldl (fun m i => max m (f i)) 0
  (((s.wr PWR_THROTTLE_HDL_REQ 0 (top (s.rd THM_STN_THR_REQ ·) 24)).wr PWR_THROTTLE_TPL_REQ 0 (top (s.rd TPL_THERM_THR_REQ ·) 24)).wr
    PWR_THROTTLE_SHG_REQ 0 (top (fun k => s.rd THM_STN_THR_REQ (24 + k)) 16)).wr PWR_THROTTLE_HRB_REQ 0 (s.rd THM_STN_THR_REQ 40)

/-- A station's ring-derived temperature. -/
def State.ringSample (s : State) (q ring : Nat) : State :=
  (s.onPwr fun p => { p with ring := smSet (fun _ => 0) p.ring q ring }).wr THM_STN_RING q (degC ring)

/-- SENSOR_SAMPLE: a die, by fuse index (65: the laser cartridge), samples its sensors in 0.1 °C; `ring` is its
station's ring-derived temperature. -/
def execSensorSample (die : Fin 66) (temps : List Nat) (ring : Nat) (s : State) : Res :=
  let n := die.val
  if s.rst.held then .next s else
  let s := s.excludeSensors n temps
  let own := s.hotSensor n temps
  if n < 24 then
    let left := temps.length - popN temps.length (smGet (fun _ => 0) s.pwr.excl n)
    .next (((s.ringSample n ring).governHdl n own ring (decide (left < 8))).throttleReqs)
  else
    let s := if own.isNone then s.goBlind n else s
    let t := own.getD (smGet (fun _ => 0) s.pwr.own n)
    if n < 48 then
      let s := (s.onPwr fun p => { p with own := smSet (fun _ => 0) p.own n t }).wr TPL_THERM_TPL_TEMP (n - 24) (degC t)
      .next ((s.wr TPL_THERM_THR_REQ (n - 24) (s.blindReq n (s.rd TPL_THERM_THR_REQ (n - 24)))).throttleReqs)
    else if n < 64 then
      let k := n - 48
      let s := (s.ringSample (24 + k) ring).governOwn n t 850 shgThr
      .next (((s.wr SHG_STATUS_TEMP k (degC t)).wr SHG_STATUS_THR_REQ k (s.rd THM_STN_THR_REQ (24 + k))).throttleReqs)
    else if n = 64 then .next (((s.ringSample 40 ring).governOwn n t 900 hrbThr).throttleReqs)
    else
      let was := smGet (fun _ => 0) s.pwr.own 65
      let s := s.onPwr fun p => { p with own := smSet (fun _ => 0) p.own 65 t }
      .next (if was < 700 ∧ 700 ≤ t then s.fault 0x23 0x30 16 else s)

/-! ### Low-power states (R442, R443) -/

/-- A request of PWR_CTRL by the owning host: refused while a job runs, a stream is enabled, or for an armed lee. -/
def State.lowPower (s : State) (master target : Nat) : State :=
  if !s.mayConfigure master then (if master < 2 then s.hostLog master 0 0x600010 cPERM else s)
  else if s.busy || s.armedLee then s.wr PWR_CTRL_CODE 0 cPERM
  else
    let s := s.wr PWR_CTRL_CODE 0 cOK
    if s.awake then (s.wr PWR_STATE_STATE 0 target).onPwr fun p => { p with becalmed := decide (target = 3) }
    else if target = 3 ∧ s.rd PWR_STATE_STATE = 2 then (s.wr PWR_STATE_STATE 0 3).onPwr fun p => { p with becalmed := true }
    else s
def execDoldrumsRequest (master : Master) (s : State) : Res := .next (s.lowPower master.val 1)
def execBecalmedRequest (master : Master) (s : State) : Res := .next (s.lowPower master.val 3)
/-- WAKE_REQUEST: REQ = 3 starts an exit. -/
def execWakeRequest (master : Master) (s : State) : Res :=
  if !s.mayConfigure master.val then .next (if master.val < 2 then s.hostLog master.val 0 0x600010 cPERM else s)
  else .next ((s.wr PWR_CTRL_CODE 0 cOK).wake 1)

/-- Register fields not kept across DOL or BEC return to their reset values; the permanent use of a bundle's spare is kept
(Table 21-4), and a disabled plane is DISABLED (R336). -/
def State.lowPowerRegs (s : State) (event : Nat) : State :=
  let perm := (List.range 131).filter fun b => decide (2 ≤ s.rd HRN_BMAP_SPARE_USE b)
  let t := { s with regs := rfReset event (fun _ _ => true) s.regs }
  let t := perm.foldl (fun t b => (t.wr HRN_BMAP_SPARE_FOR b (s.rd HRN_BMAP_SPARE_FOR b)).wr HRN_BMAP_SPARE_USE b (s.rd HRN_BMAP_SPARE_USE b)) t
  (List.range 8).foldl (fun t p => if t.on FAB_PLANE_DISABLE p then t.wr FAB_PLANE_STATE p planeDisabled else t) t

/-- Tile state, arms, notes and tables of every die are lost (R56, R197). -/
def State.loseTiles (s : State) (d : Nat) : State :=
  let s := s.eachTile d fun _ t => { t.fresh with active := [] }
  let x := s.stn d
  let s := s.setStn d { x with tx := [], rx := [], fails := [], report := [], got := [], kept := [] }
  let s := (s.orphanCmds d).dropNotes d
  { s with links := s.links.filter fun l => l.die != d, barrs := s.barrs.filter fun b => b.1 / 16 != d,
           mreqs := s.mreqs.filter fun r => r.q != d, mwait := s.mwait.filter fun x => x.1.q != d,
           fills := s.fills.filter fun f => f.die != d, kvs := s.kvs.filter fun j => j.die != d,
           mout := s.mout.filter fun m => m.1 != d, inbox := s.inbox.filter fun m => m.1 != d }
def State.loseTables (s : State) : State := (List.range 41).foldl (fun s q => s.dropTables q) s

/-- Doldrums: careens abandoned, stacks in self-refresh, Tidepools in retention, tiles gated, lasers at STANDBY. Swaps, role
changes and table loads that wait are gone with the tables. -/
def State.toDoldrums (s : State) : State :=
  let s := s.abandonCareens.endSquall
  let s := { s with tide := { s.tide with swapReqs := [], swapLatched := none, mroleReq := none, mroleLatched := none, load := none } }
  let s := (List.range 16).foldl (fun s k => if s.rd SHG_STATUS_STATE k = 3 then s.wr SHG_STATUS_STATE k 4 else s) s
  let s := (List.range 24).foldl (fun s d => (s.retain d).loseTiles d) s
  let s := s.loseTables
  (s.inState lit).foldl (fun s n => s.setSrc n standby) s
/-- The fabric as Becalmed leaves it: transmitters in probe mode, planes down, commands in progress aborted, and the contexts
and the reply cache lost (R442, Table 21-4). -/
def State.darkFabric (s : State) : State :=
  let s := s.wr HRN_PORTLIGHT_OPEN 0 1023
  let s := (List.range 8).foldl (fun s p => if s.planeSt p = planeDisabled then s else s.planeOff p planeDown 2) s
  let s := s.fab.cmds.foldl (fun s c => s.endCmd { c with code := worstCode c.code cABORTED }) s
  let s := if s.on FAB_DIRECT_CMD_BUSY then (s.wr FAB_DIRECT_CMD_CODE 0 cABORTED).wr FAB_DIRECT_CMD_BUSY 0 0 else s
  { s with fab := { Fab.reset with nextCid := s.fab.nextCid, nextReq := s.fab.nextReq, reqSent := s.fab.reqSent, quiet := s.fab.quiet } }.dropHrb
    fun op => match op with | .target _ _ => true | .atomic _ _ _ => true | .directRead _ _ _ _ _ _ _ => true | .directLand _ => true | _ => false
/-- Becalmed: Headland, Tidepool and Shingle logic unpowered; lasers WARM; fibre transmitters in probe mode. -/
def State.toBecalmed (s : State) : State :=
  let s := s.darkFabric
  let s := { s with jobs := [], kvUndo := [], inbox := s.inbox.filter (·.1 == 40), mout := s.mout.filter (·.1 == 40) }
  let s := { s with twn := { s.twn with gathers := [] } }.wr TWN_STATUS_PORTS_UP 0 0
  let serving := allSrcs.filter fun n => [lit, standby, locking, ready].contains (s.srcSt n)
  let s := serving.foldl (fun s n =>
    let keep := decide (s.rd HRN_SRC_POSITION n < 24) || s.srcSt n == ready
    (s.setSrcH n { s.srcH n with served := keep }).setSrc n warm) s
  let s := { s with pool := [] }
  (List.range 24).foldl (fun s d => s.wr TPL_STATUS_STATE d 0) s

/-- LOW_POWER_ENTRY: the ordered entry, once every maintenance operation and every Ferry burst in flight has finished. -/
def execLowPowerEntry (s : State) : Res :=
  let st := s.rd PWR_STATE_STATE
  if (st ≠ 1 ∧ st ≠ 3) ∨ (List.range 24).any (fun d => s.on TPL_MAINT_BUSY d) ∨ s.inFlight ≠ 0 then .next s
  else
    let s := s.toDoldrums.onPwr fun p => { p with asleep := true }
    .next (if st = 1 then s.wr PWR_STATE_STATE 0 2 else s.toBecalmed.wr PWR_STATE_STATE 0 4)

/-- Outside a launch the whole layer takes an optical mode. -/
def State.setOpt (s : State) (opt : Nat) : State :=
  { s with tide := { s.tide with optNext := opt } }.mapStns fun _ x => { x with opt := opt, optTo := opt }
/-- After Becalmed the optical mode and the pending mark are set again (R21, R248). -/
def State.optAgain (s : State) : State :=
  let opt := if s.on HRN_OPTSEL_BRISK_OK && !s.on HRN_OPTSEL_FORCE_CALM then 0 else 1
  let s := ((s.wr TID_STATUS_OPT_MODE 0 opt).wr GLB_MODULE_ID_OPT_MODE 0 opt).flag GLB_MODULE_ID_GRADE_PENDING 0
    (!s.on HRN_OPTSEL_BRISK_OK && decide (s.rd GLB_MODULE_ID_GRADE < 2))
  s.setOpt opt

/-- LOW_POWER_EXIT: the steps in reverse, when an entry was carried out; registers not kept return to their reset values as the event ends, and
after Becalmed every coupler runs a full lane test and a recalibration starts (R182, R241). -/
def execLowPowerExit (s : State) : Res :=
  if s.rd PWR_STATE_STATE ≠ 5 then .next s else
  let bec := s.pwr.becalmed
  let shgs := (List.range 16).map fun k => s.rd SHG_STATUS_STATE k
  if !s.pwr.asleep then .next ((s.wr PWR_STATE_STATE 0 0).calmDown) else
  let s := (s.lowPowerRegs (if bec then 6 else 5)).onPwr fun p => { p with becalmed := false, asleep := false }
  let s := { s with regions := [], tide := { s.tide with pwrNext := s.rd TID_STATUS_PWR_MODE } }.setOpt (s.rd TID_STATUS_OPT_MODE)
  let s := if bec then
      let s := allSrcs.foldl (fun s n => if s.srcSt n = warm ∧ (s.srcH n).served = true then
        s.setSrc n (if s.rd HRN_SRC_POSITION n < 24 then lit else ready) else s) s
      (s.onLight fun l => { l with request := true }).optAgain
    else (s.inState standby).foldl (fun s n => s.setSrc n lit) s
  let s := (List.range 16).foldl (fun s k =>
    s.wr SHG_STATUS_STATE k (if shgs.getD k 0 = 4 && !s.inReset (24 + k) then 3 else shgs.getD k 0)) s
  let s := (List.range 24).foldl (fun s d => if s.inReset d then s.wr TPL_STATUS_STATE d 4 else if bec then s.wr TPL_STATUS_STATE d 2
    else (s.centreTaps d).wr TPL_STATUS_STATE d (if s.rd TPL_STATUS_WIDTH d = 0 then 5 else 3)) s
  .next ((s.wr PWR_STATE_STATE 0 0).calmDown)

/-! ### SMBus (R15, R453, R528) -/

/-- SMBus packet error code: CRC-8 over the bytes in the order they are clocked. -/
def pecOf (bs : List Byte) : Nat := bs.foldl (fun c b => crc8 b.toNat 8 c) 0
/-- A read's reply: a Block Read begins with its byte count; the PEC follows when it is clocked. -/
def State.smbReply (s : State) (code : Nat) (block pec : Bool) (data : List Byte) : State :=
  let a := 2 * (if s.rst.addrSel then 0x59 else 0x58)
  let body := (if block then leBytes 1 data.length else []) ++ data
  let p := leBytes 1 (pecOf (leBytes 1 a ++ leBytes 1 code ++ leBytes 1 (a + 1) ++ body))
  s.emit (.reply (body ++ if pec then p else []) false)

/-- Values of Table 19-8. -/
def State.telemetry (s : State) (code : Nat) : List Byte :=
  let top (a n : Nat) : Nat := (List.range n).foldl (fun m i => max m (s.rd THM_STN_GOV (a + i))) 0
  match code with
  | 0x00 => leBytes 2 (s.rd BWT_STATUS_SAFE + 2 * s.rd BWT_TRIP_PENDING + 4 * s.rd GLB_POST_HARBOUR + 8 * s.rd PWR_STATE_STATE
      + 64 * s.rd PWR_THROTTLE_LEVEL + 512 * s.rd TID_STATUS_PWR_MODE)
  | 0x01 => leBytes 2 (s.rd PWR_IN_VOLTS)
  | 0x02 => leBytes 2 (s.rd PWR_IN_AMPS)
  | 0x03 => leBytes 2 (s.rd PWR_IN_WATTS)
  | 0x04 => leBytes 2 (top 0 24)
  | 0x05 => leBytes 2 (top 24 16)
  | 0x06 => leBytes 2 (s.rd THM_STN_GOV 40)
  | 0x07 => leBytes 2 (smGet (fun _ => 0) s.pwr.own 65 / 10)
  | 0x10 => (List.range 41).map fun q => BitVec.ofNat 8 (s.rd THM_STN_GOV q)
  | 0x11 => leBytes 8 (rfWord s.regs PWR_THROTTLE 0).toNat
  | _ => leBytes 8 (rfWord s.regs GLB_MODULE_ID 0).toNat
def telemetryCodes : List Nat := [0, 1, 2, 3, 4, 5, 6, 7, 0x10, 0x11]
def telemetryLen (code : Nat) : Nat := if code < 8 then 2 else if code = 0x10 then 41 else 8

/-- A telemetry read: while the module is held in reset, the last values measured, zero for those never measured. -/
def State.smbRead (s : State) (code : Nat) (pec : Bool) : Res :=
  if !s.rst.powered then .next s
  else
    let v := if s.rst.held ∧ code ≠ 0x20 then smGet (fun c => leBytes (telemetryLen c) 0) s.rst.smbus code else s.telemetry code
    .next (s.smbReply code (decide (0x10 ≤ code)) pec v)

def execStatusWord (pec : Bool) (s : State) : Res := s.smbRead 0x00 pec
def execBusVoltageRead (pec : Bool) (s : State) : Res := s.smbRead 0x01 pec
def execInputCurrentRead (pec : Bool) (s : State) : Res := s.smbRead 0x02 pec
def execInputPowerRead (pec : Bool) (s : State) : Res := s.smbRead 0x03 pec
def execHeadlandTemperatureRead (pec : Bool) (s : State) : Res := s.smbRead 0x04 pec
def execStackTemperatureRead (pec : Bool) (s : State) : Res := s.smbRead 0x05 pec
def execHarbourTemperatureRead (pec : Bool) (s : State) : Res := s.smbRead 0x06 pec
def execLaserTemperatureRead (pec : Bool) (s : State) : Res := s.smbRead 0x07 pec
def execStationTemperaturesRead (pec : Bool) (s : State) : Res := s.smbRead 0x10 pec
def execThrottleRead (pec : Bool) (s : State) : Res := s.smbRead 0x11 pec
def execModuleIdRead (pec : Bool) (s : State) : Res := s.smbRead 0x20 pec
/-- WAKE: the SMBus Send Byte 0x40 starts an exit from a low-power state. -/
def execSmbusWake (s : State) : Res := if s.rst.powered && !s.rst.held then .next (s.wake 6) else .next s

/-- Values of the Strandline summary (Table 23-9). -/
def State.stlSummary (s : State) : List Byte :=
  let spares := ([24, 25].filter fun n => decide (s.rd HRN_SRC_POSITION n < 24)).length
  leBytes 1 (s.rd GLB_MODULE_ID_GRADE) ++ leBytes 1 (s.rd GLB_MODULE_ID_GRADE_PENDING) ++ leBytes 4 (s.powerS / 3600)
    ++ leBytes 4 (s.stl.energy / 3600000000000000) ++ leBytes 4 s.stl.thermal ++ leBytes 2 s.stl.trips ++ leBytes 2 (s.rd SEC_STATUS_WIPES)
    ++ leBytes 2 s.stl.updates ++ leBytes 4 (s.rd STL_STATUS_NEXT_SEQ) ++ leBytes 4 (s.rd HRN_CART_SERIAL) ++ leBytes 1 spares ++ leBytes 3 0
/-- STRANDLINE_SUMMARY: SMBus 0x80. -/
def execStrandlineSummary (pec : Bool) (s : State) : Res :=
  if !s.rst.powered then .next s else .next (s.smbReply 0x80 true pec s.stlSummary)
/-- ENTRY_POINTER: SMBus 0x81 sets the entry pointer and restarts the signature pointer. -/
def execEntryPointer (seq : BitVec 32) (s : State) : Res :=
  if !s.rst.powered then .next s else .next (s.onStl fun r => { r with ptr := seq.toNat, sigPtr := 0 })
/-- Bytes of an entry as read from flash: erased bytes beyond the last entry read as zero (log 43). -/
def State.stlBytes (s : State) (seq : Nat) : List Byte :=
  let e := smGet (fun _ => []) s.stl.entries seq
  e ++ leBytes (64 - e.length) 0
/-- ENTRY_READ: SMBus 0x82 returns the entry at the pointer, which advances. -/
def execEntryRead (pec : Bool) (s : State) : Res :=
  if !s.rst.powered then .next s
  else .next ((s.smbReply 0x82 true pec (s.stlBytes s.stl.ptr)).onStl fun r => { r with ptr := r.ptr + 1 })
/-- SIGNATURE_READ: SMBus 0x83 returns the next 32 B of the current signature block, padded with zero. -/
def execSignatureRead (pec : Bool) (s : State) : Res :=
  if !s.rst.powered then .next s
  else
    let d := (s.stl.cur.drop (32 * s.stl.sigPtr)).take 32
    .next ((s.smbReply 0x83 true pec (d ++ leBytes (32 - d.length) 0)).onStl fun r => { r with sigPtr := r.sigPtr + 1 })

end Sys2Proof.Machine
end

