-- ==== Sys2Proof/Machine/Access.lean ====
section
/-! DEFINITION. Reads and writes of BAR0 and BAR4 by access code, their owner checks and locks (R2, R4, R371, R377,
R535). -/
namespace Sys2Proof.Machine

/-! ### Reads -/

/-- Whether a register stands in a block that Becalmed leaves unpowered (R444): Headland, Tidepool and Shingle
windows. -/
def unpowered (no inst : Nat) : Bool :=
  [HDL_ROWMAP, HDL_BFAULT_LOG, HDL_BARSET, HDL_CLK, TPL_STATUS, TPL_CTRL, TPL_MAINT, TPL_MAINT_RANGE, TPL_MAP, TPL_MAPCHK,
    TPL_POISON_LOG, TPL_THERM, SHG_STATUS, SHG_CTRL, SHG_SCRUB, SHG_ECC, SHG_ERRLOG].contains no
    || ([STN_TIDE, STN_HRN, STN_FLT].contains no && decide (inst < 40))

/-- The 8 B word at an aligned BAR0 address: a register's readable image, a fault record, or zero (R2). -/
def State.bar0Word (s : State) (addr : Nat) : Nat :=
  if 0x704000 ≤ addr ∧ addr < 0x708000 then
    leNat (((smGet (fun _ => []) s.flt.queue ((addr - 0x704000) / 32)).drop (addr % 32)).take 8)
  else match regAt addr with
    | some (r, i) => if s.rd PWR_STATE_STATE = 4 ∧ unpowered r.no i = true then 0 else readImage r.fields (rfWord s.regs r.no i).toNat
    | none => 0

/-- RC fields wholly among the bits read return to their reset values. -/
def State.clearRead (s : State) (addr lo n : Nat) : State :=
  match regAt addr with
  | some (r, i) =>
    if s.rd PWR_STATE_STATE = 4 ∧ unpowered r.no i = true then s
    else s.wrWord r.no i (BitVec.ofNat 64 (readClear lo n r.fields (rfWord s.regs r.no i).toNat))
  | none => s

/-- A read that completes with Unsupported Request and is logged. -/
def State.badRead (s : State) (m bar addr : Nat) : State := (s.hostLog (m % 2) bar addr cADDR_FAULT).emit (.replyError cADDR_FAULT)

/-- A BAR0 read of 4 or 8 aligned bytes. -/
def State.readBar0 (s : State) (m addr size : Nat) : State :=
  if (size ≠ 4 ∧ size ≠ 8) ∨ addr % size ≠ 0 then s.badRead m 0 addr
  else
    let a := addr / 8 * 8
    let lo := 8 * (addr - a)
    (s.clearRead a lo (8 * size)).emit (.reply (leBytes size (bitsN (s.bar0Word a) lo (8 * size))) false)

/-- A BAR4 read: a mailbox channel its reader may read, the MSI-X pages; doorbells and reserved offsets read zero. -/
def State.readBar4 (s : State) (m addr size : Nat) : State :=
  let zero (s : State) : State := s.emit (.reply (leBytes size 0) false)
  if addr < 0x400 then
    if size ≠ 8 ∨ addr % 8 ≠ 0 then (s.hostLog (m % 2) 2 addr cADDR_FAULT).emit (.reply (leBytes size 0) false)
    else
      let c := addr / 16
      let may := !s.on GLB_HOSTCFG_DUAL || m == 9 || (s.on MBX_BIND_VALID c && (s.rd MBX_BIND_SENDER c == m || s.rd MBX_BIND_RECEIVER c == m))
      let late := decide (m < 2) && (s.rd MBX_CTRL_LATE).testBit m
      if !may || late then (s.mbxLog c m cPERM).emit (.reply (leBytes 8 0) false)
      else s.emit (.reply (leBytes 8 (s.bar0Word (0x10000000 + addr))) false)
  else if 0x8000 ≤ addr ∧ addr < 0x9020 then
    if (size ≠ 4 ∧ size ≠ 8) ∨ addr % size ≠ 0 then s.badRead m 2 addr
    else if addr < 0x9000 then
      let v := (addr - 0x8000) / 16
      let masked := (s.port (m % 2)).mask.getLsbD v
      s.emit (.reply (leBytes size (if addr % 16 = 12 ∧ masked = true then 1 else if addr % 16 = 8 ∧ size = 8 ∧ masked = true then 2 ^ 32 else 0)) false)
    else s.emit (.reply (leBytes size ((s.port (m % 2)).pend.toNat / 2 ^ (8 * (addr - 0x9000)))) false)
  else if (0x1000 ≤ addr ∧ addr < 0x1200) ∨ (0x2000 ≤ addr ∧ addr < 0x2100) then
    if (size ≠ 4 ∧ size ≠ 8) ∨ addr % size ≠ 0 then s.badRead m 2 addr else zero s
  else zero s

/-- READ_CLEAR: a read of BAR0 or BAR4 returns the value and clears the RC fields it covers. -/
def execReadClear (master : Master) (bar4 : Bool) (addr : BitVec 26) (size : Nat) (s : State) : Res :=
  if s.rst.held then .next s
  else .next (if bar4 then s.readBar4 master.val addr.toNat size else s.readBar0 master.val addr.toNat size)

/-! ### Writes -/

/-- Whether a host that is not the owning host may write a register all the same (R377). -/
def State.exempt (s : State) (h no inst : Nat) : Bool :=
  (no == GLB_BAR2WIN && inst == h)
    || ([FRY_CFG, FRY_RING, FRY_CQ, FRY_IDX, FRY_TIMER, FRY_PERIOD].contains no && s.rd FRY_CFG_OWNER inst == h)
    || ([RNG_CFG, RNG_BASE].contains no && inst / 64 == h)

/-- Whether a master's write of a register is accepted; the binding table is the supervisor's, the Squall registers
the owning host's, and fault injection needs factory mode (R342, R412, R472). Breakwater only reads (R8). -/
def State.mayWrite (s : State) (m no inst : Nat) : Bool :=
  if m = 9 then false
  else if no = MBX_BIND ∨ no = MBX_CTRL then decide (2 ≤ m)
  else if no = FAB_SQUALL_CTRL ∨ no = FAB_SQUALL_RATE ∨ no = FAB_SQUALL_SEED then decide (m < 2) && s.owns m
  else if no = FLT_INJ then s.on FLT_STATUS_FACTORY && s.mayConfigure m
  else decide (2 ≤ m) || s.owns m || s.exempt m no inst

/-- Lock bit of a register's RWL fields. -/
def State.locked (s : State) (no inst : Nat) : Bool :=
  if no = TPL_CTRL then s.on TPL_CTRL_LOCK inst
  else if no = MBX_BIND then s.on MBX_CTRL_LOCK
  else if no = TWN_CTRL ∨ no = TWN_ARM_ADDR ∨ no = TWN_REPLAY ∨ no = TWN_REGION then
    s.on TWN_CTRL_WANT && (s.on TWN_STATUS_ARMED || !s.plans.isEmpty)
  else if no = BWT_TIGHTEN then true
  else s.on FAB_CTRL_LOCK

/-- Fields that commands of their own write: a register write leaves them. -/
def commandFields : List Fld :=
  [RNG_CFG_ENABLE, FRY_CFG_ENABLE, FRY_CFG_OWNER, FRY_IDX_TAIL, SMP_CFG_ENABLE, FAB_FLOW0_OPEN, FAB_PLANE_DISABLE, FAB_SQUALL_CTRL_EN,
    FAB_SQUALL_CTRL_TARGET, FAB_SQUALL_CTRL_PORTS, FAB_SQUALL_CTRL_DURATION_MS, TWN_CTRL_WANT, MBX_CTRL_LOCK, MBX_DATA_DATA, BWT_TRIP_PENDING]
/-- Fields that only a disabled ring, channel, stream or closed flow takes (R318, R332, R381, R394). -/
def State.heldFields (s : State) (no inst : Nat) : List Fld :=
  if (no = RNG_CFG ∨ no = RNG_BASE) ∧ s.on RNG_CFG_ENABLE inst = true then [RNG_CFG_MODE, RNG_CFG_SQ_LOG2N, RNG_CFG_CQ_LOG2N, RNG_BASE_BASE]
  else if no = FAB_FLOW0 ∧ s.on FAB_FLOW0_OPEN inst = true then [FAB_FLOW0_RANK, FAB_FLOW0_HOME]
  else if no = FRY_CFG ∧ s.on FRY_CFG_ENABLE inst = true then [FRY_CFG_PRIO, FRY_CFG_TRIG, FRY_CFG_SRC_CH]
  else []
/-- Registers that take no write at all for now: those of an enabled channel or stream, a reserved fault kind's (R472)
and the barrier sets of a die on which a job runs (R160). -/
def State.frozen (s : State) (no inst : Nat) : Bool :=
  ([FRY_RING, FRY_CQ, FRY_TIMER, FRY_PERIOD].contains no && s.on FRY_CFG_ENABLE inst)
    || ([SMP_CFG, SMP_TEMP, SMP_TRUNC, SMP_SEED, SMP_STOP, SMP_POS, SMP_SEQ, SMP_STATE].contains no && s.on SMP_CFG_ENABLE inst)
    || (no == SMP_HIST && s.on SMP_CFG_ENABLE (inst / 512))
    || (no == FLT_KIND && (kindDefaults inst).isNone)
    || (no == HDL_BARSET && (s.die (inst / 64)).running)

/-- A log whose VALID a write cleared loses MULTI and COUNT too. -/
def State.logClear (s : State) (valid multi count : Fld) (inst : Nat) : State :=
  if s.on valid inst then s else (s.wr multi inst 0).wr count inst 0

/-- What follows a write of a register besides its fields; a binding that names a master that may not send or take is
left invalid (R412). -/
def State.afterWrite (s : State) (no inst : Nat) : State :=
  if no = HDL_BFAULT_LOG then s.logClear HDL_BFAULT_LOG_VALID HDL_BFAULT_LOG_MULTI HDL_BFAULT_LOG_COUNT inst
  else if no = TPL_POISON_LOG then s.logClear TPL_POISON_LOG_VALID TPL_POISON_LOG_MULTI TPL_POISON_LOG_COUNT inst
  else if no = SHG_ERRLOG then s.logClear SHG_ERRLOG_VALID SHG_ERRLOG_MULTI SHG_ERRLOG_COUNT inst
  else if no = GLB_HOSTLOG then s.logClear GLB_HOSTLOG_VALID GLB_HOSTLOG_MULTI GLB_HOSTLOG_COUNT inst
  else if no = MBX_LOG then s.logClear MBX_LOG_VALID MBX_LOG_MULTI MBX_LOG_COUNT inst
  else if no = FAB_REQLOG then s.logClear FAB_REQLOG_VALID FAB_REQLOG_MULTI FAB_REQLOG_INFO_COUNT inst
  else if no = FAB_TGTLOG then s.logClear FAB_TGTLOG_VALID FAB_TGTLOG_MULTI FAB_TGTLOG_INFO_COUNT inst
  else if no = FLT_QUEUE then s.flag FLT_QUEUE_FULL 0 (s.on FLT_QUEUE_FULL && s.rd FLT_QUEUE_HEAD == s.rd FLT_QUEUE_TAIL)
  else if no = MBX_BIND then
    let barred (m : Nat) : Bool := m == 9 || decide (11 < m)
    (if barred (s.rd MBX_BIND_SENDER inst) || barred (s.rd MBX_BIND_RECEIVER inst) then s.wr MBX_BIND_VALID inst 0 else s)
  else if no = GLB_DRVVER then s.updMismatch
  else if no = STL_READ then s.stlWindow
  else if no = HRN_OPTSEL then s.updateBrisk
  else if no = FAB_CTRL ∨ no = FAB_REPL1 then s.setHeld
  else if no = FAB_REPL0 then (if s.caps.testBit 4 then s else s.wr FAB_REPL0_VALID inst 0).setHeld
  else if no = FAB_NODE then (if s.rd FAB_NODE_STATE inst = 2 then s.nodeLost inst else s)
  else if no = RNG_CFG ∨ no = RNG_BASE then s.wake 2
  else s

/-- A register that holds an RC field and nothing a write changes: a write to it is ignored and not reported (R4). -/
def rcOnly (r : RegSpec) : Bool :=
  r.fields.any (fun f => f.acc == .rc) && r.fields.all fun f => f.acc == .rc || f.acc == .ro

/-- Whether a refused write is logged in GLB_HOSTLOG: not of a register that takes none (R4), nor of the Squall registers
(R342), nor by Breakwater. -/
def logsRefusal (m : Nat) (r : RegSpec) : Bool :=
  !rcOnly r && m != 9 && (r.no == FLT_INJ || (decide (m < 2) && !([FAB_SQUALL_CTRL, FAB_SQUALL_RATE, FAB_SQUALL_SEED].contains r.no)))

/-- A write of `size` bytes of `data` at a BAR0 address by a master: GLB_FWCORE takes its own core's watchdog timeout
on the internal path (R424). -/
def State.writeBar0 (s : State) (m addr size : Nat) (data : Nat) : State :=
  if (size ≠ 4 ∧ size ≠ 8) ∨ addr % size ≠ 0 then s.hostLog (m % 2) 0 addr cADDR_FAULT
  else
    let a := addr / 8 * 8
    match regAt a with
    | none => if m < 2 ∧ s.owns m = false then s.hostLog m 0 addr cPERM else s
    | some (r, i) =>
      if !s.mayWrite m r.no i then (if logsRefusal m r then s.refusedWrite m addr else s)
      else if r.no = GLB_FWCORE then
        (if (m = 2 ∧ i = s.supCore) ∨ (3 ≤ m ∧ m < 9 ∧ i + 1 = m) then
          s.wr GLB_FWCORE_WDT_MS i (min 1000 (max 1 (bitsN data 3 10))) else s)
      else if s.frozen r.no i then s
      else
        let lo := 8 * (addr - a)
        let old := rfWord s.regs r.no i
        let new := writeImage (s.locked r.no i) lo (8 * size) (data * 2 ^ lo) r.fields old.toNat
        let keep := (commandFields ++ s.heldFields r.no i).filter fun f => f.reg == r.no
        let new := keep.foldl (fun v f => setBitsN v f.lo f.wd (bitsN old.toNat f.lo f.wd)) new
        (s.wrWord r.no i (BitVec.ofNat 64 new)).afterWrite r.no i

end Sys2Proof.Machine
end

