-- ==== Sys2Proof/Machine/Channel.lean ====
section
/-! DEFINITION. Ends of memory-channel requests at every port, with what the Harbour station's accesses then do, and the
reset of a Shingle (R263, R265, R275). -/
namespace Sys2Proof.Machine

/-- The bytes of an access in its units' data, and the poison marks of the 32 B units counted from its address. -/
def unitsFrom (pa n : Nat) (data : List Byte) (bad : List Bool) : List Byte × List Bool :=
  let o := pa % 32
  ((data.drop o).take n, if o = 0 then bad else (List.range ((n + 31) / 32)).map fun u => bad.getD u false || bad.getD (u + 1) false)

/-- An access of the Harbour station has ended: its requester goes on. -/
def State.hrbNext (s : State) (e : HrbEnd) : State :=
  match e.op with
  | .bar2Read p pa len => s.bar2Answer p pa len e.code e.data
  | .bar2Write _ => s
  | .fryRead c off => s.fryLoaded c off e.code e.data e.bad
  | .fryWrite c off => s.fryStored c off e.code
  | .target plane p => s.targetEnd plane p e.code e.data e.bad
  | .atomic plane p old => s.tgtAtomEnd plane p e.code old
  | .directRead op node aop w64 len off buf =>
    let (d, b) := unitsFrom buf (directSource op aop len) e.data e.bad
    s.directGo op node aop w64 len off buf e.code d b
  | .directLand cid => s.directLanded cid e.code
  | .gone => s
/-- Every access that has ended. -/
def State.runHrb (s : State) : State := s.hrbDone.foldl State.hrbNext { s with hrbDone := [] }

/-- RDATA: a read data segment arrives and goes to its requester's destination; the last ends the request (R263). -/
def execRdata (q : Fin 41) (s : State) : Res := .next (s.takeRdata q.val).runHrb
/-- WACK: an acknowledgement ends its request (R263). -/
def execWack (q : Fin 41) (s : State) : Res := .next (s.takeWack q.val).runHrb
/-- MEMORY_REQUEST_TIMEOUT: a request not ended within 327.68 µs of wall time completes with TIMEOUT (R265). -/
def execMemoryRequestTimeout (q : Fin 41) (k : Fin 16) (rid : BitVec 12) (s : State) : Res :=
  .next (s.takeTimeout q.val k.val rid.toNat).runHrb

/-- MAKEUP_TICK: in ticks 1,013 to 1,017 a port sends the makeups assigned to it; at 1,017 unassigned failures, and the
requests whose swells were lost, complete with TIMEOUT (R206, R265). -/
def execMakeupTick (q : Fin 41) (s : State) : Res :=
  if s.tk < 1013 ∨ 1017 < s.tk ∨ s.idle ∨ !s.listens q.val then .next s else
  let s := s.makeupTick q.val
  .next (if s.tk = 1017 then s.endDoomed.runHrb else s)

/-! ### The reset of a Shingle die (R275, R276) -/

/-- What R275 records for a request outstanding at a Shingle that resets. -/
def lostCode (typ : Nat) : Nat := if typ = mKVCMD then cABORTED else cPOISON
/-- Units of a read that have not been delivered. -/
def MemReq.lacking (r : MemReq) : List Nat := (List.range r.len).filter fun u => !segUnits r.seen u 1
/-- A request outstanding at a Shingle that resets completes; a read's undelivered units are written as zero. -/
def State.loseReq (s : State) (r : MemReq) : State :=
  let s := if r.kind = mRD then r.lacking.foldl (fun s u => s.landRead r u (leBytes 32 0) [true]) s else s
  match s.mreqs.find? (·.uid == r.uid) with
  | some r => s.endReq r (lostCode r.kind)
  | none => s
/-- The header that a KV command wrote before its completion was lost is as it was before (R275). -/
def State.undoKv (s : State) (u : KvUndo) : State :=
  if memBytes s.hbm u.base 64 = u.new then { s with hbm := memStore s.hbm u.base u.old } else s
/-- What stands at a Shingle of a stack, and on its way to or from it, is gone; KV commands whose completion was outstanding
leave their headers unchanged. -/
def State.clearShingle (s : State) (k : Nat) : State :=
  let q := 24 + k
  let undo := s.kvUndo.filter (·.k == k)
  let s := undo.reverse.foldl State.undoKv s
  { s with kvUndo := s.kvUndo.filter (·.k != k), jobs := s.jobs.filter (·.k != k),
           mout := s.mout.filter fun m => m.1 != q && m.2.1 != q, inbox := s.inbox.filter fun m => m.1 != q,
           twn := { s.twn with gathers := s.twn.gathers.filter fun g => !undo.any fun u => u.k == g.k && u.q == g.q && u.rid == g.rid } }
/-- Every requester completes its requests to the stack; waiting ones find it lost. -/
def State.loseRequests (s : State) (k : Nat) : State :=
  let s := (s.mreqs.filter (·.k == k)).foldl State.loseReq s
  (List.range 41).foldl State.admitPort s

end Sys2Proof.Machine
end

