-- ==== Sys2Proof/Machine/Reset.lean ====
section
/-! DEFINITION. Die resets, PLL events, module resets and power (21_reset_and_retention.md, R433). -/
namespace Sys2Proof.Machine

/-! ### Die resets (R475 to R478, R483 to R485, R275, R276) -/

/-- Whether a register instance belongs to the station of a Headland (q below 24) or Shingle die. -/
def dieReg (q no inst : Nat) : Bool :=
  if no = STN_TIDE || no = STN_HRN || no = STN_FLT || no = THM_STN then inst == q
  else if no = HRN_BERR then inst < 131 && bundleStation inst == stnId q
  else if q < 24 then
    if no = HDL_ROWMAP then inst / 16 == q
    else if no = HDL_BARSET then inst / 64 == q
    else if no = TPL_MAP then inst / 17 == q
    else if no = HDL_CLK then inst / 4 == q
    else [HDL_BFAULT_LOG, TPL_STATUS, TPL_CTRL, TPL_MAINT, TPL_MAINT_RANGE, TPL_MAPCHK, TPL_POISON_LOG, TPL_THERM, TID_ROLE,
      TID_ROLENEXT].contains no && inst == q
  else [SHG_STATUS, SHG_CTRL, SHG_SCRUB, SHG_ECC, SHG_ERRLOG].contains no && inst == q - 24

/-- The end of the DIE event for a die's registers (R5). -/
def State.dieRegs (s : State) (q : Nat) : State := { s with regs := rfReset 3 (dieReg q) s.regs }

/-- A die enters DIE reset; a request for one already in reset merges with it. -/
def State.markReset (s : State) (q : Nat) (hold : Bool) : State :=
  let s := if q < 24 then s.wr GLB_DIERST_HDL 0 (setBitsN (s.rd GLB_DIERST_HDL) q 1 1)
    else s.wr GLB_DIERST_SHG 0 (setBitsN (s.rd GLB_DIERST_SHG) (q - 24) 1 1)
  s.onRst fun r => { r with dies := smSet (fun _ => (0, false)) r.dies q (s.wall, hold) }
/-- Whether the die's station sends and listens. -/
def State.stnUp (s : State) (q : Nat) (up : Bool) : State := s.setStn q { s.stn q with up := up }

/-- HEADLAND_DIE_RESET (Table 21-3): `lines` are the Tidepool lines receiving a write at that moment. -/
def State.resetHeadland (s : State) (d : Nat) (hold : Bool) (lines : List Nat) : State :=
  let s := (s.cutCoupler d lines).cutCareens d
  let s := ((s.loseTiles d).dropTables d).wr STN_TIDE_SYNCED d 0
  let s := { s with regions := s.regions.filter fun e => e.1 / 4 != d }.setDie d Die.reset
  ((s.markReset d hold).stnUp d false).fault 0x0C d 0

/-- SHINGLE_DIE_RESET: the station stops, the stack enters self-refresh, and every request outstanding at it completes
(R275). -/
def State.resetShingle (s : State) (k : Nat) (hold : Bool) : State :=
  let q := 24 + k
  let s := (s.cutCareens q).setShg k { s.shg k with lost := true, scrub := none, scrubHit := false }
  let s := ((s.clearShingle k).loseRequests k).runHrb
  let s := ((s.dropTables q).wr STN_TIDE_SYNCED q 0).wr SHG_STATUS_STATE k (if s.rd SHG_STATUS_STATE k = 5 then 5 else 4)
  ((s.markReset q hold).stnUp q false).fault 0x45 (stnId q) 0

def State.resetDie (s : State) (q : Nat) (hold : Bool) (lines : List Nat) : State :=
  if q < 24 then s.resetHeadland q hold lines else s.resetShingle (q - 24) hold

/-- DIE_REQUEST: a GLB_RESET write with DIE = 1 by the owning host or the supervisor. -/
def execDieRequest (master : Master) (station : BitVec 8) (hold : Bool) (lines : List (BitVec 32)) (s : State) : Res :=
  if !s.mayConfigure master.val then .next (if master.val < 2 then s.hostLog master.val 0 0x400 cPERM else s)
  else
    let s := (s.wr GLB_RESET_STATION 0 station.toNat).flag GLB_RESET_HOLD 0 hold
    match stnQ station.toNat with
    | none => .next (s.wr GLB_RESET_CODE 0 cUNSUPPORTED)
    | some q =>
      if q = 40 then .next (s.wr GLB_RESET_CODE 0 cUNSUPPORTED)
      else if !s.awake then .next (s.wr GLB_RESET_CODE 0 cPERM)
      else
        let s := s.wr GLB_RESET_CODE 0 cOK
        .next (if s.inReset q then s.onRst fun r => { r with dies := smUpd (fun _ => (0, false)) r.dies q fun x => (x.1, x.2 || hold) }
          else s.resetDie q hold (lines.map (·.toNat)))

/-- DIE_HOLD_CLEAR: HOLD = 0; dies it held may be released. -/
def execDieHoldClear (master : Master) (s : State) : Res :=
  if !s.mayConfigure master.val then .next (if master.val < 2 then s.hostLog master.val 0 0x400 cPERM else s)
  else .next (s.wr GLB_RESET_HOLD 0 0)

/-- Whether a die's reset may end (R477): 1 µs, no HOLD on it, its core PLL in lock, no fuse mismatch. -/
def State.mayRelease (s : State) (q : Nat) : Bool :=
  let x := smGet (fun _ => (0, false)) s.rst.dies q
  s.inReset q && decide (x.1 + 100 ≤ s.wall) && !(x.2 && s.on GLB_RESET_HOLD) && !s.pwr.coreOut.contains q && !s.rst.bad.contains q

/-- A die leaves DIE reset: its registers return to their reset values, and its station takes the maps and the optical mode
in force. -/
def State.endReset (s : State) (q : Nat) : State :=
  let s := (s.dieRegs q).onLight fun l => { l with missed := l.missed.filter (·.1 != q), stale := l.stale.filter (·.1 != q) }
  let opt := s.rd TID_STATUS_OPT_MODE
  let s := s.setStn q { s.stn q with opt := opt, optTo := opt }
  let s := if q < 24 then s.wr GLB_DIERST_HDL 0 (setBitsN (s.rd GLB_DIERST_HDL) q 1 0)
    else s.wr GLB_DIERST_SHG 0 (setBitsN (s.rd GLB_DIERST_SHG) (q - 24) 1 0)
  let s := s.onRst fun r => { r with dies := smSet (fun _ => (0, false)) r.dies q (0, false) }
  s.stnUp q (!s.pwr.serOut.contains q && !s.pwr.hbmOut.contains q)

/-- HEADLAND_DIE_RELEASE: the fuses are read again (a mismatch keeps the die in reset until MOD), the coupler
starts its quick scan, and the Harbour die reloads the die's epoch, role and slot (R485). -/
def execHeadlandDieRelease (die : Fin 24) (fuses : Bool) (s : State) : Res :=
  let d := die.val
  if !s.mayRelease d then .next s
  else if !fuses then .next ((s.onRst fun r => { r with bad := r.bad ++ [d] }).fault 0x0C d 0)
  else
    let s := (s.endReset d).wr TPL_STATUS_STATE d 1
    .next (s.setDie d { s.die d with epoch := s.rd TID_EPOCH_EPOCH, role := s.rd TID_ROLE_ROLE d, slot := s.rd TID_ROLE_SLOT d })

/-- SHINGLE_DIE_RELEASE: PHY training reloaded, the stack leaves self-refresh, and the service schedule is used;
requests stay refused until a swap names the station (R276). -/
def execShingleDieRelease (k : Fin 16) (s : State) : Res :=
  let q := 24 + k.val
  if !s.mayRelease q then .next s
  else .next (((s.endReset q).wr SHG_STATUS_STATE k.val (if s.rd SHG_STATUS_STATE k.val = 5 then 5 else 3)).wr SHG_STATUS_SERVICE k.val 1)

/-! ### Module reset and power (R479 to R481, Table 21-4) -/

/-- What flash keeps of the sources: commissioning levels, and the time short of an hour in LIT_HOURS. -/
def State.flashSrcs (s : State) : SMap Src :=
  s.light.srcs.foldl (fun m e => smSet (fun _ => Src.reset) m e.1 { Src.reset with levels := e.2.levels, litTicks := e.2.litTicks }) []
/-- What a MOD, or a POR, leaves: registers by their Kept across cells (laser sources are rebuilt by self-test),
HBM and keys across a MOD, flash and the standby domain across both. -/
def State.lose (s : State) (por : Bool) : State :=
  let s := allSrcs.foldl (fun s n => s.tallySrc n) s
  { s with
    regs := rfReset (if por then 0 else 1) (fun no _ => no != HRN_SRC && no != HRN_CART) s.regs,
    tiles := [], regions := [], links := [], barrs := [], dies := [], pool := [], fills := [],
    couplers := s.couplers.foldl (fun m e => smSet (fun _ => Coupler.reset) m e.1 { Coupler.reset with mapped := e.2.mapped }) [],
    hbm := if por then [] else s.hbm, hbmPoison := if por then [] else s.hbmPoison, undec := if por then [] else s.undec,
    reqNo := 0, mreqs := [], mwait := [], ridHold := [], hrbDone := [], kvs := [], kvUndo := [], mout := [], inbox := [], jobs := [],
    shgs := if por then [] else s.shgs.foldl (fun m e => smSet (fun _ => Shg.reset) m e.1 { Shg.reset with key := e.2.key }) [],
    stns := [], air := [], tide := Tide.reset, notes := [], light := { Light.reset with srcs := s.flashSrcs }, intake := [], smps := [], ports := [], frys := [],
    fryLast := [], rings := [], plans := [], calmSince := 0,
    fw := { Fw.reset with bootSlot := s.fw.bootSlot },
    flt := { Flt.reset with quarList := s.flt.quarList },
    fab := Fab.reset,
    stl := { s.stl with waiting := [], baseS := s.powerS },
    pwr := Pwr.reset,
    sec := { s.sec with supPlain := leBytes 32 0, deadline := 0, handover := false, engine := [], script := [], waitTo := 0,
                           stacksDone := s.sec.stacksDone || (por && s.sec.wipe.isSome) },
    twn := Twn.reset, raised := [] }

/-- A MOD is asserted: its cause is latched, the SMBus keeps the last values, and everything a MOD reaches is lost. -/
def State.assertMod (s : State) (cause : Nat) : State :=
  if s.rst.held ∨ s.rst.powered = false then s
  else
    let snap := telemetryCodes.foldl (fun m c => smSet (fun c => leBytes (telemetryLen c) 0) m c (s.telemetry c)) []
    let s := (s.wr GLB_RESET_LAST_CAUSE 0 cause).lose false
    s.onRst fun r => { r with held := true, por := false, dies := [], bad := [], smbus := snap }

/-- MODULE_RESET: MOD_RESET_N is held low. -/
def execModuleReset (s : State) : Res := .next (s.assertMod 1)
/-- MOD_REQUEST: a GLB_RESET write with MOD = 1, which takes effect only with KEY 0x5A (R476). -/
def execModRequest (master : Master) (key : BitVec 8) (s : State) : Res :=
  if !s.mayConfigure master.val then .next (if master.val < 2 then s.hostLog master.val 0 0x400 cPERM else s)
  else .next (if key = 0x5A then s.assertMod (if master.val < 2 then 2 else 3) else s)

/-- Breakwater trips on cause 2 before the bus falls below 45.0 V (R481); the voltage it measured is below 48.0 V and otherwise
free. -/
def State.sagTrip (s : State) : State :=
  if s.safe then s else let (v, s) := s.fresh; s.enterSafe 2 7 0xFF (v % 4800)
/-- POWER_LOSS: the standby converter stops, and every domain a POR does not keep is lost. With `torn` the newest
Strandline entry was still being written: what its slot holds is a free value (R527). -/
def execPowerLoss (torn : Bool) (s : State) : Res :=
  if s.rst.powered = false then .next s else
  let s := s.sagTrip
  let n := s.rd STL_STATUS_NEXT_SEQ
  let (v, s) := if torn ∧ n ≠ 0 then s.fresh else (0, s)
  let s := s.lose true
  let s := if torn ∧ n ≠ 0 then s.onStl fun r => { r with entries := smSet (fun _ => []) r.entries (n - 1) (leBytes 64 v), torn := r.torn ++ [n - 1] }
    else s
  .next (s.onRst fun r => { r with powered := false, held := true, por := true, dies := [], bad := [], smbus := [] })

/-- POWER_ON: the bus rises above 50.0 V; Breakwater, SMBus and the rails start, and the sequence goes on as the
release of a MOD. SMB_ADDR_SEL is read (R15). -/
def execPowerOn (addrSel : Bool) (s : State) : Res :=
  if s.rst.powered then .next s
  else .next ((s.wr GLB_RESET_LAST_CAUSE 0 0).onRst fun r => { r with powered := true, addrSel := addrSel })

/-! ### PLLs (R433) -/

/-- PWR_CLK's lock bits. -/
def State.showLocks (s : State) : State :=
  ((s.flag PWR_CLK_CORE_LOCK 0 s.pwr.coreOut.isEmpty).flag PWR_CLK_SER_LOCK 0 s.pwr.serOut.isEmpty).flag PWR_CLK_HBM_LOCK 0 s.pwr.hbmOut.isEmpty

/-- CORE_PLL_UNLOCK: the die is held in DIE reset until the PLL relocks; the Harbour die's is a module reset. -/
def execCorePllUnlock (q : Fin 41) (lines : List (BitVec 32)) (s : State) : Res :=
  let s := s.bump PWR_CLK_UNLOCKS 0 1
  if q.val = 40 then .next (s.assertMod 4)
  else
    let s := (s.onPwr fun p => { p with coreOut := if p.coreOut.contains q.val then p.coreOut else p.coreOut ++ [q.val] }).showLocks
    .next (if s.inReset q.val then s else s.resetDie q.val false (lines.map (·.toNat)))

/-- SERIALIZER_PLL_UNLOCK: a serializer PLL, or a Shingle's HBM PLL, loses lock; the station sends nothing. -/
def execSerializerPllUnlock (q : Fin 41) (hbm : Bool) (s : State) : Res :=
  let n := q.val
  let s := s.bump PWR_CLK_UNLOCKS 0 1
  let s := s.onPwr fun p => if hbm then { p with hbmOut := if p.hbmOut.contains n then p.hbmOut else p.hbmOut ++ [n] }
    else { p with serOut := if p.serOut.contains n then p.serOut else p.serOut ++ [n] }
  .next ((s.showLocks.stnUp n false).fault 0x17 (stnId n) (if hbm then 1 else 0))

/-- PLL_RELOCK: the PLLs of a station are in lock again: the station sends, and its die may leave DIE reset. -/
def execPllRelock (q : Fin 41) (s : State) : Res :=
  let n := q.val
  let s := (s.onPwr fun p => { p with coreOut := p.coreOut.filter (· != n), serOut := p.serOut.filter (· != n),
                                      hbmOut := p.hbmOut.filter (· != n) }).showLocks
  .next (if s.inReset n || s.safe then s else s.stnUp n true)

end Sys2Proof.Machine
end

