-- ==== Sys2Proof/Machine/Twin.lean ====
section
/-! DEFINITION. Twin redundancy: the link, pairing, the state copy, switchover and return; and the sampler's closes,
whose deltas the copy carries (22_twin.md, 13_speculation_sampling.md). -/
namespace Sys2Proof.Machine

/-! ### States (Table 22-2) -/

def twSolo : Nat := 0
def twPairing : Nat := 1
def twWindward : Nat := 2
def twLeeSync : Nat := 3
def twLee : Nat := 4
def twExposed : Nat := 5
def twFenced : Nat := 6
def twTaking : Nat := 7

def State.onTwn (s : State) (f : Twn → Twn) : State := { s with twn := f s.twn }
def State.twinSt (s : State) : Nat := s.rd TWN_STATUS_STATE
/-- STATE changes: vector 100 (Table 16-3). -/
def State.setTwin (s : State) (st : Nat) : State :=
  if s.twinSt = st then s else ((s.wr TWN_STATUS_STATE 0 st).msixOwner 100).onTwn fun t => { t with healthyFrom := s.wall }
/-- A module that serves as the windward. -/
def State.serving (s : State) : Bool := s.twinSt == twWindward || s.twinSt == twExposed
/-- A windward whose lee has its bulk copies on the way. -/
def State.copying (s : State) : Bool := s.serving && s.twn.paired && s.twn.bulked

/-- Bases of the regions registered for a stream (R499). -/
def twinRegions (m : RegFile) (n : Nat) : List Nat :=
  (m.filter fun e => e.1 / 1048576 == TWN_REGION && e.2.toNat.testBit 0 && bitsN e.2.toNat 1 6 == n).map
    fun e => bitsN e.2.toNat 12 29 * 4096
def State.covered (s : State) (n : Nat) : Bool := !(twinRegions s.regs n).isEmpty
def State.coveredStreams (s : State) : List Nat := (List.range 64).filter s.covered

/-! ### Sending (R496, R343) -/

def Out.spoil (v : Nat) : Out → Out
  | .twin p k d => .twin p k (flipBit d v)
  | .twinItem p k h i _ => .twinItem p k h i true
  | o => o
/-- Frames a drill holds back are overtaken by one more on the port. -/
def State.overtake (s : State) (port : Nat) : State :=
  s.onTwn fun t => { t with squall := t.squall.map fun h => if h.port == port then { h with left := h.left - 1 } else h }
/-- A frame other than HEARTBEAT and TRIP leaves; a drill on its port may perturb it. -/
def State.twinOut (s : State) (port : Nat) (o : Out) : State :=
  if s.twinDark port then s else
  if s.on FAB_SQUALL_CTRL_EN && s.rd FAB_SQUALL_CTRL_TARGET == 1 && (s.rd FAB_SQUALL_CTRL_PORTS).testBit port then
    let (s, c, bit) := s.squallDraw
    match c with
    | 0 => (s.overtake port).emit o
    | 1 => s
    | 2 => (s.overtake port).emit (o.spoil bit)
    | _ => s.onTwn fun t => { t with squall := t.squall ++ [⟨port, max 1 (s.rd FAB_SQUALL_RATE_DELAY), s.wall, o⟩] }
  else (s.overtake port).emit o
def State.twinSend (s : State) (port typ dseq : Nat) (i : TwinItem) : State :=
  s.twinOut port (.twinItem port typ (s.twinHead typ dseq) i false)
/-- The port of a DSEQ: both in turn, or the one that is up. -/
def State.twinPort (s : State) (n : Nat) : Nat :=
  let up := s.rd TWN_STATUS_PORTS_UP
  if up = 1 then 0 else if up = 2 then 1 else n % 2
/-- Send an item of a delta (2) or bulk copy (5) under the next DSEQ. -/
def State.twinPut (s : State) (typ : Nat) (i : TwinItem) : State :=
  let d := s.twn.next
  let p := s.twinPort d
  (s.onTwn fun t => { t with next := (d + 1) % 2 ^ 32, unacked := t.unacked ++ [⟨d, typ, i, p, s.wall⟩] }).twinSend p typ d i

/-! ### The state copy (R500 to R503) -/

/-- Entries in frames of at most 4,032 B of data. -/
def pieces : Nat → Nat → List Byte → List Bool → List TwinItem
  | 0, _, _, _ => []
  | f + 1, a, bs, bad =>
    if bs.isEmpty then [] else .entries a (bs.take 4032) (bad.take 126) :: pieces f (a + 4032) (bs.drop 4032) (bad.drop 126)
/-- Items that carry a range of HBM. -/
def State.hbmItems (s : State) (pa len : Nat) : State × List TwinItem :=
  let (s, d, _) := s.hrbRead pa len
  (s, pieces (len / 4032 + 1) pa d (s.unitPoison pa (len / 32)))
/-- Content bytes of an item. -/
def itemSize : TwinItem → Nat
  | .entries _ d _ => d.length
  | .header _ d => d.length
  | .stream _ ws => 8 * ws.length
  | .history _ _ ts => 4 * ts.length
  | .records _ rs => 64 * rs.length
  | _ => 32
def fin64 (n : Nat) : Fin 64 := Fin.ofNat 64 n

/-- A stream's token records that the host may not have consumed, in SEQ order (R502). -/
def State.liveRecs (s : State) (n : Nat) : List (List Byte) :=
  ((s.twn.written.filter fun r => r.stream == n && s.unread r).map (·.data)) ++ (s.smp n).waiting
    ++ (s.twn.gates.filter fun g => g.stream == n).flatMap (·.recs)
/-- A stream's acknowledged SEQ: the first the host has not consumed. -/
def State.ackedSeq (s : State) (n : Nat) : Nat :=
  match s.liveRecs n with
  | r :: _ => leNat (r.take 8)
  | [] => s.rd SMP_SEQ_SEQ n

/-- One region of a bulk copy: its header and entries 0 to BERM − 1. -/
def State.bulkRegion (s : State) (base : Nat) : State :=
  let (s, hdr, c) := s.hrbRead base 64
  if c ≠ cOK then s else
  let h := kvHdr hdr
  let (s, items) := s.hbmItems (h.entry base 0) (64 * h.units * h.berm)
  (.header base hdr :: items).foldl (fun s i => s.twinPut 5 i) s
/-- The bulk copy of a stream (R500). -/
def State.bulkCopy (s : State) (n : Nat) : State :=
  let words := [SMP_CFG, SMP_TEMP, SMP_TRUNC, SMP_SEED, SMP_STOP, SMP_POS, SMP_SEQ, SMP_STATE].map fun r => rfWord s.regs r n
  let hist (p : Nat) : TwinItem := .history (fin64 n) p ((List.range 512).map fun i => s.histTok n (p + i))
  let s := [.stream (fin64 n) words, hist 0, hist 512].foldl (fun s i => s.twinPut 5 i) s
  let s := (twinRegions s.regs n).foldl (fun s b => s.bulkRegion b) s
  let s := [.records (fin64 n) (s.liveRecs n), .acked (fin64 n) (s.ackedSeq n), .copied (fin64 n)].foldl (fun s i => s.twinPut 5 i) s
  s.onTwn fun t => { t with copied := t.copied ++ [n] }

/-- Registers of a stream after a close. -/
def State.regItem (s : State) (n : Nat) : TwinItem :=
  .regs (fin64 n) (rfWord s.regs SMP_POS n) (rfWord s.regs SMP_SEQ n) (BitVec.ofNat 32 (s.rd SMP_STATE_STEP n))
    (BitVec.ofNat 2 (s.rd SMP_STATE_STATE n)) (BitVec.ofNat 8 (s.rd SMP_STATE_CODE n))
/-- Streams enabled for the first time are copied, and closes of a job abort. -/
def State.copyDue (s : State) : State :=
  if !s.copying then s.onTwn fun t => { t with stale := [] } else
  let s := (s.coveredStreams.filter fun n => s.on SMP_CFG_ENABLE n && !s.twn.copied.contains n).foldl (fun s n => s.bulkCopy n) s
  let due := s.twn.stale.filter s.covered
  due.foldl (fun s n => s.twinPut 2 (s.regItem n)) (s.onTwn fun t => { t with stale := [] })

/-- Whether `ack` covers everything below `d` (mod 2^32). -/
def ackCovers (ack d : Nat) : Bool := decide ((ack + 2 ^ 32 - d) % 2 ^ 32 < 2 ^ 31)

/-- Records queue for ring space (R317). -/
def State.queueRecs (s : State) (n : Nat) (recs : List (List Byte)) : State :=
  let w := (s.smp n).waiting ++ recs
  (s.setSmp n { s.smp n with waiting := w }).flag SMP_STATE_RING_STALL n (decide (64 ≤ w.length))
/-- TOKEN_RELEASE: gated records whose step's sealed delta ACKSEQ covers, and all of them on a module that is not
WINDWARD; a FENCED one keeps them (R503, R505). -/
def State.releaseGates (s : State) : State :=
  if s.twinSt = twFenced then s else
  s.twn.gates.foldl (fun s g =>
    let free := s.twinSt != twWindward || (match g.upTo with | some d => ackCovers (s.rd TWN_STATUS_ACKSEQ) d | none => false)
    if free && (s.twn.gates.find? fun x => x.stream == g.stream) == some g then
      (s.onTwn fun t => { t with gates := t.gates.erase g }).queueRecs g.stream g.recs
    else s) s

/-- A delta is sealed: its items go out; short of a gather, the lee marks the stream broken (R501). -/
def State.sealDelta (s : State) (d : OpenDelta) (short : Bool) : State :=
  let n := fin64 d.stream
  let items := d.gathers ++ d.rest ++ [.acked n (s.ackedSeq d.stream)] ++ (if short then [.broken n] else [])
  let size := (items.map itemSize).sum
  let s := items.foldl (fun s i => s.twinPut 2 i) s
  let s := s.onTwn fun t => { t with
    deltas := t.deltas.filter (· != d),
    gates := t.gates.map fun g => if g.stream == d.stream && g.step == d.step then { g with upTo := some t.next } else g,
    big := (t.big.filter fun b => b.1 != d.stream) ++ (if 8388608 < size then [(d.stream, t.next, false)] else []) }
  if short then (s.bump TWN_STAT_SHORT 0 1).fault 0x87 0x30 d.stream else s

/-- A reported gather joins its stream's delta once its stack has memory-channel slots toward the Harbour die; the
last one seals it (R501, R503). -/
def State.takeGather (s : State) (g : Gather) : State :=
  match s.twn.deltas.find? fun d => d.stream == g.stream && d.need.contains g.base with
  | none => s.onTwn fun t => { t with gathers := t.gathers.erase g }
  | some d =>
    if s.harbourPath g.k ≠ cOK then s else
    let (s, hdr, _) := s.hrbRead g.base 64
    let (s, items) := s.hbmItems (g.base + 512 + g.berm * g.size) (g.n * g.size)
    let d' := { d with need := d.need.erase g.base, gathers := d.gathers ++ items ++ [.header g.base hdr] }
    let s := s.onTwn fun t => { t with gathers := t.gathers.erase g, deltas := t.deltas.map fun x => if x == d then d' else x }
    if d'.need.isEmpty then s.sealDelta d' false else s
def State.takeGathers (s : State) : State :=
  (s.twn.gathers.filter (·.told)).foldl (fun s g => s.takeGather g) s

/-- KVDONE: a KV completion ends its request; a gather it reports may seal a delta. -/
def execKvdone (q : Fin 24) (s : State) : Res :=
  match s.nextMsg q.val mKVDONE with
  | none => .next s
  | some (src, m, s) =>
    let told (g : Gather) : Bool := g.q == q.val && g.k + 24 == src && g.rid == m.rid
    let s := (s.onTwn fun t => { t with gathers := t.gathers.map fun g => if told g then { g with told := true } else g }).takeGathers
    match s.findReq q.val (src - 24) m.rid with
    | none => .next s
    | some r => .next (s.endReq r m.code)

/-! ### Sampler closes (R310, R317, R501, R503) -/

/-- The twin's share of a close: the delta opens, and the records are gated. -/
def State.twinClose (s : State) (n step pos : Nat) (c : StepClose) (recs : List (List Byte)) : State :=
  if !(s.copying && s.covered n) then s.queueRecs n recs
  else
    let s := match s.twn.deltas.find? fun d => d.stream == n with
      | some d => s.sealDelta d true
      | none => s
    let rest := [s.regItem n, .history (fin64 n) (pos + 1) c.tokens, .records (fin64 n) recs]
    let d : OpenDelta := ⟨n, step, if c.path.isEmpty then [] else twinRegions s.regs n, [], rest⟩
    let gated := s.twinSt == twWindward && !recs.isEmpty
    let s := s.onTwn fun t => { t with deltas := t.deltas ++ [d], gates := t.gates ++ (if gated then [⟨n, step, recs, none⟩] else []) }
    let s := if gated then s else s.queueRecs n recs
    (if d.need.isEmpty then s.sealDelta d false else s).releaseGates

/-- Close a stream's open step, complete or at its timeout. -/
def State.closeStep (s : State) (n : Nat) (timeout : Bool) : State :=
  let s := s.copyDue
  let step := s.rd SMP_STATE_STEP n
  let pos := s.rd SMP_POS_POS n
  let (c, nf) := s.closeOf n timeout
  let recs := tokenRecs n step c 64 (s.rd SMP_SEQ_SEQ n) (c.tokens.take c.emitted)
  ((s.applyClose n c).bump SMP_CTX_NUMERIC 0 nf).twinClose n step pos c recs

/-- A close is held for a handback, or until ACKSEQ covers the stream's large delta. -/
def State.bigHold (s : State) (n : Nat) : Option (Nat × Nat × Bool) :=
  s.twn.big.find? fun b => b.1 == n && !ackCovers (s.rd TWN_STATUS_ACKSEQ) b.2.1
def State.stepHeld (s : State) (n : Nat) : Bool := s.twinSt == twWindward && (s.twn.hold || (s.bigHold n).isSome)
/-- HELD_COMMITS counts a hold once. -/
def State.countHold (s : State) (n : Nat) : State :=
  match s.bigHold n with
  | some (a, d, false) =>
    ((s.onTwn fun t => { t with big := t.big.map fun b => if b == (a, d, false) then (a, d, true) else b }).bump
      TWN_STAT_HELD_COMMITS 0 1).fault 0x85 0x30 n
  | _ => s

/-- SAMPLER_STEP_CLOSE: a step whose nodes are all complete closes. -/
def execSamplerStepClose (n : Fin 64) (s : State) : Res :=
  if !s.stepComplete n.val || s.safe then .next s
  else if s.stepHeld n.val then .next (s.countHold n.val)
  else .next (s.closeStep n.val false)
/-- SAMPLER_STEP_TIMEOUT: after TIMEOUT_CYC active tide cycles the open step closes with what it has, or slices held
for a tree that never came are discarded. -/
def execSamplerStepTimeout (n : Fin 64) (s : State) : Res :=
  if (s.smp n.val).cycles < max 1 (s.rd SMP_CTRL_TIMEOUT_CYC) || s.safe then .next s
  else if !s.on SMP_STATE_OPEN n.val then .next (s.dropHeld n.val)
  else if s.stepHeld n.val then .next (s.countHold n.val)
  else .next (s.closeStep n.val true)

/-- STREAM_ENABLE: ENABLE = 1 is written. -/
def execStreamEnable (master : Master) (n : Fin 64) (s : State) : Res :=
  if master.val < 2 && !s.owns master.val then .next (s.hostLog master.val 0 (0x209000 + 0x40 * n.val) cPERM)
  else .next (s.enableStream n.val).copyDue
/-- STREAM_DISABLE: ENABLE = 0 is written. -/
def execStreamDisable (master : Master) (n : Fin 64) (s : State) : Res :=
  if master.val < 2 && !s.owns master.val then .next (s.hostLog master.val 0 (0x209000 + 0x40 * n.val) cPERM)
  else .next (s.disableStream n.val)

/-! ### Pairing and declarations (R497, R504, R505) -/

/-- Both ends number frames from 0 in a new pairing (log 45). -/
def State.newPair (s : State) (paired : Bool) : State :=
  (s.wr TWN_STATUS_ACKSEQ 0 0).onTwn fun t => { t with
    paired := paired, next := 0, unacked := [], deltas := [], bulked := false, copied := [], big := [], hold := false, expect := 0,
    ahead := [], broken := [], heard := if paired then t.heard else [] }
/-- A supervisor's restart holds jobs parked in its own right (R428). -/
def State.supParks (s : State) : Bool := s.fw.phase != 0 && decide (smGet (fun _ => 0) s.fw.since s.supCore + 50000000 ≤ s.wall)
/-- Jobs park as R428 parks them, or go on. -/
def State.setParked (s : State) (on : Bool) : State :=
  { s.flag GLB_FWSTAT_PARKED 0 on with tide := { s.tide with parked := on } }

/-- The checks of R400 on the image to arm. -/
def State.armCheck (s : State) : State × Mem × Nat := s.imageRead (s.rd GLB_HOSTCFG_OWNER) (s.rd TWN_ARM_ADDR_ADDR)

/-- A row's instruction buffers and tile stores are written from an image under the map in force (R509). -/
def State.placeRow (s : State) (m : Mem) (pa : Nat) (secs : List Sect) (row : Nat) : State :=
  (List.range 16).foldl (fun s c =>
    let k := row * 16 + c
    s.setTile k (tileImage m pa secs (row / 16) (k % 256) (s.tile k))) s
/-- ARMED_REWRITE: rows that shifted on an armed module are written again from the image, once no job is on their
dies, and ARMED sets; or, when the image no longer passes its checks, ARMED stays 0 (R509). -/
def State.rearm (s : State) : State :=
  if s.twn.rewrite.isEmpty || (s.twn.rewrite.any fun r => s.jobOn (r / 16)) then s else
  let rows := s.twn.rewrite
  let s := s.onTwn fun t => { t with rewrite := [] }
  let pa := s.rd TWN_ARM_ADDR_ADDR
  let (s, m, c) := s.armCheck
  if c ≠ cOK then s.msix (s.rd GLB_HOSTCFG_OWNER) 100
  else (rows.foldl (fun s r => s.placeRow m pa (sectsOf m pa) r) s).wr TWN_STATUS_ARMED 0 1

/-- The row under test loses its registers; its instruction buffers and tile stores stay (R506, R508). -/
def State.clearRow (s : State) (row : Nat) : State :=
  (List.range 16).foldl (fun s c =>
    let k := row / 16 * 256 + row % 16 * 16 + c
    let t := s.tile k
    s.setTile k { t.fresh with store := t.store, ecc := t.ecc, ibuf := t.ibuf, ieccs := t.ieccs }) s
/-- A lee takes over: TAKING, the self-test stopped. -/
def State.takeOver (s : State) : State :=
  ((s.setTwin twTaking).clearRow s.twn.bistRow).onTwn fun t => { t with replayed := false }

/-- A failure declaration (Table 22-4), acted on once a row's rewrite has ended (R509). -/
def State.declareDown (s : State) (trip : Bool) : State :=
  let s := (s.rearm.receiverReset 10).onTwn fun t => { t with declared := true, heard := [] }
  let fence := s.on TWN_CTRL_SILENCE_FENCE
  let st := s.twinSt
  if st = twLee then
    if !s.on TWN_STATUS_ARMED then (s.newPair false).setTwin twPairing
    else if trip || fence then (s.onTwn fun t => { t with paired := false }).takeOver
    else s
  else if st = twLeeSync then (s.newPair false).setTwin twPairing
  else if st = twWindward then
    if trip || !fence then ((s.newPair false).setTwin twExposed).releaseGates
    else ((s.newPair false).setParked true).setTwin twFenced
  else if st = twExposed then s.newPair false
  else s

/-- A job abort that ends a windward's service; it then waits for its bulk copy (R505, R507). -/
def State.stepDown (s : State) (kind : Nat) : State :=
  let s := ((s.setParked s.supParks).abortJobs kind fun _ => true).onTwn fun t => { t with gates := [] }
  (s.newPair true).setTwin twLeeSync

/-- HEALTHY_S and AGE_MS follow the wall count. -/
def State.twinAges (s : State) : State :=
  let good := (s.twinSt == twWindward && s.twn.peerState == twLee) || (s.twinSt == twLee && s.twn.peerState == twWindward)
  let s := if good then s else s.onTwn fun t => { t with healthyFrom := s.wall }
  (s.wr TWN_STATUS_HEALTHY_S 0 (min 65535 ((s.wall - s.twn.healthyFrom) / 100000000))).wr TWN_PEER_AGE_MS 0
    (min 65535 ((s.wall - s.twn.healthWall) / 100000))

/-- What a heartbeat may bring about: pairing, the bulk copies, LEE, WINDWARD, and a FENCED module's return. -/
def State.twinProgress (s : State) : State :=
  let st := s.twinSt
  let t := s.twn
  let both := t.heard.contains 0 && t.heard.contains 1
  let mine := if st = twExposed then 1 else s.rd TWN_CTRL_WANT
  let peer := if t.peerState = twWindward ∨ t.peerState = twExposed ∨ t.peerState = twTaking then 1
    else if t.peerState = twLeeSync ∨ t.peerState = twLee then 2 else t.peerWant
  if st = twFenced then
    (if both && (t.peerState == twWindward || t.peerState == twExposed) then s.stepDown 0x82 else s)
  else if !t.paired && (st == twPairing || st == twExposed) then
    if both && t.peerReady && mine + peer == 3 && mine != 0 && peer != 0 && (mine == 1 || s.plans.isEmpty) then
      (s.newPair true).setTwin (if mine = 1 then twExposed else twLeeSync)
    else s
  else if st = twLeeSync then
    (if t.paired && s.coveredStreams.all t.copied.contains then s.setTwin twLee else s)
  else if st = twExposed && t.paired then
    if !t.bulked && t.peerState == twLeeSync then
      let s := s.onTwn fun t => { t with bulked := true }
      s.coveredStreams.foldl (fun s n => s.bulkCopy n) s
    else if t.bulked && t.peerState == twLee then s.setTwin twWindward
    else s
  else s

/-! ### Arriving frames -/

/-- ACKSEQ advances at the windward. -/
def State.ackTo (s : State) (a : Nat) : State :=
  if !s.copying || !ackCovers a (s.rd TWN_STATUS_ACKSEQ) || !ackCovers s.twn.next a then s else
  ((s.wr TWN_STATUS_ACKSEQ 0 a).onTwn fun t => { t with
    unacked := t.unacked.filter fun u => !ackCovers a (u.dseq + 1), big := t.big.filter fun b => !ackCovers a b.2.1 }).releaseGates

/-- A frame arrives: one that fails its CRC or carries another PAIR_ID is discarded; a valid one keeps its port up
and carries ACKSEQ. -/
def State.twinIn (s : State) (h : TwinHdr) : Option State :=
  if s.twinSt = twSolo ∨ h.good = false ∨ h.pairId.toNat ≠ s.rd TWN_CTRL_PAIR_ID ∨ s.safe ∨ s.twinDark h.port.val = true then none
  else
    let p := h.port.val
    let s := s.onTwn fun t => { t with rxWall := smSet (fun _ => 0) t.rxWall p s.wall, peerState := h.state.toNat }
    let s := s.wr TWN_STATUS_PORTS_UP 0 (setBitsN (s.rd TWN_STATUS_PORTS_UP) p 1 1)
    some (s.ackTo h.ackSeq.toNat)

/-- HEARTBEAT: the port is alive, the link too, and pairing goes on. -/
def execHeartbeat (h : TwinHdr) (want : BitVec 2) (ready : Bool) (s : State) : Res :=
  match s.twinIn h with
  | none => .next s
  | some s =>
    let p := h.port.val
    let s := s.onTwn fun t => { t with
      hbWall := smSet (fun _ => 0) t.hbWall p s.wall, heard := if t.heard.contains p then t.heard else t.heard ++ [p],
      peerWant := want.toNat, peerReady := ready, declared := false }
    .next s.twinProgress.twinAges

/-- HEARTBEAT_SEND: every 5 µs, on each twin port. -/
def execHeartbeatSend (s : State) : Res :=
  if s.twinSt = twSolo ∨ s.safe ∨ s.wall < s.twn.sentHb + 500 then .next s
  else
    let s := ((s.twinFrame 0 1).overtake 0).twinFrame 1 1
    .next ((s.overtake 1).onTwn fun t => { t with sentHb := s.wall }).copyDue.takeGathers.twinAges

/-- WANT_WRITE: the owning host writes WANT; 0 returns the module to SOLO at once. -/
def execWantWrite (master : Master) (want : BitVec 2) (s : State) : Res :=
  if !s.mayConfigure master.val then .next (if master.val < 2 then s.hostLog master.val 0 0xA00000 cPERM else s)
  else if want = 3 then .next s
  else
    let s := s.wr TWN_CTRL_WANT 0 want.toNat
    if want = 0 then
      let s := if s.twinSt = twFenced then s.setParked s.supParks else s
      .next ((s.newPair false).setTwin twSolo).releaseGates
    else .next (if s.twinSt = twSolo then (s.newPair false).setTwin twPairing else s)

/-! ### The lee (R501, R502) -/

/-- A header as the lee keeps it: TOP = BERM and BWS_DUE = 0. -/
def leeHeader (hdr : List Byte) : List Byte :=
  let berm := (hdr.drop 12).take 4
  leBytes 1 (Nat.land (leNat (hdr.take 1)) 0xFD) ++ (hdr.take 16).drop 1 ++ berm ++ hdr.drop 20
/-- Replay store address of a slot of a stream. -/
def State.replayAddr (s : State) (n slot : Nat) : Nat := s.rd TWN_REPLAY_ADDR + n * 524288 + slot * 64
def State.replayOf (s : State) (n : Nat) : List (Nat × Nat) := smGet (fun _ => []) s.twn.replay n
/-- A token record enters the replay store. -/
def State.keepRec (s : State) (n : Nat) (r : List Byte) : State :=
  let l := s.replayOf n
  let slot := match l.getLast? with | some x => (x.2 + 1) % 8192 | none => 0
  ((s.hrbWrite (s.replayAddr n slot) r []).1).onTwn fun t => { t with replay := smSet (fun _ => []) t.replay n (l ++ [(leNat (r.take 8), slot)]) }

/-- An item of a delta or bulk copy is applied (Table 22-3). -/
def State.applyItem (s : State) (i : TwinItem) : State :=
  match i with
  | .entries a d bad => (s.hrbWrite a d bad).1
  | .header b d => (s.hrbWrite b (leeHeader d) []).1
  | .regs n pos seq step st code =>
    ((((s.wrWord SMP_POS n.val pos).wrWord SMP_SEQ n.val seq).wr SMP_STATE_STEP n.val step.toNat).wr SMP_STATE_STATE n.val
      st.toNat).wr SMP_STATE_CODE n.val code.toNat
  | .stream n ws =>
    (List.zip [SMP_CFG, SMP_TEMP, SMP_TRUNC, SMP_SEED, SMP_STOP, SMP_POS, SMP_SEQ, SMP_STATE] ws).foldl
      (fun s x => s.wrWord x.1 n.val x.2) s
  | .history n p ts => (List.range ts.length).foldl (fun s k => s.setHist n.val (p + k) (ts.getD k 0)) s
  | .records n rs => rs.foldl (fun s r => s.keepRec n.val r) s
  | .acked n seq =>
    s.onTwn fun t => { t with replay := smSet (fun _ => []) t.replay n.val ((s.replayOf n.val).filter fun x => decide (seq ≤ x.1)) }
  | .copied n => s.onTwn fun t => { t with
      copied := if t.copied.contains n.val then t.copied else t.copied ++ [n.val], broken := t.broken.filter (· != n.val) }
  | .broken n => ((s.wr SMP_STATE_STATE n.val 3).wr SMP_STATE_CODE n.val cABORTED).onTwn fun t =>
      { t with broken := if t.broken.contains n.val then t.broken else t.broken ++ [n.val] }
  | _ => s

/-- Frames received ahead are applied in DSEQ order. -/
def State.applyAhead : Nat → State → State
  | 0, s => s
  | f + 1, s => match s.twn.ahead.find? fun x => x.1 == s.twn.expect with
    | none => s
    | some x => State.applyAhead f ((s.applyItem x.2).onTwn fun t => { t with ahead := t.ahead.erase x, expect := (t.expect + 1) % 2 ^ 32 })

/-- A DELTA or BULK frame at the lee: applied in DSEQ order, once, and acknowledged. -/
def State.leeFrame (s : State) (h : TwinHdr) (i : TwinItem) : State :=
  match s.twinIn h with
  | none => s
  | some s =>
    if s.twinSt ≠ twLeeSync ∧ s.twinSt ≠ twLee then s else
    let d := h.dseq.toNat
    let late := ackCovers s.twn.expect (d + 1) || s.twn.ahead.any fun x => x.1 == d
    let s := if late then s else State.applyAhead (s.twn.ahead.length + 1) (s.onTwn fun t => { t with ahead := t.ahead ++ [(d, i)] })
    let s := s.wr TWN_STATUS_ACKSEQ 0 s.twn.expect
    let head := s.twinHead 3 0 ++ leBytes 16 0
    (s.twinOut h.port.val (.twin h.port.val 3 (head ++ leBytes 4 (crc32c head)))).twinProgress

/-- DELTA: a frame of a step's delta. -/
def execDelta (h : TwinHdr) (item : TwinItem) (s : State) : Res := .next (s.leeFrame h item)
/-- BULK: a frame of a bulk copy. -/
def execBulk (h : TwinHdr) (item : TwinItem) (s : State) : Res := .next (s.leeFrame h item)
/-- ACK: ACKSEQ advances at the windward. -/
def execAck (h : TwinHdr) (s : State) : Res := .next ((s.twinIn h).getD s)

/-- CONTROL: a stream's acknowledged SEQ, or the handback to a ready lee (R502, R507). -/
def execControl (h : TwinHdr) (item : TwinItem) (s : State) : Res :=
  match s.twinIn h with
  | none => .next s
  | some s =>
    match item with
    | .acked _ _ => .next (if s.twinSt = twLee ∨ s.twinSt = twLeeSync then s.applyItem item else s)
    | .handback =>
      let s := s.rearm
      .next (if s.twinSt = twLee ∧ s.on TWN_STATUS_ARMED = true then s.takeOver else s)
    | _ => .next s

/-- ACKED_SEQ_SEND: the acknowledged SEQ of each covered stream goes out in CONTROL frames. -/
def execAckedSeqSend (s : State) : Res :=
  if !s.copying || s.safe then .next s
  else .next (s.coveredStreams.foldl (fun s n => s.twinSend (s.twinPort n) 7 0 (.acked (fin64 n) (s.ackedSeq n))) s)

/-- FRAME_RESEND: a frame not covered 10 µs after it was sent goes out again on either port. -/
def execFrameResend (port : Fin 2) (dseq : BitVec 32) (s : State) : Res :=
  match s.twn.unacked.find? fun u => u.dseq == dseq.toNat && decide (u.at_ + 1000 ≤ s.wall) with
  | none => .next s
  | some u =>
    if s.safe then .next s else
    let s := s.onTwn fun t => { t with unacked := t.unacked.map fun x => if x == u then { u with port := port.val, at_ := s.wall } else x }
    .next (((s.twinSend port.val u.typ u.dseq u.item).bump TWN_STAT_RESENDS 0 1).fault 0x84 0x30 port.val)

/-! ### Failure (R504, R505, R510) -/

/-- TWIN_PORT_DOWN: a port without a valid frame for 20 µs. -/
def execTwinPortDown (port : Fin 2) (s : State) : Res :=
  let up := s.rd TWN_STATUS_PORTS_UP
  if s.twinSt = twSolo || !up.testBit port.val || decide (s.wall < smGet (fun _ => 0) s.twn.rxWall port.val + 2000) then .next s
  else .next ((s.wr TWN_STATUS_PORTS_UP 0 (setBitsN up port.val 1 0)).fault 0x81 0x30 port.val)
/-- HEARTBEAT_INTERVAL_MISSED: a 5 µs interval on one port. -/
def execHeartbeatIntervalMissed (port : Fin 2) (s : State) : Res :=
  if s.twinSt = twSolo || !s.twn.heard.contains port.val || decide (s.wall < smGet (fun _ => 0) s.twn.rxWall port.val + 500) then .next s
  else .next (s.fault 0x80 0x30 port.val)
/-- LINK_DOWN_DECLARATION: no valid heartbeat on either port for four intervals. -/
def execLinkDownDeclaration (s : State) : Res :=
  let quiet (p : Nat) : Bool := decide (smGet (fun _ => 0) s.twn.hbWall p + 2000 ≤ s.wall)
  if !s.twn.paired || s.twn.declared || !quiet 0 || !quiet 1 || s.safe then .next s
  else .next ((s.fault 0x82 0x30 0).declareDown false)
/-- TRIP: the peer's Breakwater has tripped; the first such frame declares it failed. -/
def execTrip (h : TwinHdr) (s : State) : Res :=
  match s.twinIn h with
  | none => .next s
  | some s =>
    let first := !s.on TWN_STATUS_PEER_TRIP || s.twn.paired
    let s := s.wr TWN_STATUS_PEER_TRIP 0 1
    let s := if first then s.fault 0x83 0x30 h.port.val else s
    .next (if s.twn.paired then s.declareDown true else s)
/-- HEALTH: the lee's health appears in TWN_PEER. -/
def execHealth (h : TwinHdr) (worst : BitVec 2) (row : Fin 384) (hbm tpl : BitVec 7) (s : State) : Res :=
  match s.twinIn h with
  | none => .next s
  | some s =>
    if !s.serving then .next s else
    let s := (((s.wr TWN_PEER_WORST 0 worst.toNat).wr TWN_PEER_BIST_ROW 0 row.val).wr TWN_PEER_HBM_SCRUB 0 hbm.toNat).wr
      TWN_PEER_TPL_SCRUB 0 tpl.toNat
    let s := (s.wr TWN_PEER_AGE_MS 0 0).onTwn fun t => { t with
      healthWall := s.wall, healthyFrom := if worst = 0 then t.healthyFrom else s.wall }
    .next (if 2 ≤ worst.toNat then s.fault 0x87 0x30 1 else s)

/-- RESUME: a FENCED module serves on as EXPOSED. -/
def execResume (master : Master) (s : State) : Res :=
  if !s.mayConfigure master.val then .next (if master.val < 2 then s.hostLog master.val 0 0xA00000 cPERM else s)
  else if s.twinSt ≠ twFenced then .next s
  else .next ((s.setParked s.supParks).setTwin twExposed).releaseGates
/-- TAKE: the owning host makes an armed lee take over. -/
def execTake (master : Master) (s : State) : Res :=
  if !s.mayConfigure master.val then .next (if master.val < 2 then s.hostLog master.val 0 0xA00000 cPERM else s)
  else
    let s := s.rearm
    if s.twinSt ≠ twLee ∨ s.on TWN_STATUS_ARMED = false then .next s
    else .next (s.onTwn fun t => { t with paired := false }).takeOver

/-! ### Arming and switchover (R498, R506) -/

/-- ARM: the image's tables are loaded into buffer A, its programs, data and barrier sets placed; nothing starts. -/
def execArm (master : Master) (s : State) : Res :=
  if !s.mayConfigure master.val then .next (if master.val < 2 then s.hostLog master.val 0 0xA00000 cPERM else s)
  else if !s.plans.isEmpty ∨ s.twn.arming = true ∨ s.safe then .next s
  else
    let pa := s.rd TWN_ARM_ADDR_ADDR
    let (s, m, c) := s.armCheck
    if c ≠ cOK then .next s else
    let secs := sectsOf m pa
    let (s, c) := s.loadTides m pa true secs
    if c ≠ cOK then .next s
    else .next ((s.loadPlan m pa secs).onTwn fun t => { t with
      arming := true, rewrite := [], image := some (memNat m (pa + 4) 8, tideStations secs, loadedDies secs, memNat m (pa + 12) 1) })

/-- Registered regions: base and length. -/
def State.regionExtents (s : State) : List (Nat × Nat) :=
  (List.range 64).flatMap fun n => (twinRegions s.regs n).map fun b =>
    let h := kvHdr (memBytes s.hbm b 64)
    (b, 512 + h.cap * h.units * 64)
/-- ARMING_COMPLETE: INVAL, sparing moored lines, over every registered region in every Tidepool; ARMED. -/
def execArmingComplete (s : State) : Res :=
  if !s.twn.arming then .next s else
  let rs := s.regionExtents
  let inR (l : Nat) : Bool := rs.any fun r => decide (r.1 < 512 * l + 512) && decide (512 * l < r.1 + r.2)
  let s := (List.range 24).foldl (fun s d =>
    (((s.dieLines d).map (·.1)).filter inR).foldl (fun s l => if (s.line d l).moor then s else s.setLine d l TLine.absent) s) s
  .next ((s.wr TWN_STATUS_ARMED 0 1).onTwn fun t => { t with arming := false })

/-- Step 2: the replay records of covered, unbroken streams wait for the token ring in SEQ order, and are written
while it has room. -/
def State.replayStream (s : State) (n : Nat) : State :=
  let recs := (s.replayOf n).map fun x => memBytes s.hbm (s.replayAddr n x.2) 64
  let s := s.setSmp n { s.smp n with waiting := recs ++ (s.smp n).waiting }
  recs.foldl (fun s _ => s.writeToken n) s

/-- TWIN_SWITCHOVER: the lee in TAKING replays records and asks for the swap to buffer A as a role turn; once the
tiles run, it serves as EXPOSED. What the Strandline entry of a switchover holds is not stated. -/
def execTwinSwitchover (s : State) : Res :=
  if s.twinSt ≠ twTaking ∨ s.safe then .next s else
  match s.plans.find? fun j => j.ring.isNone with
  | some j =>
    if j.phase ≠ .running ∨ s.idle then .next s else
    let (typ, s) := s.fresh
    let (body, s) := s.fresh
    let s := (((s.newPair s.twn.paired).setTwin twExposed).bump TWN_STAT_SWITCHES 0 1).fault 0x86 0x30 0
    .next (s.strand typ (leBytes 40 body)).releaseGates
  | none =>
    let s := if s.twn.replayed then s else
      ((s.coveredStreams.filter fun n => !s.twn.broken.contains n).foldl (fun s n => s.replayStream n) s).onTwn fun t => { t with replayed := true }
    match s.twn.image with
    | none => .next s
    | some (plan, qs, _, modes) => .next (s.requestPlan none plan qs modes)

/-- HANDBACK: after 10 s healthy, unless HOLD is 1 on either module, every next step is held; once ACKSEQ covers
every delta the windward tells the lee, ends its job and becomes LEE_SYNC (R507). -/
def execHandback (peerHold : Bool) (s : State) : Res :=
  let s := s.twinAges
  if s.twinSt ≠ twWindward ∨ s.safe then .next s
  else if !s.twn.hold ∧ (s.on TWN_CTRL_HOLD = true ∨ peerHold = true ∨ s.rd TWN_STATUS_HEALTHY_S < 10) then .next s
  else
    let s := s.onTwn fun t => { t with hold := true }
    if !s.twn.deltas.isEmpty || !s.twn.unacked.isEmpty then .next s
    else
      let s := s.twinSend (s.twinPort 0) 7 0 .handback
      .next (((s.bump TWN_STAT_SWITCHES 0 1).fault 0x86 0x30 0).stepDown 0x86)

/-! ### Standby health (R508, R509) -/

/-- BIST of one tile: its registers clear; a tile store that the armed image does not fill is tested and left zero,
another is read through its code and rewritten corrected. -/
def bistTile (kept : Bool) (t : Tile) : Tile :=
  { t.fresh with
    store := if kept then t.store else [], ecc := if kept then t.ecc.filter fun e => e.2 != 1 else [], ibuf := t.ibuf, ieccs := t.ieccs }

/-- STANDBY_BIST: a lee tests its next tile row; a failing tile is quarantined and its row shifts at once; a HEALTH
frame goes out. -/
def execStandbyBist (failed : List (Fin 16)) (tpl : BitVec 7) (s : State) : Res :=
  if s.twinSt ≠ twLee ∨ s.safe then .next s else
  let row := s.twn.bistRow
  let d := row / 16
  let r := row % 16
  let armed := s.on TWN_STATUS_ARMED
  let secs := if armed then sectsOf s.hbm (s.rd TWN_ARM_ADDR_ADDR) else []
  let s := (List.range 16).foldl (fun s c =>
    let k := d * 256 + r * 16 + c
    s.setTile k (bistTile (secs.any fun x => x.typ == 5 && x.station == d && x.tile == r * 16 + c) (s.tile k))) s
  let s := failed.foldl (fun s c => s.quarantine 0x07 d (8 * (r * 16 + c.val))) s
  let s := s.rearm
  let worst := s.flt.insts.foldl (fun m i => max m i.cls) 0
  let scrub := (List.range 16).foldl (fun m k => min m (s.rd SHG_SCRUB_POS k * 100 / holeBase)) 100
  let s := s.twinSend (s.twinPort row) 6 0 (.health (BitVec.ofNat 2 worst) (Fin.ofNat 384 row) (BitVec.ofNat 7 scrub) tpl)
  .next (s.onTwn fun t => { t with bistRow := (row + 1) % 384 })

end Sys2Proof.Machine
end

