-- ==== Sys2Proof/Machine/Security.lean ====
section
/-! DEFINITION. Attestation, seals, supervisor updates, the service card and the handover wipe
(23_security_lifecycle.md). -/
namespace Sys2Proof.Machine

/-! ### Digests, signatures and reports (R512, R518, Table 23-5) -/

def digest32 (bs : List Byte) : List Byte := leBytes 32 (Config.digest bs).toNat
def sign (bs : List Byte) : List Byte := leBytes 29792 (Config.signature bs).toNat
def State.regBytes (s : State) (no inst : Nat) : List Byte := leBytes 8 (rfWord s.regs no inst).toNat

/-- Digest of the 66 fuse words. -/
def State.fuseDigest (s : State) : List Byte := digest32 ((List.range 66).flatMap fun n => s.regBytes GLB_FUSE n)
/-- Bytes 0x000 to 0x17F of a report; `mid` is bytes 0x040 to 0x0DF. -/
def State.reportHead (s : State) (format : Nat) (nonce mid : List Byte) : List Byte :=
  let flags := s.rd FLT_STATUS_FACTORY + 2 * s.rd SEC_STATUS_WIPE_PENDING + 4 * s.rd GLB_FWSTAT_MISMATCH
  leBytes 4 format ++ leBytes 4 flags ++ s.regBytes GLB_MODULE_ID 0 ++ leBytes 8 s.powerS
    ++ leBytes 8 (s.rd STL_STATUS_NEXT_SEQ - 1) ++ nonce ++ mid ++ s.stl.chain
    ++ s.regBytes GLB_SUPVER 0 ++ s.regBytes GLB_RTVER 0
    ++ leBytes 1 (s.rd GLB_CAPS_ENABLED) ++ leBytes 1 (s.rd GLB_MODULE_ID_GRADE) ++ leBytes 2 0 ++ leBytes 4 (s.rd SEC_STATUS_WIPES)
    ++ leBytes 64 Config.publicKey.toNat ++ leBytes 40 0
def signedReport (head : List Byte) : List Byte := head ++ sign head ++ leBytes 29792 Config.certificate.toNat
/-- The M_ fields of an attestation report. -/
def State.measures (s : State) : List Byte :=
  s.fuseDigest ++ s.sec.supPlain ++ (if s.on GLB_FWSTAT_RT_LOADED then s.fw.rtPlain else leBytes 32 0)
    ++ s.sec.slotA.mplain ++ s.sec.slotB.mplain
def State.report (s : State) (nonce : List Byte) : List Byte := signedReport (s.reportHead 1 nonce s.measures)

/-! ### Attestation (R517) -/

def reportSize : Nat := 59968
/-- Whether a report fits at an address. -/
def reportAt (pa : Nat) : Bool := pa % 4096 == 0 && paOk pa reportSize

/-- ATTEST_REQUEST: a GO over the nonce at an address; ignored while a report is in progress. -/
def execAttestRequest (master : Master) (addr : BitVec 41) (s : State) : Res :=
  if !s.mayConfigure master.val then .next (if master.val < 2 then s.hostLog master.val 0 0xB00018 cPERM else s)
  else if s.on SEC_ATTEST_BUSY then .next s
  else
    let pa := addr.toNat
    let s := s.wr SEC_ATTEST_ADDR 0 pa
    if !reportAt pa then .next (s.wr SEC_ATTEST_CODE 0 cADDR_FAULT)
    else
      let (s, nonce, _) := s.hrbRead pa 32
      .next ((s.wr SEC_ATTEST_BUSY 0 1).onSec fun x => { x with engine := x.engine ++ [.report nonce pa false] })

/-- A depot command's outcome: logged on the card, and shown in CODE. -/
def State.logCmd (s : State) (op code : Nat) (data : List Byte) : State :=
  (s.wr SEC_CARD_CODE 0 code).emit (.card 0 (leBytes 1 op ++ leBytes 1 code ++ data))

/-- ATTEST_COMPLETE: the signing engine finishes its oldest request, a report, which is written. -/
def execAttestComplete (s : State) : Res :=
  if !s.supUp then .next s else
  match s.sec.engine with
  | .report nonce pa card :: rest =>
    let bs := s.report nonce
    let s := s.onSec fun x => { x with engine := rest }
    if card then .next (if s.sec.card.isSome then (s.emit (.card 2 bs)).logCmd 3 cOK [] else s)
    else .next ((((s.hrbWrite pa bs []).1.wr SEC_ATTEST_BUSY 0 0).wr SEC_ATTEST_CODE 0 cOK).msixOwner 101)
  | _ => .next s

/-! ### Seals (R525 to R527, R534) -/

/-- DAILY entry. -/
def State.stlDaily (s : State) : State :=
  s.stlWrite 3 (leBytes 4 (s.powerS / 3600) ++ leBytes 4 (s.stl.energy / 3600000000000000) ++ leBytes 4 s.stl.thermal
    ++ (List.range 5).flatMap fun b => leBytes 4 (smGet (fun _ => 0) s.stl.bandS b / 360000000))
/-- LASER entry of a source. -/
def State.stlLaser (s : State) (n : Nat) : State :=
  s.stlWrite 4 (leBytes 1 n ++ leBytes 1 (s.rd HRN_SRC_STATE n) ++ leBytes 1 (s.rd HRN_SRC_POSITION n)
    ++ leBytes 1 (s.rd HRN_SRC_WARN n + 2 * s.rd HRN_SRC_SWAP_DUE n + 4 * s.rd HRN_SRC_UNSPARED n)
    ++ leBytes 2 (s.rd HRN_SRC_FADE n) ++ leBytes 4 (s.rd HRN_SRC_LIT_HOURS n))
/-- Bytes 0 to 59 of the entries the next seal covers. -/
def State.sealed (s : State) : List Byte :=
  (List.range (s.rd STL_STATUS_NEXT_SEQ - s.stl.next)).flatMap fun i =>
    let q := s.stl.next + i
    if s.stl.torn.contains q then [] else (smGet (fun _ => []) s.stl.entries q).take 60
/-- What the identity key signs of a seal. -/
def State.sealText (s : State) (seq : Nat) (chain : List Byte) : List Byte :=
  leBytes 8 (s.rd GLB_MODULE_ID_SERIAL) ++ leBytes 8 seq ++ chain
/-- A seal's signature goes into the older signature block. -/
def State.putSeal (s : State) (seq : Nat) (chain : List Byte) : State :=
  let block := leBytes 8 seq ++ chain ++ sign (s.sealText seq chain)
  s.onStl fun r => { r with cur := block, old := r.cur }

/-- A seal: a DAILY entry, LASER entries (with every seventh seal once the record is nearly full), then the SEAL
entry, whose chain digest goes to the signing engine. -/
def State.makeSeal (s : State) : State :=
  let s := s.stlDaily
  let laser := !s.on STL_STATUS_NEAR_FULL || s.stl.seals % 7 == 6
  let s := if laser then (allSrcs.filter fun n => s.srcSt n != cold).foldl (fun s n => s.stlLaser n) s else s
  if s.rd STL_STATUS_FREE = 0 then s.bump STL_STATUS_DROPPED 0 1
  else
    let seq := s.rd STL_STATUS_NEXT_SEQ
    let head := leBytes 8 seq ++ leBytes 8 s.powerS ++ leBytes 1 1 ++ leBytes 3 0
    let chain := digest32 (s.stl.chain ++ s.sealed ++ head)
    let first := s.stl.next
    let s := s.stlWrite 1 (chain ++ leBytes 8 first)
    ((s.onStl fun r => { r with chain := chain, next := seq + 1, lastSeal := s.powerS, seals := r.seals + 1 }).onSec fun x =>
      { x with engine := x.engine ++ [.seal seq chain] }).wr STL_STATUS_SEALING 0 1

/-- SEAL: 86,400 power-on seconds after the last. -/
def execSeal (s : State) : Res :=
  if !s.supUp || decide (s.powerS < s.stl.lastSeal + 86400) then .next s else .next s.makeSeal
/-- STL_SEAL: a GO; PERM within 60 s of the last seal. -/
def execStlSeal (master : Master) (s : State) : Res :=
  if !s.mayConfigure master.val then .next (if master.val < 2 then s.hostLog master.val 0 0xC00010 cPERM else s)
  else if !s.supUp then .next s
  else if 0 < s.stl.seals ∧ s.powerS < s.stl.lastSeal + 60 then .next (s.wr STL_SEAL_CODE 0 cPERM)
  else .next (s.makeSeal.wr STL_SEAL_CODE 0 cOK)
/-- SEAL_SIGNATURE_DONE: the engine's oldest request is a seal; its block is written. -/
def execSealSignatureDone (s : State) : Res :=
  if !s.supUp then .next s else
  match s.sec.engine with
  | .seal seq chain :: rest =>
    let s := (s.putSeal seq chain).onSec fun x => { x with engine := rest }
    .next (s.flag STL_STATUS_SEALING 0 (rest.any fun j => match j with | .seal _ _ => true | _ => false))
  | _ => .next s

/-! ### Supervisor update (R522 to R524) -/

/-- The slot of the boot record that is active. -/
def State.activeSlot (s : State) : Bool := s.fw.bootSlot
/-- An image in its slot. -/
def newSlot (st : Nat) (h plain : List Byte) : Slot := ⟨st, contVersion h, contSvn h, contPlain h, plain⟩

/-- An update refused while one is on its way, or during a wipe. -/
def State.updateBusy (s : State) : Bool :=
  (decide (1 ≤ s.rd SEC_UPD_STAGE) && decide (s.rd SEC_UPD_STAGE ≤ 5)) || s.on SEC_STATUS_WIPING || s.on SEC_STATUS_WIPE_PENDING

/-- The Boot ROM serves an update while no supervisor runs: the slot that failed takes the image, is active, and is
booted. -/
def State.romUpdate (s : State) (h plain : List Byte) : State :=
  let b := if s.on GLB_FWSTAT_A_BAD then false else if s.on GLB_FWSTAT_B_BAD then true else s.activeSlot
  let s := (s.onSlot b fun _ => newSlot 1 h plain).flag SEC_UPD_SLOT 0 b
  let s := s.wr (if b then GLB_FWSTAT_B_BAD else GLB_FWSTAT_A_BAD) 0 0
  ((s.wr GLB_FWSTAT_SUP_DEAD 0 0).onFw fun f => { f with bootSlot := b, phase := 2, supFails := [] }).wr SEC_UPD_CODE 0 cOK

/-- A checked update container: its image goes to the slot that is not active, and the standby core starts from it. -/
def State.stageUpdate (s : State) (h plain : List Byte) : State :=
  let b := !s.activeSlot
  let old := s.rd GLB_SUPVER_VERSION
  let new := contVersion h
  let s := ((s.onSlot b fun _ => newSlot 2 h plain).flag SEC_UPD_SLOT 0 b).setStage 2 old new
  ((s.onFw fun f => { f with sram := memStore f.sram 0x200000 plain }).setStage 3 old new).wr SEC_UPD_CODE 0 cOK
/-- An update submitted by a host (source 0) or card (1), with the outcome of its checks as `check` gives it. -/
def State.submitUpdate (s : State) (card : Bool) (plain : List Byte) (check : State → State × Nat × List Byte) : State :=
  if s.updateBusy then s.wr SEC_UPD_CODE 0 cPERM
  else
    let s := s.flag SEC_UPD_SOURCE 0 card
    if s.on GLB_FWSTAT_SUP_DEAD then
      let (s, code, h) := check s
      if code = cOK then s.romUpdate h plain else s.wr SEC_UPD_CODE 0 code
    else if !s.supUp then s
    else
      let old := s.rd GLB_SUPVER_VERSION
      let (s, code, h) := check s
      let new := contVersion h
      let s := s.setStage 1 old new
      if code = cOK then s.stageUpdate h plain else (s.setStage 0 old new).wr SEC_UPD_CODE 0 code

/-- UPDATE_REQUEST: a GO with SEC_UPD_ADDR; `c` is what the cryptography makes of the container there. -/
def execUpdateRequest (master : Master) (c : Crypto) (s : State) : Res :=
  if !s.mayConfigure master.val then .next (if master.val < 2 then s.hostLog master.val 0 0xB00008 cPERM else s)
  else .next (s.submitUpdate false c.plain fun s => s.stagedCont (s.rd SEC_UPD_ADDR_ADDR) 1 c)

/-- UPDATE_READY: the new image's own checks pass on the standby core; it takes over at the end of the next tick
1,023. -/
def execUpdateReady (s : State) : Res :=
  if s.rd SEC_UPD_STAGE ≠ 3 ∨ !s.supUp then .next s
  else .next ((s.setStage 4 (s.rd GLB_SUPVER_VERSION) (s.slot (s.on SEC_UPD_SLOT)).version).onSec fun x => { x with handover := true })

/-- Control passes to the other core, running the image of a slot. -/
def State.passControl (s : State) (b : Bool) : State :=
  let new := 1 - s.supCore
  let x := s.slot b
  let s := (((s.wr GLB_FWSTAT_ACTIVE_SUP 0 new).flag GLB_FWSTAT_BOOT_SLOT 0 b).wr GLB_SUPVER_VERSION 0 x.version).startCore new
  s.onSec fun y => { y with supPlain := x.mplain }
/-- UPDATE_HANDOVER at the end of a tick 1,023: STAGE 5, and 600 s to confirm. -/
def State.updateHandover (s : State) : State :=
  if !s.sec.handover || !s.supUp || s.rd SEC_UPD_STAGE != 4 then s
  else
    let b := s.on SEC_UPD_SLOT
    let old := s.rd GLB_SUPVER_VERSION
    let s := ((s.passControl b).onSec fun x => { x with handover := false, deadline := s.wall + 60000000000 }).wr SEC_UPD_DEADLINE_S 0 600
    s.setStage 5 old (s.slot b).version
/-- DEADLINE_S counts down. -/
def State.updateClock (s : State) : State :=
  if s.rd SEC_UPD_STAGE = 5 then s.wr SEC_UPD_DEADLINE_S 0 (min 1023 ((s.sec.deadline - s.wall + 99999999) / 100000000)) else s

/-- UPDATE_CONFIRM: the new slot is active and GOOD, the minimum SVN of type 1 is its SVN, and the previous core goes
to STANDBY. -/
def execUpdateConfirm (s : State) : Res :=
  if s.rd SEC_UPD_STAGE ≠ 5 || !s.supUp || decide (s.sec.deadline ≤ s.wall) then .next s
  else
    let b := s.on SEC_UPD_SLOT
    let x := s.slot b
    let old := (s.slot (!b)).version
    let s := (s.onSlot b fun y => { y with st := 1 }).onFw fun f => { f with bootSlot := b }
    let s := ((s.wr SEC_STATUS_MIN_SVN_SUP 0 x.svn).wr SEC_UPD_DEADLINE_S 0 0).onStl fun r => { r with updates := r.updates + 1 }
    .next ((s.wr GLB_FWCORE_STATE (1 - s.supCore) coreStandby).setStage 6 old x.version)
/-- UPDATE_ROLLBACK: the window ends without a confirmation; control passes back and the slot is REJECTED. -/
def execUpdateRollback (s : State) : Res :=
  if s.rd SEC_UPD_STAGE ≠ 5 || !s.supUp || decide (s.wall < s.sec.deadline) then .next s
  else
    let c := s.supCore
    .next (((s.passControl (!s.on SEC_UPD_SLOT)).wr GLB_FWCORE_STATE c coreStandby).rollBack)

/-! ### Handover wipe (R529 to R531) -/

/-- Conditions that refuse a wipe. -/
def State.wipeRefused (s : State) : Bool :=
  s.busy || ((List.range 24).any fun d => (s.die d).running) || (decide (1 ≤ s.rd SEC_UPD_STAGE) && decide (s.rd SEC_UPD_STAGE ≤ 5))
    || decide (1 < s.twinSt)
/-- Step 1: the wipe record. -/
def State.startWipe (s : State) (nonce : List Byte) (addr : Nat) (card : Bool) : State :=
  (((s.wr SEC_STATUS_WIPING 0 1).wr SEC_STATUS_WIPE_PENDING 0 1).wr SEC_WIPE_BUSY 0 1).onSec fun x =>
    { x with wipe := some (nonce, addr, card), wiped := false, stacksDone := false }

/-- WIPE_REQUEST: a GO with KEY 0xA5. -/
def execWipeRequest (master : Master) (key : BitVec 8) (s : State) : Res :=
  if !s.mayConfigure master.val then .next (if master.val < 2 then s.hostLog master.val 0 0xB00020 cPERM else s)
  else if key ≠ 0xA5 ∨ s.on SEC_WIPE_BUSY = true then .next s
  else
    let pa := s.rd SEC_WIPE_ADDR_ADDR
    let code := armCode [(cPERM, s.wipeRefused), (cADDR_FAULT, !reportAt pa)]
    if code ≠ cOK then .next (s.wr SEC_WIPE_CODE 0 code)
    else
      let (s, nonce, _) := s.hrbRead pa 32
      .next ((s.wr SEC_WIPE_CODE 0 cOK).startWipe nonce pa false)

/-- Step 3 at one stack: a new key and a zero fill. -/
def State.rekey (s : State) (k : Nat) : State := (s.setShg k { s.shg k with key := (s.shg k).key + 1 }).zeroStack k

/-- HANDOVER_WIPE: steps 2 to 6, once the engine has finished earlier requests; every stack is under a new key and
zero, the WIPE entry and its seal are written, the attestation is signed and kept, and a MOD is requested. -/
def execHandoverWipe (s : State) : Res :=
  match s.sec.wipe with
  | none => .next s
  | some (nonce, _, _) =>
    if !s.on SEC_STATUS_WIPING || s.sec.wiped || !s.supUp || !s.sec.engine.isEmpty then .next s
    else
      let s := s.onSec fun x => { x with userKey := x.userKey + 1 }
      let s := if s.sec.stacksDone then s else (List.range 16).foldl (fun s k => s.rekey k) s
      let s := (s.onSec fun x => { x with stacksDone := true }).bump SEC_STATUS_WIPES 0 1
      let s := s.stlWrite 10 (leBytes 4 (s.rd SEC_STATUS_WIPES) ++ leBytes 2 0xFFFF ++ leBytes 1 1 ++ leBytes 1 0 ++ nonce)
      let s := s.makeSeal
      let s := match s.sec.engine with
        | .seal seq chain :: _ => (s.putSeal seq chain).onSec fun x => { x with engine := [] }
        | _ => s
      let att := signedReport (s.reportHead 2 nonce (leBytes 2 0xFFFF ++ leBytes 1 1 ++ leBytes 157 0))
      .next ((s.onSec fun x => { x with wipeAtt := att, wiped := true }).assertMod 3)

/-- Step 7, after self-test: the attestation is written at the recorded address or to the card, and the wipe record
cleared; a wipe that a power loss cut goes on (R531). -/
def State.finishWipe (s : State) : State :=
  match s.sec.wipe with
  | none => s
  | some (_, pa, card) =>
    if !s.sec.wiped then (s.wr SEC_STATUS_WIPING 0 1).wr SEC_WIPE_BUSY 0 1
    else
      let s := if card then s.emit (.card 2 s.sec.wipeAtt) else (s.hrbWrite pa s.sec.wipeAtt []).1
      ((s.wr SEC_STATUS_WIPE_PENDING 0 0).onSec fun x => { x with wipe := none, wiped := false, stacksDone := false }).msixOwner 101

/-! ### Service card (R519 to R521) -/

/-- The next script of the card starts, in Harbour mode; a container that fails its checks is passed over. -/
def State.nextScript : Nat → State → State
  | 0, s => s
  | f + 1, s =>
    match s.sec.card with
    | none => s
    | some c =>
      if !s.on SEC_CARD_CARD_EN || !s.on GLB_POST_HARBOUR || !s.supUp then s else
      match c.scripts[s.sec.scriptsDone]? with
      | none => s
      | some x =>
        let k := s.contCheck (x.bytes.take 128) x.crypto 3
        let s := s.wr SEC_UPD_CHECK 0 k
        if k = 0 then (s.wr SEC_CARD_SCRIPT_RUN 0 1).onSec fun y => { y with script := x.crypto.plain, waitTo := 0 }
        else State.nextScript f ((s.logCmd 0xFF cUNSUPPORTED []).onSec fun y => { y with scriptsDone := y.scriptsDone + 1 })
def State.runScripts (s : State) : State :=
  State.nextScript (match s.sec.card with | some c => c.scripts.length + 1 | none => 0) s

/-- The agent acts on the card in its slot: its update, then its scripts. -/
def State.serveCard (s : State) : State :=
  match s.sec.card with
  | none => s
  | some c =>
    if !s.on SEC_CARD_CARD_EN then s else
    let s := match c.image with
      | none => s
      | some x =>
        let s := s.submitUpdate true x.crypto.plain fun s =>
          let k := s.contCheck (x.bytes.take 128) x.crypto 1
          (s.wr SEC_UPD_CHECK 0 k, if k = 0 then cOK else cUNSUPPORTED, x.bytes.take 128)
        s.wr SEC_CARD_CODE 0 (s.rd SEC_UPD_CODE)
    if s.sec.script.isEmpty then s.runScripts else s

/-- CARD_INSERTION: a card is seated; scripts run from the first. -/
def execCardInsertion (cid : Nat) (image : Option CardFile) (scripts : List CardFile) (s : State) : Res :=
  let s := s.onSec fun x => { x with card := some ⟨cid, image, scripts⟩, lastCid := cid, scriptsDone := 0, script := [] }
  if s.rst.held then .next s else .next (s.wr SEC_CARD_PRESENT 0 1).serveCard

/-- CARD_REMOVAL: a file copy in progress ends with ABORTED, and the agent's channels reset. -/
def execCardRemoval (copying : Bool) (s : State) : Res :=
  let s := s.onSec fun x => { x with card := none, script := [] }
  let s := (s.wr SEC_CARD_PRESENT 0 0).wr SEC_CARD_SCRIPT_RUN 0 0
  .next ((if copying then s.wr SEC_CARD_CODE 0 cABORTED else s).receiverReset 11)

/-- The running script may take its next command: no wait, no report of its own being signed, no wipe. -/
def State.scriptReady (s : State) : Bool :=
  s.on SEC_CARD_SCRIPT_RUN && s.supUp && decide (s.sec.waitTo ≤ s.wall) && !s.on SEC_STATUS_WIPING &&
    !(s.sec.engine.any fun j => match j with | .report _ _ card => card | _ => false)
/-- The 16 B command at the front of the script, if it has this opcode, and the state past it. -/
def State.takeCmd (s : State) (op : Nat) : Option (List Byte × State) :=
  let c := s.sec.script.take 16
  if s.scriptReady && c.length == 16 && leNat (c.take 1) == op then
    some (c, s.onSec fun x => { x with script := x.script.drop 16 })
  else none
/-- Nonce of an ATTEST or WIPE command. -/
def cmdNonce (c : List Byte) : List Byte := c.drop 1 ++ leBytes 17 0

/-- SCRIPT_READ: a BAR0 register's value is logged. -/
def execScriptRead (s : State) : Res :=
  match s.takeCmd 1 with
  | none => .next s
  | some (c, s) =>
    let a := fieldAt c 4 4
    if a % 8 ≠ 0 then .next (s.logCmd 1 cADDR_FAULT [])
    else .next ((s.clearRead a 0 64).logCmd 1 cOK (leBytes 8 (s.bar0Word a)))
/-- SCRIPT_ATTEST: a report over the command's nonce is asked for, to be written to the card. -/
def execScriptAttest (s : State) : Res :=
  match s.takeCmd 3 with
  | none => .next s
  | some (c, s) => .next (s.onSec fun x => { x with engine := x.engine ++ [.report (cmdNonce c) 0 true] })
/-- SCRIPT_WIPE: a handover wipe starts, or is refused. -/
def execScriptWipe (s : State) : Res :=
  match s.takeCmd 4 with
  | none => .next s
  | some (c, s) =>
    if s.wipeRefused then .next (s.logCmd 4 cPERM [])
    else .next ((s.logCmd 4 cOK []).startWipe (cmdNonce c) 0 true)
/-- STLDUMP: every entry and both signature blocks go to the card. -/
def execStldump (s : State) : Res :=
  match s.takeCmd 5 with
  | none => .next s
  | some (_, s) =>
    let es := (List.range (s.rd STL_STATUS_NEXT_SEQ)).flatMap fun q => smGet (fun _ => []) s.stl.entries q
    .next ((s.emit (.card 3 (es ++ s.stl.cur ++ s.stl.old))).logCmd 5 cOK [])
/-- SCRIPT_WAIT: the next command waits. -/
def execScriptWait (s : State) : Res :=
  match s.takeCmd 6 with
  | none => .next s
  | some (c, s) => .next ((s.onSec fun x => { x with waitTo := s.wall + 100000 * fieldAt c 1 4 }).logCmd 6 cOK [])
/-- MODRESET: a MOD is requested; the script is over. -/
def execModreset (s : State) : Res :=
  match s.takeCmd 7 with
  | none => .next s
  | some (_, s) => .next (((s.logCmd 7 cOK []).onSec fun x => { x with scriptsDone := x.scriptsDone + 1, script := [] }).assertMod 3)
/-- SCRIPT_END: END, the end of the script's bytes, or an unknown opcode (UNSUPPORTED) ends the script; the next one
starts. -/
def execScriptEnd (s : State) : Res :=
  let c := s.sec.script.take 16
  let op := leNat (c.take 1)
  let short := decide (c.length < 16)
  if !s.scriptReady || !(short || op == 0 || decide (7 < op)) then .next s
  else
    let s := if !short && decide (7 < op) then s.logCmd op cUNSUPPORTED [] else s
    .next (((s.wr SEC_CARD_SCRIPT_RUN 0 0).onSec fun x => { x with script := [], scriptsDone := x.scriptsDone + 1 }).runScripts)

end Sys2Proof.Machine
end

