-- ==== Sys2Proof/Machine/Slack.lean ====
section
/-! DEFINITION. Slack water of the module: the settle, beacon and quiet ticks, swaps and role turns, and inserted idle
cycles (08_tide_schedule.md, 12_die_roles.md, R439, R445, R464). The ticks of slack water are told by the wall count,
which counts through idle cycles too. -/
namespace Sys2Proof.Machine

/-- Tick within the current tide cycle, active or idle. -/
def State.wk (s : State) : Nat := s.wall % 1024
/-- The counts run and this is a tick of the given numbers. -/
def State.atTick (s : State) (ts : List Nat) : Bool := s.tide.started && ts.contains s.wk
def State.onTide (s : State) (f : Tide → Tide) : State := { s with tide := f s.tide }

/-! ### The swap latch (R201, R282, R464) -/

/-- Role, slot and RESTART that TID_ROLENEXT gives each rank. -/
def State.nextMap (s : State) : List (Nat × Nat × Bool) :=
  (List.range 24).map fun n => (s.rd TID_ROLENEXT_ROLE n, s.rd TID_ROLENEXT_SLOT n, s.on TID_ROLENEXT_RESTART n)
/-- A rank's next role or slot differs from its entry, or it restarts. -/
def State.moves (s : State) (map : List (Nat × Nat × Bool)) (n : Nat) : Bool :=
  let x := map.getD n (0, 31, false)
  x.2.2 || x.1 != s.rd TID_ROLE_ROLE n || x.2.1 != s.rd TID_ROLE_SLOT n
def firstRank (p : Nat → Bool) : Option Nat := (List.range 24).find? p

/-- An entry no map may hold (cause 3). -/
def badEntryOf (x : Nat × Nat × Bool) : Bool :=
  decide (4 < x.1) || (x.1 == 0 && x.2.1 != 31) || (x.1 != 0 && decide (23 < x.2.1))
/-- A rank duplicates a lower one's next entry (cause 2). -/
def dupEntry (map : List (Nat × Nat × Bool)) (n : Nat) : Bool :=
  let x := map.getD n (0, 31, false)
  x.1 != 0 && (map.take n).any fun y => y.1 == x.1 && y.2.1 == x.2.1

/-- Lowest cause of Table 12-2 but 6 that applies to a request, with the lowest rank that fails it. -/
def State.turnFault (s : State) (r : SwapReq) : Option (Nat × Nat) :=
  let map := s.nextMap
  let causes : List (Nat × (Nat → Bool)) :=
    if r.turn then
      [(1, fun n => s.moves map n && (s.die n).running), (2, dupEntry map), (3, fun n => badEntryOf (map.getD n (0, 31, false))),
       (5, fun n => s.moves map n && !r.stations.contains n)]
    else [(4, fun n => s.moves map n && r.stations.contains n)]
  causes.findSome? fun c => (firstRank c.2).map fun n => (c.1, n)

/-- Modes byte of a station's inactive table, if its buffer is valid. -/
def State.inactiveModes (s : State) (q : Nat) : Option Nat :=
  let b := (s.stn q).hasActive && !s.on STN_TIDE_ACTIVE q
  if s.on (if b then STN_TIDE_VALID_B else STN_TIDE_VALID_A) q then
    some (memNat (if b then (s.stn q).bufB else (s.stn q).bufA) 0xC0009 1)
  else none
/-- Modes the next active cycle runs: those a plan's launch names, else the ones in force. -/
def State.modesFor (s : State) (r : SwapReq) : Nat := r.modes.getD (s.tide.pwrNext + 2 * s.tide.optNext)
/-- The checks of R201. -/
def State.tablesBad (s : State) (r : SwapReq) : Bool := r.stations.any fun q => s.inactiveModes q != some (s.modesFor r)

/-- Jobs whose abort began in this tide cycle. -/
def State.abortsNow (s : State) : List Job :=
  s.plans.filter fun j => (match j.phase with | .aborting _ => true | _ => false) && j.since / 1024 == s.wall / 1024

/-- Cause and rank of a refusal, if the request is refused; an abort refuses a TURN = 0 swap without a cause. -/
def State.swapRefusal (s : State) (r : SwapReq) : Option (Option (Nat × Nat)) :=
  if !s.abortsNow.isEmpty then
    some (if r.turn then
      some (1, (firstRank fun n => r.stations.contains n && s.abortsNow.any fun j => j.dies.contains n).getD 0xFF)
    else none)
  else match s.turnFault r with
    | some x => some (some x)
    | none => if s.tablesBad r then some (some (6, 0xFF)) else none

/-- The requested job of a plan's swap. -/
def State.planOf (s : State) (r : SwapReq) : Option Job :=
  if r.modes.isSome then s.plans.find? fun j => j.phase == .requested && j.stations == r.stations else none

/-- A refused request: REFUSED, the cause of a refused turn, and a launch's PERM. -/
def State.refuseSwap (s : State) (r : SwapReq) (c : Option (Nat × Nat)) : State :=
  let s := s.wr TID_SWAP_REFUSED 0 1
  let s := match c with
    | some (k, n) => if r.turn || k == 4 then (s.wr TID_TURN_CAUSE 0 k).wr TID_TURN_RANK 0 n else s
    | none => s
  match s.planOf r with
  | some j => s.endJob j cPERM
  | none => s

/-- A request that passes is latched with the map it was checked against. -/
def State.acceptSwap (s : State) (r : SwapReq) : State :=
  let m := s.modesFor r
  let job := s.planOf r
  let s := (s.wr TID_SWAP_PENDING 0 1).onTide fun t =>
    { t with swapLatched := some ⟨r, s.nextMap⟩, pwrNext := m % 2, optNext := m / 2 % 2 }
  match job with
  | some j => { s with plans := s.plans.map fun x => if x == j then { j with phase := .latched } else x }
  | none => s

/-- SWAP_LATCH: the oldest request, while none is latched. -/
def State.latchSwap (s : State) : State :=
  match s.tide.swapReqs, s.tide.swapLatched with
  | r :: rs, none =>
    let s := s.onTide fun t => { t with swapReqs := rs }
    match s.swapRefusal r with
    | some c => s.refuseSwap r c
    | none => s.acceptSwap r
  | _, _ => s

/-- A requested module role change is latched (R293). -/
def State.latchMrole (s : State) : State :=
  match s.tide.mroleReq, s.tide.mroleLatched with
  | some x, none => (s.wr TID_MROLE_NEXT_PENDING 0 1).onTide fun t => { t with mroleReq := none, mroleLatched := some x }
  | _, _ => s

/-! ### Evaluations of tick 1,008 -/

/-- THROTTLE_EVALUATION (R445): the highest request of Table 19-4. -/
def State.evalThrottle (s : State) : State :=
  let s := s.wr PWR_THROTTLE_FLT_REQ 0 s.fltReq
  let l := [s.rd PWR_THROTTLE_CUR_REQ, s.rd PWR_THROTTLE_HDL_REQ, s.rd PWR_THROTTLE_TPL_REQ, s.rd PWR_THROTTLE_SHG_REQ,
    s.rd PWR_THROTTLE_HRB_REQ, s.rd PWR_THROTTLE_FLT_REQ, s.rd PWR_CTRL_HOST_LEVEL].foldl max 0
  if s.rd PWR_THROTTLE_LEVEL = l then s
  else ((s.wr PWR_THROTTLE_LEVEL 0 l).bump PWR_THROTTLE_CHANGES 0 1).msixOwner 99

/-- COUPLER_MAP_REBUILD (R180): the map follows the failed sets, and a job whose minimum width is not met is aborted. -/
def State.rebuildMap (s : State) (d : Nat) : State :=
  if !(s.coupler d).rebuild || !s.poolUp d then s else
  let s := (s.setCoupler d { s.coupler d with rebuild := false }).publishMap d 1
  let w := s.rd TPL_STATUS_WIDTH d
  let s := if w == 0 then s.wr TPL_STATUS_STATE d 5 else s
  if w < s.rd TPL_CTRL_MIN_WIDTH d ∧ (s.plans.any fun j => j.phase == .running && j.dies.contains d) = true then s.fault 0x34 d 0 else s

/-- COUPLER_RECALIBRATION (R186): a sweep starts when the temperature has moved or the rate detector asks. -/
def State.startSweep (s : State) (d : Nat) : State :=
  let c := s.coupler d
  if s.poolUp d && !s.on TPL_STATUS_CAL_BUSY d && (decide (40 < absDiff (s.govT d) c.calTemp) || c.calReq) then
    s.wr TPL_STATUS_CAL_BUSY d 1
  else s
def State.settleCoupler (s : State) (d : Nat) : State :=
  let s := s.rebuildMap d
  (if s.poolUp d then s.stepTaps d else s).startSweep d

/-- REFRESH_BAND_EVALUATION (R272, R449): band 0 is 1×, 1 is 2× from 85 °C, 2 is 4× from 95 °C or without a sensor. -/
def State.evalRefresh (s : State) (k : Nat) : State :=
  let b := thrLevel (s.rd SHG_STATUS_REFRESH k) (s.govT (24 + k)) [(850, 1), (950, 2)]
  s.setShg k { s.shg k with bandNext := if s.pwr.blind.contains (48 + k) then 2 else b }

/-- SETTLE_TICK: in tick 1,008 slots of tick 1,007 without a swell have failed; requests are latched; the governor,
the throttle, the couplers, the rings and the refresh bands are evaluated. -/
def execSettleTick (s : State) : Res :=
  if !s.atTick [1008] then .next s else
  let s := if s.idle then s else qs.foldl (fun s q => if s.listens q then s.noArrivals q 1007 else s) s
  let s := s.rearm.latchSwap.latchMrole.govern.evalThrottle
  let s := (List.range 24).foldl (fun s d => s.settleCoupler d) s
  .next (((List.range 16).foldl (fun s k => s.evalRefresh k) s.settleRings).updateClock)

/-! ### Beacons (R209 to R212) -/

/-- Throttle pattern: whether a tide cycle by wall count is idle at a level (R211). -/
def throttled (l cycle : Nat) : Bool := decide (cycle % 8 * l / 8 < (cycle % 8 + 1) * l / 8)
/-- Whether the next tide cycle is idle: throttled, parked, or for a mode change. -/
def State.idleNext (s : State) : Bool :=
  throttled (s.rd PWR_THROTTLE_LEVEL) (s.wall / 1024 + 1) || s.tide.parked ||
    s.tide.pwrNext != s.rd TID_STATUS_PWR_MODE || s.tide.optNext != s.rd TID_STATUS_OPT_MODE

def stnBits (qs : List Nat) : Nat := qs.foldl (fun m q => Nat.lor m (2 ^ stnId q)) 0
/-- The beacon of the current tide cycle (Table 8-9). -/
def State.makeBeacon (s : State) : BeaconMsg :=
  let st := match s.tide.swapLatched with | some h => stnBits h.req.stations | none => 0
  let turn := match s.tide.swapLatched with | some h => h.req.turn | none => false
  { tick0 := (s.ticks / 1024 + 1) * 1024, wall0 := (s.wall / 1024 + 1) * 1024, swap := st, turn := if turn then st else 0,
    idleNext := s.idleNext, pwr := s.tide.pwrNext, opt := s.tide.optNext, level := s.rd PWR_THROTTLE_LEVEL }
/-- Bytes 0 to 39 of a beacon. -/
def BeaconMsg.bytes (b : BeaconMsg) : List Byte :=
  let head := leBytes 8 b.tick0 ++ leBytes 8 b.wall0 ++ leBytes 8 b.swap ++ leBytes 8 b.turn
    ++ leBytes 1 ((if b.idleNext then 1 else 0) + 2 * b.pwr + 4 * b.opt + 8 * b.level) ++ leBytes 3 0
  head ++ leBytes 4 (crc32c head)
/-- A beacon read from a payload that decoded to other bytes: one whose CRC holds. -/
def beaconOf (p : List Byte) : Option BeaconMsg :=
  let f := fieldAt p 32 1
  if fieldAt p 36 4 ≠ crc32c (p.take 36) then none
  else some { tick0 := fieldAt p 0 8, wall0 := fieldAt p 8 8, swap := fieldAt p 16 8, turn := fieldAt p 24 8,
              idleNext := f.testBit 0, pwr := bitsN f 1 1, opt := bitsN f 2 1, level := bitsN f 3 3 }

/-- A station uses a beacon: its swap announcement, the optical mode it names, its regions' counter value, and its deferred
arms. -/
def State.takeBeacon (s : State) (q : Nat) (b : BeaconMsg) : State :=
  let x := s.stn q
  let s := s.setStn q { x with beacon := some b, optTo := b.opt, swapAnn := x.swapAnn || b.swap.testBit (stnId q),
                                turnAnn := x.turnAnn || b.turn.testBit (stnId q) }
  if q < 24 then
    let s := (List.range 4).foldl (fun s g => s.setRegion (q * 4 + g) { s.region (q * 4 + g) with beacon := some b.tick0 }) s
    s.checkDeferred q s.ticks
  else
    let s := if q = 40 then s.setRegion hrbRegion { s.region hrbRegion with beacon := some b.tick0 } else s
    s.wr STN_TIDE_SYNCED q 1

/-- The beacon of this tide cycle, once sent. -/
def State.sentBeacon (s : State) : Option BeaconMsg :=
  match s.tide.beacon with
  | some b => if b.wall0 = (s.wall / 1024 + 1) * 1024 then some b else none
  | none => none

/-- The cycle's beacon is made, and the Harbour die takes it internally; the throttle level and whether the next cycle is
idle are in force with it. -/
def State.issueBeacon (s : State) : State × BeaconMsg :=
  match s.sentBeacon with
  | some b => (s, b)
  | none =>
    let b := s.makeBeacon
    let s := (s.wr TID_STATUS_THROTTLE 0 b.level).flag TID_STATUS_IDLE_NEXT 0 b.idleNext
    ((s.onTide fun t => { t with beacon := some b }).takeBeacon 40 b, b)

/-- BEACON_TICK: in ticks 1,020 and 1,021 the Harbour station sends a copy of the cycle's beacon to every other station,
once its serializers hold lock. -/
def execBeaconTick (s : State) : Res :=
  if !s.atTick [1020, 1021] then .next s else
  let (s, b) := s.issueBeacon
  let copy := s.wk - 1017
  let x := s.stn 40
  if !s.listens 40 || x.told.testBit copy then .next s else
  let s := s.setStn 40 { x with told := x.told + 2 ^ copy }
  .next ((qs.filter (· != 40)).foldl (fun s d => s.launch 40 (slackWg 40 d) (slackSwell 6 40 (slackWg 40 d) d 0 s.wk [] b.bytes)) s)

/-- A beacon copy fails at a station; with the second, the cycle's beacon is lost. -/
def State.failBeacon (s : State) (q : Nat) : State :=
  let x := s.stn q
  let s := s.setStn q { x with badCopies := x.badCopies + 1 }
  if x.badCopies = 0 then s else (s.bump STN_HRN_BEACON_LOST q 1).fault 0x13 (stnId q) 0

/-- What a station makes of a beacon swell taken off the layer. -/
def State.readBeacon (s : State) (n : Nat) (x : Swell) (rx : Rx) : State :=
  match rxSwell s.calm x (if s.pathBad 40 x.swg n then Rx.fec else rx) with
  | none => (s.fecEvent n 40 x.swg).failBeacon n
  | some y =>
    if !y.expected [6] x.sstn x.swg x.dst x.dport x.tick 0 then (s.discard n 0).failBeacon n
    else match beaconOf y.payload with
      | some c => if (s.stn n).beacon.isSome then s else s.takeBeacon n c
      | none => s.failBeacon n

/-- BEACON: a station's drop port 0 receives a beacon copy in its tick and uses the first that passes FEC and its CRC. -/
def execBeacon (q : Fin 41) (rx : Rx) (s : State) : Res :=
  let n := q.val
  if !s.listens n ∨ !s.atTick [1020, 1021] then .next s else
  match s.air.find? fun x => x.kind == 6 && x.dst == stnId n && x.tick == s.wk with
  | none => .next s
  | some x => .next ({ s with air := s.air.eraseP (· == x) }.readBeacon n x rx)

/-- After the beacon ticks a station that has used neither copy has lost the cycle's beacon (R209). -/
def State.settleBeacons (s : State) : State :=
  let s := { s with air := s.air.filter (·.kind != 6) }
  (qs.filter (· != 40)).foldl (fun s q =>
    let x := s.stn q
    if s.listens q && x.beacon.isNone && decide (x.badCopies < 2) then
      ((s.setStn q { x with badCopies := 2 }).bump STN_HRN_BEACON_LOST q 1).fault 0x13 (stnId q) 0
    else s) s

/-! ### Swaps and role turns (R201, R209, R280, R283) -/

/-- A station makes its inactive buffer active; a Shingle takes requests again and leaves the service schedule. -/
def State.swapTable (s : State) (q : Nat) : State :=
  let b := (s.stn q).hasActive && !s.on STN_TIDE_ACTIVE q
  let s := (s.flag STN_TIDE_ACTIVE q b).setStn q { s.stn q with hasActive := true }
  if 24 ≤ q ∧ q < 40 then (s.wr SHG_STATUS_SERVICE (q - 24) 0).setShg (q - 24) { s.shg (q - 24) with lost := false } else s

/-- A new tenure of a rank (R283). -/
def State.tenure (s : State) (n role slot epoch : Nat) : State :=
  let s := ((s.wr TID_ROLE_PREV_ROLE n (s.rd TID_ROLE_ROLE n)).wr TID_ROLE_PREV_SLOT n (s.rd TID_ROLE_SLOT n)).wr
    TID_ROLE_PREV_SINCE n (s.rd TID_ROLE_SINCE n)
  ((s.wr TID_ROLE_ROLE n role).wr TID_ROLE_SLOT n slot).wr TID_ROLE_SINCE n epoch
/-- Rank that now holds an entry's previous role and slot. -/
def State.fwdRank (s : State) (n : Nat) : Nat :=
  if s.rd TID_ROLE_PREV_ROLE n = 0 then 0xFF
  else (firstRank fun m => s.rd TID_ROLE_ROLE m == s.rd TID_ROLE_PREV_ROLE n && s.rd TID_ROLE_SLOT m == s.rd TID_ROLE_PREV_SLOT n).getD 0xFF
/-- The role map after a turn to epoch `e`. -/
def State.turnMap (s : State) (h : SwapHeld) (e : Nat) : State :=
  let ranks := List.range 24
  let movers := ranks.filter (s.moves h.map)
  let s := movers.foldl (fun s n => let x := h.map.getD n (0, 31, false); s.tenure n x.1 x.2.1 e) (s.wr TID_EPOCH_EPOCH 0 e)
  let s := ranks.foldl (fun s n => s.wr TID_ROLE_FWD_RANK n (s.fwdRank n)) s
  let s := (ranks.filter h.req.stations.contains).foldl (fun s n => s.wr TID_ROLENEXT_RESTART n 0) s
  ranks.foldl (fun s n => s.setDie n { s.die n with epoch := e, role := s.rd TID_ROLE_ROLE n, slot := s.rd TID_ROLE_SLOT n }) s

/-- A restarting die: tiles as R56 gives them but for their stores, and bundle 0 at tick `T` unless it is IDLE. -/
def State.restartDie (s : State) (T d : Nat) : State :=
  let go := s.rd TID_ROLE_ROLE d != 0
  let s := s.eachTile d fun _ t => if go then t.restart T else { t.restart T with issue := .idle }
  let s := { s with barrs := s.barrs.filter fun b => b.1 / 16 != d }
  if go then (s.setDie d { s.die d with running := true }).wr TPL_CTRL_LOCK d 1 else s

/-- Whether a die belongs to an aborting job. -/
def State.dieAborting (s : State) (d : Nat) : Bool :=
  s.plans.any fun j => j.dies.contains d && (match j.phase with | .aborting _ => true | _ => false)

/-- The latched swap takes effect at the stations that its announcement has reached. -/
def State.takeSwap (s : State) (h : SwapHeld) : State :=
  let T := s.ticks + 1
  let named := h.req.stations.filter fun q => (s.stn q).swapAnn
  let s := named.foldl (fun s q => s.swapTable q) s
  let s := if h.req.turn then
      let s := s.turnMap h ((s.rd TID_EPOCH_EPOCH + 1) % 65536)
      (named.filter fun d => decide (d < 24) && (h.map.getD d (0, 31, false)).2.2 && !s.dieAborting d).foldl (fun s d => s.restartDie T d) s
    else s
  let s := s.mapStns fun _ x => { x with swapAnn := false, turnAnn := false }
  let s := (s.wr TID_SWAP_PENDING 0 0).onTide fun t => { t with swapLatched := none }
  let started := s.plans.any fun j => j.phase == .latched
  let s := { s with plans := s.plans.map fun j => match j.phase with
    | .latched => { j with phase := .running } | .aborting _ => { j with phase := .aborting false } | _ => j }
  -- The launch sets OPT_MODE (R21).
  let s := if started then s.wr FAB_CTRL_LOCK 0 1 else s
  if h.req.modes.isSome then s.wr GLB_MODULE_ID_OPT_MODE 0 (s.rd TID_STATUS_OPT_MODE) else s

/-- A latched module role change applies (R293). -/
def State.applyMrole (s : State) : State :=
  match s.tide.mroleLatched with
  | none => s
  | some (r, f) =>
    let s := if s.rd TID_MROLE_MROLE = r then s else s.wr TID_MROLE_MEPOCH 0 (s.rd TID_MROLE_MEPOCH + 1)
    (((s.wr TID_MROLE_MROLE 0 r).wr TID_MROLE_FWD_RANK 0 f).wr TID_MROLE_NEXT_PENDING 0 0).onTide fun t => { t with mroleLatched := none }

/-- What happens at the moment of R280, when the next cycle is active. -/
def State.turnMoment (s : State) : State :=
  let s := match s.tide.swapLatched with | some h => s.takeSwap h | none => s
  s.applyMrole

/-- QUIET_TICK: in tick 1,022 what the slack-water swells left undelivered is settled and light sources, ring bands and refresh bands change; at the end of tick 1,023 bundle maps
apply, aborts finish, swaps and turns take effect, and an updated supervisor takes over. -/
def execQuietTick (s : State) : Res :=
  if s.atTick [1022] then
    let s := (if s.idle then s else s.settleMakeups.endDoomed.runHrb.settleNotes).settleBeacons.swapSources.stepBands
    .next ((List.range 16).foldl (fun s k => s.wr SHG_STATUS_REFRESH k (s.shg k).bandNext) s)
  else if s.atTick [1023] then
    let go := !s.on TID_STATUS_IDLE_NEXT
    let s := (if go then s.applyMaps else s).endAborts
    .next (if go then s.turnMoment else s).updateHandover
  else .next s

/-- The optical mode changes: each station runs the one that the last beacon it used names (R222). -/
def State.changeOpt (s : State) : State :=
  (s.wr TID_STATUS_OPT_MODE 0 s.tide.optNext).mapStns fun _ x => { x with opt := x.optTo }

/-- IDLE_CYCLE: in an inserted idle cycle the dividers and the optical mode change to what the next active cycle runs; with
a launch latched, OPT_MODE follows (R21). -/
def execIdleCycle (s : State) : Res :=
  if !s.idle then .next s else
  let s := (s.wr TID_STATUS_PWR_MODE 0 s.tide.pwrNext).changeOpt
  .next (match s.tide.swapLatched with
    | some h => if h.req.modes.isSome then s.wr GLB_MODULE_ID_OPT_MODE 0 s.tide.optNext else s
    | none => s)

end Sys2Proof.Machine
end

