-- ==== Sys2Proof/Machine/Boot.lean ====
section
/-! DEFINITION. The release of a module reset, the Boot ROM, identity fuses and capabilities, and power-on self-test
(R254, R418, R433, R479 to R493, R527, R532). -/
namespace Sys2Proof.Machine

/-! ### The Boot ROM (R418) -/

/-- A slot decrypts and verifies: the cryptography's verdict on an image that is there. -/
def State.slotOk (s : State) (a b x : Bool) : Bool := (if x then b else a) && (s.slot x).st != 0
/-- A MOD or POR before a confirmation rejects a pending slot (R524). -/
def State.rejectPending (s : State) : State :=
  let f (x : Slot) : Slot := if x.st = 2 then { x with st := 3 } else x
  (s.onSlot false f).onSlot true f
def State.slotBad (s : State) (x bad : Bool) : State := s.flag (if x then GLB_FWSTAT_B_BAD else GLB_FWSTAT_A_BAD) 0 bad

/-- The supervisor of slot `x` starts on core `c`. -/
def State.startSlot (s : State) (x : Bool) (c : Nat) : State :=
  let y := s.slot x
  let s := ((s.flag GLB_FWSTAT_BOOT_SLOT 0 x).wr GLB_FWSTAT_ACTIVE_SUP 0 c).wr GLB_SUPVER_VERSION 0 y.version
  (s.onFw fun f => { f with sram := memStore f.sram 0 y.image }).onSec fun z => { z with supPlain := y.mplain }

/-- The ROM on a core: the active slot, else the other; `none` when both fail. -/
def State.romBoot (s : State) (a b : Bool) (core : Nat) : State × Option Bool :=
  let x := s.activeSlot
  if s.slotOk a b x then ((s.slotBad x false).startSlot x core, some x)
  else
    let s := s.slotBad x true
    if s.slotOk a b (!x) then (((s.slotBad (!x) false).startSlot (!x) core), some (!x))
    else ((s.slotBad (!x) true).supDead, none)

/-- BOOT entry of a boot from the other slot. -/
def State.bootEntry (s : State) (x : Bool) : State :=
  if x == s.activeSlot then s
  else s.strand 16 (leBytes 1 (if x then 1 else 0) ++ leBytes 1 (s.rd GLB_FWSTAT_A_BAD + 2 * s.rd GLB_FWSTAT_B_BAD))

/-! ### Fuses and capabilities (R487 to R490) -/

def State.fuse (s : State) (n : Nat) : Nat := (rfWord s.regs GLB_FUSE n).toNat
def stepping (f : Nat) : Nat := bitsN f 12 8
def fuseCaps (f : Nat) : Nat := bitsN f 20 8
/-- KIND or POSITION does not match the site. -/
def siteBad (f n : Nat) : Bool := f % 4096 != fuseBody n % 4096
def sumBad (f : Nat) : Bool := bitsN f 56 8 != crc8 (f % 2 ^ 56) 56 0

/-- Headland steppings that a Harbour stepping accepts, and the mixed sets (Table 21-7). -/
def hdlSteps (hrb : Nat) : List Nat := if hrb = 0x30 then [0x21, 0x30] else [0x20, 0x21, 0x30]
def mixes (hrb : Nat) : List (List Nat) :=
  if hrb = 0x11 then [[0x20, 0x21]] else if hrb = 0x20 then [[0x20, 0x21], [0x21, 0x30]] else [[0x21, 0x30]]
/-- First fuse index whose stepping breaks Table 21-7. -/
def State.stepBad (s : State) : Option Nat :=
  let st (n : Nat) : Nat := stepping (s.fuse n)
  let hrb := st 64
  let set := [0x20, 0x21, 0x30].filter fun v => (List.range 24).any fun n => st n == v
  let mixed := decide (1 < set.length)
  let okMix := !mixed || (mixes hrb).contains set
  let bad (n : Nat) : Bool :=
    if n < 24 then !(hdlSteps hrb).contains (st n) || (!okMix && st n != st 0)
    else if n < 48 then !([0x10, 0x11].contains (st n)) || (st (n - 24) == 0x30 && st n != 0x11)
    else if n < 64 then !([0x10, 0x11, 0x20].contains (st n))
    else if n = 64 then !([0x11, 0x20, 0x30].contains hrb)
    else !([0x10, 0x11].contains (st n))
  (List.range 66).find? bad

/-- The fuse check: ERR 1 to 3 with the first fuse index concerned. -/
def State.fuseFault (s : State) (silent : List Nat) : Option (Nat × Nat) :=
  let dies := List.range 66
  match dies.find? fun n => silent.contains n || sumBad (s.fuse n) with
  | some n => some (1, n)
  | none => match dies.find? fun n => siteBad (s.fuse n) n with
    | some n => some (2, n)
    | none => s.stepBad.map fun n => (3, n)

/-- Fuse indices of the dies that carry a capability (Table 21-6). -/
def carriers (b : Nat) : List Nat :=
  if b < 3 then List.range 24 else if b = 3 then List.range 24 ++ (List.range 16).map (48 + ·) ++ [64, 65] else [64]
/-- SPARSE_COVE is withdrawn for a Headland set of B0 with B1, but under Harbour C0. -/
def State.withdrawn (s : State) (b : Nat) : Bool :=
  let has (v : Nat) : Bool := (List.range 24).any fun n => stepping (s.fuse n) == v
  b == 1 && has 0x20 && has 0x21 && stepping (s.fuse 64) != 0x30
/-- Capability `b` is resolved and logged. -/
def State.resolveCap (s : State) (b : Nat) : State :=
  match (carriers b).find? fun n => !(fuseCaps (s.fuse n)).testBit b with
  | some n => (s.wr GLB_CAPLOG_REASON b 1).wr GLB_CAPLOG_DIE b n
  | none =>
    if s.withdrawn b then (s.wr GLB_CAPLOG_REASON b 2).wr GLB_CAPLOG_DIE b 0xFF
    else ((s.wr GLB_CAPLOG_REASON b 0).wr GLB_CAPLOG_DIE b 0xFF).wr GLB_CAPS_ENABLED 0 (setBitsN (s.rd GLB_CAPS_ENABLED) b 1 1)

/-- Step 1: the fuse check and the capabilities. -/
def State.fuseCheck (s : State) (silent : List Nat) : State :=
  let s := match s.fuseFault silent with
    | some (e, n) => (s.wr GLB_POST_ERR 0 e).wr GLB_POST_ERR_STATION 0 n
    | none => s
  (List.range 5).foldl (fun s b => s.resolveCap b) s

/-! ### Lasers (R238, R246, R254) -/

/-- Commissioning of a new cartridge: every line's full-output power becomes its commissioning level, in the flash
commissioning tables and in the record; every source's flags clear and sources 24 and 25 are COLD. -/
def State.commission (s : State) (levels : Nat → List Nat) : State :=
  let serial := s.rd HRN_CART_SERIAL
  let s := allSrcs.foldl (fun s n =>
    let s := (s.wrWord HRN_SRC n 0).wr HRN_SRC_POSITION n (if n < 24 then n else 31)
    (s.setSrc n (if n < 24 then lit else cold)).setSrcH n { Src.reset with levels := levels n }) s
  ((s.wr HRN_CART_COMMISSIONED 0 1).strand 11 (leBytes 4 serial ++ leBytes 1 (s.rd HRN_CART_CART_REV))).onStl fun r => { r with
    cart := serial, levels := smRun (fun _ => []) 0 (allSrcs.map levels) }

/-- A source's lock at self-test: a serving one is LIT or FAILED; a spare is COLD again. -/
def State.lockSource (s : State) (bad : List Nat) (n : Nat) : State :=
  let st := s.srcSt n
  let serving := decide (s.rd HRN_SRC_POSITION n < 24)
  if st = retired then s
  else if st = failedSrc then s
  else if !serving then s.setSrc n (if bad.contains n then failedSrc else cold)
  else s.setSrc n (if bad.contains n then failedSrc else lit)

/-- Measured full-output power of a source's lines. -/
def lineLevels (post : Post) (n : Nat) : List Nat :=
  ((post.levels.filter fun x => x.1.val == n).flatMap (·.2)).map (·.toNat)
/-- Step 2: sources lock, after commissioning when the cartridge is new; a position without light wants a spare. -/
def State.testLasers (s : State) (bad : List Nat) (levels : Nat → List Nat) : State :=
  let s := if s.rd HRN_CART_SERIAL = s.stl.cart then s.wr HRN_CART_COMMISSIONED 0 0 else s.commission levels
  let s := allSrcs.foldl (fun s n => s.lockSource bad n) s
  let dark := (List.range 24).filter fun p => !(allSrcs.any fun n => s.srcSt n == lit && s.rd HRN_SRC_POSITION n == p)
  let s := s.onLight fun l => { l with darkPos := dark }
  if dark.isEmpty then s else s.preheat

/-! ### Memory (R268, R491) -/

/-- Step 3: in POR form every stack has a new key and is zero; HBM is then mapped. -/
def State.testStacks (s : State) (por : Bool) (bad : List Nat) : State :=
  let s := (List.range 16).foldl (fun s k =>
    let s := if por then s.rekey k else s
    (s.wr SHG_STATUS_STATE k (if bad.contains k then 5 else 3)).wr SHG_STATUS_SERVICE k 1) s
  let s := if por then s.onSec fun x => { x with stacksDone := x.wipe.isSome } else s
  s.wr GLB_POST_HBM_READY 0 1

/-! ### Tiles, couplers and waveguides (R79, R80, R180 to R183, R234) -/

/-- Whether the record holds an entry of a type whose body begins with these bytes. -/
def State.hasEntry (s : State) (typ : Nat) (body : List Byte) : Bool :=
  s.stl.entries.any fun e => ((e.2.drop 16).take 1) == leBytes 1 typ && ((e.2.drop 20).take body.length) == body
/-- A SPARE entry for a spare use that the record does not hold yet. -/
def State.newSpare (s : State) (kind station unit : Nat) : State :=
  if s.hasEntry 5 (leBytes 1 kind ++ leBytes 1 station ++ leBytes 2 unit) then s else s.stlSpare kind station unit 0

/-- Units of the quarantine list of some kinds at a station. -/
def State.quarOf (s : State) (kinds : List Nat) (station : Nat) : List Nat :=
  (s.flt.quarList.filter fun e => kinds.contains e.1 && e.2.1 == station).map (·.2.2)
def orBits (ns : List Nat) : Nat := ns.foldl (fun m n => Nat.lor m (2 ^ n)) 0

/-- Step 4 for a row: the failed tiles of BIST and of the quarantine list. -/
def State.testRow (s : State) (tiles : List (Nat × Nat)) (i : Nat) : State :=
  let quar := (s.quarOf [0x01, 0x02, 0x07] (i / 16)).filter fun u => u / 18 == i % 16
  let bits := orBits (((tiles.filter fun x => x.1 == i).map (·.2)) ++ quar.map (· % 18))
  let n := popN 18 bits
  let s := ((s.wr HDL_ROWMAP_FAILED i bits).wr HDL_ROWMAP_SPARES_USED i (min 2 n)).flag HDL_ROWMAP_UNREPAIRED i (decide (2 < n))
  ((List.range 18).filter bits.testBit).foldl (fun s p => s.newSpare 1 (i / 16) (18 * (i % 16) + p)) s

/-- Step 5 for a coupler: the full lane test's failed groups and those quarantined. -/
def State.testCoupler (s : State) (post : Post) (d : Nat) : State :=
  let bad := ((post.lanes.filter fun x => x.1.val == d).map (·.2.val)) ++ s.quarOf [0x30, 0x31] d
  let off := (post.taps.filter fun x => x.1.val == d).foldl (fun m x => smSet (fun _ => 0) m x.2.1.val x.2.2.toNat) []
  let s := s.setCoupler d { s.coupler d with
    failUp := (List.range 544).filter bad.contains, failDn := (List.range 544).filter fun g => bad.contains (1024 + g),
    offset := off }
  (s.centreTaps d).trained d

/-- Failed physical waveguides of a bundle in a mode: those of the patterns and those quarantined. -/
def State.wgFailed (s : State) (post : Post) (calm : Bool) (b : Nat) : Nat :=
  let t := (post.wgs.filter fun x => x.1.val == b && (!calm || x.2.2)).map (·.2.1.val)
  let q := (s.flt.quarList.filter fun e => e.1 == 0x10 && e.2.2 / 16 == b).map (·.2.2 % 16)
  orBits (t ++ q)
/-- Logical positions left without a waveguide. -/
def darkOf (bits : Nat) : List Nat :=
  let data := (List.range 15).filter bits.testBit
  if bits.testBit 15 then data else data.drop 1
/-- Step 7 for a bundle map. -/
def State.mapBundle (s : State) (bits b : Nat) : State :=
  let data := (List.range 15).filter bits.testBit
  let s := s.wr HRN_BMAP_FAILED b bits
  let s := match data with
    | [] => if bits.testBit 15 then s.wr HRN_BMAP_SPARE_USE b 3 else s
    | p :: _ =>
      if bits.testBit 15 then s.wr HRN_BMAP_SPARE_USE b 3
      else ((s.wr HRN_BMAP_SPARE_FOR b p).wr HRN_BMAP_SPARE_USE b 2).newSpare 3 (bundleStation b) (bundleLocal b * 15 + p)
  let dark := darkOf bits
  let s := s.flag HRN_BMAP_DARK b (!dark.isEmpty)
  s.onLight fun l => { l with darkWg := l.darkWg ++ dark.map fun p => (b, p) }

/-- Step 6 and its maps: those that serve Brisk, unless some bundle cannot, else those that serve Calm. Each bundle's
Brisk pattern test is its measurement of R247; a bundle that cannot serve Brisk exceeds it. -/
def State.testWaveguides (s : State) (post : Post) : State :=
  let bs := List.range 131
  let bad := bs.filter fun b => !(darkOf (s.wgFailed post false b)).isEmpty
  let calm := !bad.isEmpty
  let s := bs.foldl (fun s b => let bits := s.wgFailed post calm b; if bits = 0 then s else s.mapBundle bits b) s
  let sym := post.margin.foldl (fun m x => smSet (fun _ => []) m x.1.val [x.2]) []
  (s.onLight fun l => { l with sym := bad.foldl (fun m b => smSet (fun _ => []) m b [(1, 0)]) sym }).countBundles

/-! ### Judgement (R492, R532) -/

/-- First station at fault in Calm: a row without repair, a coupler of width 0, a failed stack, a dark waveguide, or a
dark laser position without a spare. -/
def State.calmFault (s : State) : Option Nat :=
  match (List.range 24).find? fun d => s.rd TPL_STATUS_WIDTH d == 0 || (List.range 16).any fun r => s.on HDL_ROWMAP_UNREPAIRED (d * 16 + r) with
  | some d => some d
  | none => match (List.range 16).find? fun k => s.rd SHG_STATUS_STATE k == 5 with
    | some k => some (0x20 + k)
    | none => if !s.light.darkWg.isEmpty || (!s.light.darkPos.isEmpty && !s.sparesComing) then some 0x30 else none

/-- STATE, ERR and HOLD at the end of self-test. -/
def State.judge (s : State) : State :=
  let s := match s.calmFault with
    | none => s.wr GLB_POST_STATE 0 2
    | some q =>
      let s := s.wr GLB_POST_STATE 0 3
      if s.rd GLB_POST_ERR = 0 then (s.wr GLB_POST_ERR 0 4).wr GLB_POST_ERR_STATION 0 q else s
  s.wr GLB_POST_HOLD 0 (if s.rd GLB_POST_ERR ≠ 0 then 2 else s.rd BWT_TRIP_PENDING)

/-- The grade at self-test. -/
def State.gradeTest (s : State) : State :=
  let g := s.assess
  let old := s.rd GLB_MODULE_ID_GRADE
  let com := s.on HRN_CART_COMMISSIONED
  let why := if com then 3 else 1
  if g = 3 then (if old = 3 then s else (s.wr GLB_MODULE_ID_GRADE 0 3).stlGrade old 3 why 0)
  else if g = 2 then
    if old = 2 || (old = 3 && !com) || s.on GLB_MODULE_ID_GRADE_PENDING then s else (s.wr GLB_MODULE_ID_GRADE_PENDING 0 1).stlGrade old 2 why 1
  else if com || decide (old < g) then
    let t := (s.wr GLB_MODULE_ID_GRADE 0 g).wr GLB_MODULE_ID_GRADE_PENDING 0 0
    if old = g && !s.on GLB_MODULE_ID_GRADE_PENDING then t else t.stlGrade old g why 0
  else s

/-- GLB_POST_RES and DURATION_MS. -/
def State.postResults (s : State) (ms : Nat) : State :=
  let sum (n : Nat) (f : Nat → Nat) : Nat := (List.range n).foldl (fun a i => a + f i) 0
  let s := s.wr GLB_POST_RES_TILES 0 (min 1023 (sum 384 fun i => popN 18 (s.rd HDL_ROWMAP_FAILED i)))
  let s := s.wr GLB_POST_RES_LANEGRP 0 (min 2047 (sum 24 fun d => s.rd TPL_STATUS_SPARES_UP d + s.rd TPL_STATUS_SPARES_DN d))
  let s := s.wr GLB_POST_RES_WG 0 (sum 131 fun b => popN 16 (s.rd HRN_BMAP_FAILED b))
  let s := s.wr GLB_POST_RES_STACKS 0 (sum 16 fun k => if s.rd SHG_STATUS_STATE k = 5 then 1 else 0)
  (s.wr GLB_POST_RES_SOURCES 0 (s.inState failedSrc).length).wr GLB_POST_DURATION_MS 0 (min 65535 ms)
/-- SELFTEST entry. -/
def State.selftestEntry (s : State) : State :=
  let r (f : Fld) : Nat := s.rd f
  s.strand 2 (leBytes 1 (r GLB_POST_STATE) ++ leBytes 1 (r GLB_POST_FORM) ++ leBytes 1 0 ++ leBytes 1 (r HRN_OPTSEL_BRISK_OK)
    ++ leBytes 2 (r GLB_POST_RES_TILES) ++ leBytes 2 (r GLB_POST_RES_LANEGRP) ++ leBytes 2 (r GLB_POST_RES_WG)
    ++ leBytes 1 (r GLB_POST_RES_STACKS) ++ leBytes 1 (r GLB_POST_RES_SOURCES) ++ leBytes 2 (r GLB_POST_DURATION_MS))

/-- Harbour mode: Neap; Brisk when BRISK_OK is 1 and FORCE_CALM 0, else Calm (R248, R493). -/
def State.harbourMode (s : State) : State :=
  let opt := if s.on HRN_OPTSEL_BRISK_OK && !s.on HRN_OPTSEL_FORCE_CALM then 0 else 1
  ((((((s.wr GLB_POST_HARBOUR 0 1).wr TID_STATUS_PWR_MODE 0 1).wr TID_STATUS_OPT_MODE 0 opt).wr GLB_MODULE_ID_OPT_MODE 0 opt).onTide fun t =>
    { t with pwrNext := 1 })).setOpt opt

/-- FACTORY: in a MOD boot, the fuse state and a token that passes every check, TARGET nonzero (R472, R516). -/
def State.factoryToken (s : State) (por : Bool) (token : Option CardFile) : State :=
  match token with
  | none => s
  | some x =>
    if por || !s.on SEC_STATUS_FACTORY_FUSE then s
    else
      let h := x.bytes.take 128
      let k := s.contCheck h x.crypto 4
      (s.wr SEC_UPD_CHECK 0 k).flag FLT_STATUS_FACTORY 0 (k == 0 && fieldAt h 16 8 != 0)

/-- Entries of the boot: torn slots after a POR, the cause of a MOD. -/
def State.bootRecord (s : State) (por : Bool) : State :=
  if por then (s.stl.torn.filter fun q => !s.hasEntry 14 (leBytes 8 q)).foldl (fun s q => s.strand 14 (leBytes 8 q)) s
  else s.strand 12 (leBytes 1 (s.rd GLB_RESET_LAST_CAUSE))

/-- Power-on self-test (Table 21-8), then Harbour mode, the wipe record and the service card. -/
def State.selfTest (s : State) (por : Bool) (post : Post) : State :=
  let s := (s.bootRecord por).fuseCheck (post.silent.map (·.val))
  let s := (s.testLasers (post.srcs.map (·.val)) (lineLevels post)).testStacks por (post.badStacks.map (·.val))
  let tiles := post.tiles.map fun x => (x.1.val, x.2.val)
  let s := (List.range 384).foldl (fun s i => s.testRow tiles i) s
  let s := (List.range 24).foldl (fun s d => s.testCoupler post d) s
  let s := (s.testWaveguides post).judge.updateBrisk
  let s := (s.postResults post.ms).gradeTest.selftestEntry.harbourMode
  let s := (s.factoryToken por post.token).finishWipe
  (s.flag SEC_CARD_PRESENT 0 s.sec.card.isSome).serveCard

/-! ### The commands -/

/-- The supervisor first started after a POR or MOD runs; the other supervisor core stands by, or has failed. -/
def State.firstStart (s : State) (core : Nat) : State :=
  ((s.startCore core).wr GLB_FWCORE_STATE (1 - core) (if core = 1 then coreFailed else coreStandby)).openChans core

/-- MODULE_RESET_RELEASE: PLLs lock, the dividers align, the stations are up, the Boot ROM starts a supervisor from
slot A or B as they verify, and power-on self-test runs in its POR or MOD form. -/
def execModuleResetRelease (a b : Bool) (post : Post) (s : State) : Res :=
  if !s.rst.held ∨ s.rst.powered = false then .next s else
  let por := s.rst.por
  let s := s.onRst fun r => { r with held := false, por := false }
  let s := (((s.wr PWR_CLK_REF_OK 0 1).showLocks.onTide fun t => { t with aligned := true }).flag GLB_POST_FORM 0 (!por)).wr GLB_POST_STATE 0 1
  let core := if post.s0Bad then 1 else 0
  let s := (s.onFw fun f => { f with s0Bad := post.s0Bad }).rejectPending
  let (s, boot) := s.romBoot a b core
  match boot with
  | none => .next (s.wr GLB_POST_STATE 0 0)
  | some x => .next (((s.firstStart core).bootEntry x).selfTest por post)

/-- BOOT_ROM: the ROM boots the supervisor core that Breakwater has reset, or the slot that an update has repaired. A
supervisor started for the first time since a POR or MOD runs self-test; a restarted one rebuilds its state. -/
def execBootRom (a b : Bool) (post : Post) (s : State) : Res :=
  if s.fw.phase ≠ 2 ∨ s.rst.held then .next s else
  let first := s.rd GLB_POST_STATE == 0
  let core := if first then (if s.fw.s0Bad then 1 else 0) else s.supCore
  let (s, boot) := s.romBoot a b core
  match boot with
  | none => .next s
  | some x =>
    if first then
      let s := (((s.onFw fun f => { f with phase := 0 }).wr GLB_POST_ERR 0 0).wr GLB_POST_STATE 0 1).firstStart core
      .next ((s.bootEntry x).selfTest (!s.on GLB_POST_FORM) post)
    else .next ((s.onFw fun f => { f with phase := 3 }).bootEntry x)

end Sys2Proof.Machine
end

