-- ==== Sys2Proof/Machine/Vector.lean ====
section
/-! DEFINITION. The vector slot (R121 to R132). -/
namespace Sys2Proof.Machine

/-- An FP operation of format VR. -/
def vrFp (pt : At) (cause lat : Nat) (rounds : Bool) (o : VR)
    (f : FFmt → FEnv → Nat → Nat → Nat → Nat → Nat × Flags) (s : State) : State :=
  slotOp pt slotVector cause (fun t =>
    vecFp pt o.vd o.pr o.fmt o.rm lat rounds (fun ff env e u =>
      f ff env u (el ff (t.rdV o.va) e) (el ff (t.rdV o.vb) e) (el ff (t.rdV o.vc) e)) t) s

def execVadd (pt : At) (o : VR) (s : State) : Res :=
  .next (vrFp pt (causeVr true true false true o) 4 true o (fun ff env u a b _ => fAdd ff env u a b) s)
def execVsub (pt : At) (o : VR) (s : State) : Res :=
  .next (vrFp pt (causeVr true true false true o) 4 true o (fun ff env u a b _ => fSub ff env u a b) s)
def execVmul (pt : At) (o : VR) (s : State) : Res :=
  .next (vrFp pt (causeVr true true false true o) 4 true o (fun ff env u a b _ => fMul ff env u a b) s)
def execVfma (pt : At) (o : VR) (s : State) : Res :=
  .next (vrFp pt (causeVr true true true true o) 4 true o (fun ff env u a b c => fFma ff env u a b c) s)
def execVmin (pt : At) (o : VR) (s : State) : Res :=
  .next (vrFp pt (causeVr true true false false o) 4 false o (fun ff env _ a b _ => minMaxF ff env.flush false a b) s)
def execVmax (pt : At) (o : VR) (s : State) : Res :=
  .next (vrFp pt (causeVr true true false false o) 4 false o (fun ff env _ a b _ => minMaxF ff env.flush true a b) s)
def execVabs (pt : At) (o : VR) (s : State) : Res :=
  .next (vrFp pt (causeVr true false false false o) 2 false o (fun ff env _ a _ _ => fSign ff env (fun _ => false) a) s)
def execVneg (pt : At) (o : VR) (s : State) : Res :=
  .next (vrFp pt (causeVr true false false false o) 2 false o (fun ff env _ a _ _ => fSign ff env (!·) a) s)
def execVrcp (pt : At) (o : VR) (s : State) : Res :=
  .next (vrFp pt (causeVr true false false true o) 8 true o (fun ff env u a _ _ => fRcp ff env u a) s)
def execVsqrt (pt : At) (o : VR) (s : State) : Res :=
  .next (vrFp pt (causeVr true false false true o) 8 true o (fun ff env u a _ _ => fSqrt ff env u a) s)
def execVrsq (pt : At) (o : VR) (s : State) : Res :=
  .next (vrFp pt (causeVr true false false false o) 8 false o (fun ff env _ a _ _ => fRsq ff env a) s)
def execVexp2 (pt : At) (o : VR) (s : State) : Res :=
  .next (vrFp pt (causeVr true false false false o) 8 false o
    (fun ff env _ a _ _ => fExp2 ff env 0x1B a 0 (readF ff env.flush a, 0)) s)
def execVlog2 (pt : At) (o : VR) (s : State) : Res :=
  .next (vrFp pt (causeVr true false false false o) 8 false o (fun ff env _ a _ _ => fLog2 ff env a) s)
/-- VEXD: 2^(VA − VB) with the difference exact. -/
def execVexd (pt : At) (o : VR) (s : State) : Res :=
  .next (vrFp pt (causeVr true true false false o) 8 false o
    (fun ff env _ a b _ => fExp2 ff env 0x1D a b (addV .rne (readF ff env.flush a) (readF ff env.flush b).neg)) s)

/-- An FP operation of format VS. -/
def vsFp (pt : At) (cause : Nat) (rounds : Bool) (o : VS)
    (f : FFmt → FEnv → Nat → Nat → Nat → Nat → Nat × Flags) (s : State) : State :=
  slotOp pt slotVector cause (fun t =>
    vecFp pt o.vd o.pr o.fmt o.rm 4 rounds (fun ff env e u =>
      f ff env u (el ff (t.rdV o.va) e) (t.bcast ff o.sb) (el ff (t.rdV o.vc) e)) t) s

def execVadds (pt : At) (o : VS) (s : State) : Res :=
  .next (vsFp pt (causeVs true false true o) true o (fun ff env u a b _ => fAdd ff env u a b) s)
def execVmuls (pt : At) (o : VS) (s : State) : Res :=
  .next (vsFp pt (causeVs true false true o) true o (fun ff env u a b _ => fMul ff env u a b) s)
def execVfmas (pt : At) (o : VS) (s : State) : Res :=
  .next (vsFp pt (causeVs true true true o) true o (fun ff env u a b c => fFma ff env u a b c) s)
def execVmaxs (pt : At) (o : VS) (s : State) : Res :=
  .next (vsFp pt (causeVs true false false o) false o (fun ff env _ a b _ => minMaxF ff env.flush true a b) s)

/-- An integer operation of format VR on lanes. -/
def vrInt (pt : At) (o : VR) (f : W32 → W32 → W32) (s : State) : State :=
  slotOp pt slotVector (causeVr false true false false o) (fun t =>
    vecInt pt o.vd o.pr 2 (fun i => f (lane (t.rdV o.va) i) (lane (t.rdV o.vb) i)) t) s

def execViadds (pt : At) (o : VS) (s : State) : Res :=
  .next (slotOp pt slotVector (causeVs false false false o) (fun t =>
    vecInt pt o.vd o.pr 2 (fun i => lane (t.rdV o.va) i + (t.rdS o.sb).setWidth 32) t) s)
def execViadd (pt : At) (o : VR) (s : State) : Res := .next (vrInt pt o (· + ·) s)
def execVisub (pt : At) (o : VR) (s : State) : Res := .next (vrInt pt o (· - ·) s)
def execVimul (pt : At) (o : VR) (s : State) : Res := .next (vrInt pt o (· * ·) s)
def execVand (pt : At) (o : VR) (s : State) : Res := .next (vrInt pt o (· &&& ·) s)
def execVor (pt : At) (o : VR) (s : State) : Res := .next (vrInt pt o (· ||| ·) s)
def execVxor (pt : At) (o : VR) (s : State) : Res := .next (vrInt pt o (· ^^^ ·) s)
def execVshl (pt : At) (o : VR) (s : State) : Res := .next (vrInt pt o (fun a b => a <<< (b.toNat % 32)) s)
def execVshr (pt : At) (o : VR) (s : State) : Res := .next (vrInt pt o (fun a b => a >>> (b.toNat % 32)) s)
def execVsra (pt : At) (o : VR) (s : State) : Res := .next (vrInt pt o (fun a b => a.sshiftRight (b.toNat % 32)) s)
def execVimin (pt : At) (o : VR) (s : State) : Res := .next (vrInt pt o (fun a b => if a.slt b then a else b) s)
def execVimax (pt : At) (o : VR) (s : State) : Res := .next (vrInt pt o (fun a b => if a.slt b then b else a) s)

/-- Predicate register named by the low three bits of a register field. -/
def predOf (r : BitVec 5) : BitVec 3 := r.setWidth 3

def execVsel (pt : At) (o : VR) (s : State) : Res :=
  .next (slotOp pt slotVector (causeVr false true true false o) (fun t =>
    vecInt pt o.vd o.pr 2 (fun i =>
      if (t.rdP (predOf o.vc)).getLsbD i then lane (t.rdV o.va) i else lane (t.rdV o.vb) i) t) s)
def execVperm (pt : At) (o : VR) (s : State) : Res :=
  .next (slotOp pt slotVector (causeVr false true false false o) (fun t =>
    vecInt pt o.vd o.pr 4 (fun i => lane (t.rdV o.va) ((lane (t.rdV o.vb) i).toNat % 64)) t) s)
/-- VCMPR: lanes whose bit in P[VC[2:0]] is set, in ascending order; the rest receive zero (R130). -/
def execVcmpr (pt : At) (o : VR) (s : State) : Res :=
  .next (slotOp pt slotVector (causeVcmpr o) (fun t =>
    let p := t.rdP (predOf o.vc)
    let ls := (List.range 64).filter fun i => p.getLsbD i
    vecInt pt o.vd 0 4 (fun i => match ls[i]? with | some j => lane (t.rdV o.va) j | none => 0) t) s)
def execPcnt (pt : At) (o : VR) (s : State) : Res :=
  .next (slotOp pt slotVector (causePcnt o) (fun t =>
    vecInt pt o.vd o.pr 2 (fun _ => BitVec.ofNat 32 (popN 64 (t.rdP (predOf o.va)).toNat)) t) s)

def execVmovi (pt : At) (o : VI) (s : State) : Res :=
  .next (slotOp pt slotVector (causeVi o) (vecInt pt o.vd o.pr 2 fun _ => o.imm) s)
def execVidx (pt : At) (o : VI) (s : State) : Res :=
  .next (slotOp pt slotVector (causeVi o) (vecInt pt o.vd o.pr 2 fun i => o.imm + BitVec.ofNat 32 i) s)

/-- VCVT (R125): element placement, predication by lane on the wide side. -/
def execVcvt (pt : At) (o : VR) (s : State) : Res :=
  .next (slotOp pt slotVector (causeVcvt o) (fun t =>
    let f := o.fmt.toNat
    let tf := convTf o
    let wf := fmtBits f
    let wt := fmtBits tf
    let wide := max wf wt
    let n := convN o
    let src := if wf < wt then convPt o * n * wf else 0
    let dst := if wt < wf then convPt o * n * wt else 0
    let env := t.env o.rm
    let p := t.rdP o.pr
    let en := fun e => p.getLsbD (laneOf wide e)
    let r := mapElems (t.rnd pt.die.val pt.tile.val) (convRounds f tf && env.md == .sr) en
      (fun e u => convElem f tf env u (bitsN (t.rdV o.va).toNat (src + wf * e) wf)) (List.range n) 0
    let mask := BitVec.ofNat 2048 (packN wt ((List.range n).map fun e => if en e then 2 ^ wt - 1 else 0) * 2 ^ dst)
    let val := BitVec.ofNat 2048 (packN wt r.1 * 2 ^ dst)
    ((t.post pt.cyc 3 slotVector (.v o.vd mask val)).postFlags pt.cyc 3 slotVector r.2.1).drew r.2.2) s)

/-- One MX block: scale byte, element codes, flags, generator values consumed (R45). -/
def mxBlock (rnd : Nat → Nat) (ff tf : FFmt) (env : FEnv) (codes : List Nat) (k : Nat) :
    Nat × List Nat × Flags × Nat :=
  match mxScale ff tf env.flush codes with
  | none => (255, codes.map fun _ => 0, fNV, k)
  | some x =>
    let r := mapElems rnd (env.md == .sr) (fun _ => true) (fun e u =>
      match readF ff env.flush (codes.getD e 0) with
      | .fin sg m y => roundF tf env.md u true false sg m (y - ((x : Int) - 127)) false
      | _ => (0, 0)) (List.range codes.length) k
    (x, r.1, r.2.1, r.2.2)

def mxBlocks (rnd : Nat → Nat) (ff tf : FFmt) (env : FEnv) : List (List Nat) → Nat → List Nat × List Nat × Flags × Nat
  | [], k => ([], [], 0, k)
  | b :: bs, k =>
    let r := mxBlock rnd ff tf env b k
    let q := mxBlocks rnd ff tf env bs r.2.2.2
    (r.1 :: q.1, r.2.1 ++ q.2.1, r.2.2.1 ||| q.2.2.1, q.2.2.2)

/-- VCVTX (R126): every block's elements into VD at PT, its scale byte into VC. -/
def execVcvtx (pt : At) (o : VR) (s : State) : Res :=
  .next (slotOp pt slotVector (causeVcvtx o) (fun t =>
    let f := o.fmt.toNat
    let ff := (fmtOf f).getD fp32
    let tff := (fmtOf (convTf o)).getD e4m3
    let n := convN o
    let wt := tff.width
    let dst := convPt o * n * wt
    let env := t.env o.rm
    let codes := (List.range n).map fun e => el ff (t.rdV o.va) e
    let blocks := (List.range (n / 32)).map fun b => (codes.drop (32 * b)).take 32
    let r := mxBlocks (t.rnd pt.die.val pt.tile.val) ff tff env blocks 0
    let sb := 8 * (convPt o * n / 32)
    let ones := fun w => 2 ^ w - 1
    let md := BitVec.ofNat 2048 (ones (n * wt) * 2 ^ dst)
    let ms := BitVec.ofNat 2048 (ones (n / 4) * 2 ^ sb)
    let scale := BitVec.ofNat 2048 (packN 8 r.1 * 2 ^ sb)
    let t := t.post pt.cyc 3 slotVector (.v o.vd md (BitVec.ofNat 2048 (packN wt r.2.1 * 2 ^ dst)))
    let t := t.post pt.cyc 3 slotVector
      (.v o.vc ms (if o.vd = o.vc then (scale &&& ~~~md) ||| (BitVec.ofNat 2048 (Config.freeTile t.key t.free 0) &&& md) else scale))
    let t := { t with free := t.free + 1 }
    (t.postFlags pt.cyc 3 slotVector r.2.2.1).drew r.2.2.2) s)

/-- One level of the sum tree; an absent child passes the other's value unchanged (R127). -/
def sumLevel (ff : FFmt) (env : FEnv) : List (Option Nat) → List (Option Nat) × Flags
  | [] => ([], 0)
  | [a] => ([a], 0)
  | a :: b :: r =>
    let q := sumLevel ff env r
    match a, b with
    | some x, some y => let z := fAdd ff env 0 x y; (some z.1 :: q.1, z.2 ||| q.2)
    | some x, none => (some x :: q.1, q.2)
    | none, y => (y :: q.1, q.2)

def sumTree (ff : FFmt) (env : FEnv) : Nat → List (Option Nat) → Flags → Option Nat × Flags
  | 0, l, f => (l.headD none, f)
  | n + 1, l, f => let q := sumLevel ff env l; sumTree ff env n q.1 (f ||| q.2)

/-- An element as the vector unit reads it: any NaN is the canonical one, subnormals are zero under flush (R40, R46). -/
def readCode (ff : FFmt) (flush : Bool) (c : Nat) : Nat := if (decodeF ff c).isNan then nanCode ff else flushCode ff flush c

/-- Give every enabled element one value, if any element is enabled. -/
def spreadElem (pt : At) (vd : BitVec 5) (p : W64) (w : Nat) (v : Option Nat) (f : Flags) (t : Tile) : Tile :=
  match v with
  | none => t
  | some x =>
    (t.postLanes pt 6 vd p (packN w (List.replicate (2048 / w) x))).postFlags pt.cyc 6 slotVector f

def execVrsum (pt : At) (o : VR) (s : State) : Res :=
  .next (slotOp pt slotVector (causeVrsum o) (fun t =>
    let ff := (fmtOf o.fmt.toNat).getD fp32
    let e0 := t.env o.rm
    let env : FEnv := { e0 with md := if e0.md = .sr then .rne else e0.md }
    let p := t.rdP o.pr
    let n := 2048 / ff.width
    let on := fun e => p.getLsbD (laneOf ff.width e)
    let fl := sigFlag (((List.range n).filter on).map fun e => decodeF ff (el ff (t.rdV o.va) e))
    let leaves := (List.range n).map fun e => if on e then some (readCode ff env.flush (el ff (t.rdV o.va) e)) else none
    let r := sumTree ff env 7 leaves fl
    spreadElem pt o.vd p ff.width r.1 r.2 t) s)

/-- The best enabled element so far: index and code (R128). -/
def bestElem (ff : FFmt) (flush isMax : Bool) (v : VReg) (p : W64) : List Nat → Option (Nat × Nat) → Option (Nat × Nat)
  | [], b => b
  | e :: es, b =>
    if p.getLsbD (laneOf ff.width e) then
      let c := el ff v e
      if (decodeF ff c).isNan then bestElem ff flush isMax v p es b
      else
        let c := flushCode ff flush c
        let better := match b with
          | none => true
          | some (_, d) => if isMax then decide (fkeyZ ff d < fkeyZ ff c) else decide (fkeyZ ff c < fkeyZ ff d)
        bestElem ff flush isMax v p es (if better then some (e, c) else b)
    else bestElem ff flush isMax v p es b

/-- VRMAX and VRMIN (R128). -/
def vecBest (pt : At) (isMax : Bool) (o : VR) (s : State) : State :=
  slotOp pt slotVector (causeVrmax o) (fun t =>
    let ff := (fmtOf o.fmt.toNat).getD fp32
    let p := t.rdP o.pr
    let es := List.range (2048 / ff.width)
    let on := es.filter fun e => p.getLsbD (laneOf ff.width e)
    let fl := sigFlag (on.map fun e => decodeF ff (el ff (t.rdV o.va) e))
    let b := bestElem ff t.flushOn isMax (t.rdV o.va) p es none
    if on.isEmpty then t
    else if o.mod.toNat % 2 = 0 then
      spreadElem pt o.vd p ff.width (some (match b with | some x => x.2 | none => nanCode ff)) fl t
    else spreadElem pt o.vd p 32 (some (match b with | some x => x.1 | none => 0xFFFFFFFF)) fl t) s

def execVrmax (pt : At) (o : VR) (s : State) : Res := .next (vecBest pt true o s)
def execVrmin (pt : At) (o : VR) (s : State) : Res := .next (vecBest pt false o s)

/-- Rank of a key: NaN below every number, −0 equal to +0 (R129). -/
def bmrgRank (flush : Bool) (c : Nat) : Int :=
  if (decodeF fp32 c).isNan then -(2 ^ 40) else fkeyZ fp32 (flushCode fp32 flush c)

/-- One compare-exchange step: the lane each lane takes its key and payload from. -/
def bmrgSource (flush : Bool) (v : VReg) (d s i : Nat) : Nat :=
  let lo := if i / d % 2 = 0 then i else i - d
  let hi := lo + d
  let a := bmrgRank flush (lane v lo).toNat
  let b := bmrgRank flush (lane v hi).toNat
  let swap := if lo / 2 ^ s % 2 = 0 then decide (a < b) else decide (b < a)
  if swap then (if i = lo then hi else lo) else i

def execVbmrg (pt : At) (o : VR) (s : State) : Res :=
  .next (slotOp pt slotVector (causeVbmrg o) (fun t =>
    let d := 2 ^ (o.mod.toNat % 8)
    let st := o.mod.toNat / 8 % 8
    let ks := t.rdV o.va
    let ps := t.rdV o.vb
    let src := bmrgSource t.flushOn ks d st
    let fl := sigFlag ((List.range 64).map fun i => decodeF fp32 (lane ks i).toNat)
    ((vecInt pt o.vd 0 4 (fun i => lane ks (src i)) (vecInt pt o.vc 0 4 (fun i => lane ps (src i)) t)).postFlags
      pt.cyc 4 slotVector fl)) s)

/-- A comparison of two FP32 lanes: result and NV (R131). -/
def cmpF (flush : Bool) (cond a b : Nat) : Bool × Bool :=
  let va := decodeF fp32 a
  let vb := decodeF fp32 b
  if va.isNan || vb.isNan then
    (cond == 1 || cond == 6, va.isSig || vb.isSig || (decide (2 ≤ cond) && decide (cond ≤ 5)))
  else
    let x := fkeyZ fp32 (flushCode fp32 flush a)
    let y := fkeyZ fp32 (flushCode fp32 flush b)
    (match cond with
      | 0 => decide (x = y) | 1 => decide (x ≠ y) | 2 => decide (x < y) | 3 => decide (x ≤ y)
      | 4 => decide (y < x) | 5 => decide (y ≤ x) | _ => false, false)
/-- A comparison of two signed integer lanes. -/
def cmpI (cond : Nat) (a b : W32) : Bool :=
  match cond with
  | 0 => decide (a = b) | 1 => decide (a ≠ b) | 2 => a.slt b | 3 => !b.slt a | 4 => b.slt a | 5 => !a.slt b
  | _ => false

def execVcmp (pt : At) (o : VP) (s : State) : Res :=
  .next (slotOp pt slotVector (causeVcmp o) (fun t =>
    let p := t.rdP o.pr
    let cond := o.mod.toNat % 8
    let isInt := o.mod.toNat / 8 % 2 == 1
    let a := t.rdV o.va
    let b := t.rdV o.vb
    let r := fun i => if isInt then (cmpI cond (lane a i) (lane b i), false)
      else cmpF t.flushOn cond (lane a i).toNat (lane b i).toNat
    let bits := packN 1 ((List.range 64).map fun i => if (r i).1 then 1 else 0)
    let nv := (List.range 64).any fun i => p.getLsbD i && (r i).2
    (t.post pt.cyc 2 slotVector (.p o.pd p (BitVec.ofNat 64 bits))).postFlags pt.cyc 2 slotVector (if nv then fNV else 0)) s)

/-- Predicate logic: all 64 bits of PD. -/
def predOp (pt : At) (o : VP) (f : W64 → W64 → W64) (s : State) : State :=
  slotOp pt slotVector (causePlogic o) (fun t =>
    t.post pt.cyc 2 slotVector (.p o.pd (BitVec.allOnes 64) (f (t.rdP (predOf o.va)) (t.rdP (predOf o.vb))))) s

def execPand (pt : At) (o : VP) (s : State) : Res := .next (predOp pt o (· &&& ·) s)
def execPor (pt : At) (o : VP) (s : State) : Res := .next (predOp pt o (· ||| ·) s)
def execPxor (pt : At) (o : VP) (s : State) : Res := .next (predOp pt o (· ^^^ ·) s)

/-- The R90 address of a VM operation: S[SA] + OFF × 32 with bits [4:0] ignored, modulo 2^64. -/
def vmAddr (t : Tile) (o : VM) : Nat := align32 (t.rdS o.sa + o.off.signExtend 64 * 32).toNat

/-- Whether the engine may hold a bank of a 256 B access in a cycle (R71): a bank holding an operand byte of an
executing or pending operation. -/
def Tile.mayHold (t : Tile) (c a : Nat) : Bool :=
  t.mats.any fun m => decide (c < m.first + m.cycles) && (List.range 8).any fun i => m.readsBank ((a / 32 + i) % 32)
def Held.isVec : Held → Bool | .cbld _ _ _ => false | _ => true

/-- Perform a vector access now, or hold it: behind an access already held, while the port still serves one, or when
the engine may hold one of its banks. An access outside the tile store reads no bank. -/
def Tile.vecAccess (t : Tile) (c a : Nat) (h : Held) : Tile :=
  if t.delayed.any Held.isVec || decide (c < t.portFree) || (decide (a < storeSize) && t.mayHold c a) then
    { t with delayed := t.delayed ++ [h] }
  else t.perform c h

/-- VLD: an address with any of bits [63:20] set delivers zeros and reports ADDR_FAULT (R69), in its turn behind the
accesses held before it (R71). -/
def execVld (pt : At) (o : VM) (s : State) : Res :=
  .next (slotOp pt slotVector 0 (fun t =>
    let a := vmAddr t o
    let p := t.rdP o.pr
    (if storeSize ≤ a then t.report 0x04 a else t).vecAccess pt.cyc a (.vld pt.cyc a o.vd p)) s)
/-- VST: such a store is suppressed and reported. -/
def execVst (pt : At) (o : VM) (s : State) : Res :=
  .next (slotOp pt slotVector 0 (fun t =>
    let a := vmAddr t o
    if storeSize ≤ a then t.report 0x04 a
    else t.vecAccess pt.cyc a (.vst pt.cyc a (t.rdP o.pr) (t.rdV o.vd))) s)

/-- DELAYED_VECTOR_ACCESS: the oldest held vector access is performed in this cycle, if it has been issued and the
port is free: vector accesses complete in issue order, one in a cycle (R71). -/
def performFirst (c : Nat) (t : Tile) : Tile :=
  match t.delayed.find? Held.isVec with
  | none => t
  | some h =>
    if h.cyc ≤ c && t.portFree ≤ c then { t with delayed := t.delayed.eraseP Held.isVec }.perform c h else t

def execDelayedVectorAccess (pt : At) (s : State) : Res := .next (s.onTile pt (performFirst pt.cyc))

end Sys2Proof.Machine
end

