-- ==== Sys2Proof/Machine/Matrix.lean ====
section
/-! DEFINITION. The matrix slot (R107 to R120) and the matrix engine's events. -/
namespace Sys2Proof.Machine

/-- Engine cycles of an operation (R112). -/
def engineCycles (wf xf : BitVec 4) (spr : Bool) (nch : Nat) : Nat :=
  if nch = 0 then 1 else nch * chunkCycles wf xf spr

/-- Last engine cycle of the operations issued so far, plus one. -/
def Tile.engineFree (t : Tile) : Nat := t.mats.foldl (fun g m => max g (m.first + m.cycles)) 0

/-- Accumulators an MA or MR operation names (R61). -/
def namedAcc (ad : BitVec 2) (cmp : Bool) : List Nat := if cmp then [ad.toNat, ad.toNat + 1] else [ad.toNat]

/-- Stall of an MA operation. -/
def Tile.maStall (t : Tile) (c : Nat) (o : MA) : Bool :=
  t.matStall c (namedAcc o.ad o.cmp) (if o.acc then some o.ad.toNat else none)

/-- An MMA or MMAR enters the pending position, its registers read at issue (R92, R112). -/
def issueMat (rowW : Bool) (pt : At) (o : MA) (t : Tile) : Tile :=
  if t.maStall pt.cyc o then t else
  let sk := t.rdS o.sk
  let m : MatOp :=
    { rowW := rowW, o := o, sx := t.rdS o.sx, sw := t.rdS o.sw, sk := sk, sm := t.rdS o.sm, issue := pt.cyc,
      first := max (pt.cyc + 8) t.engineFree, cycles := engineCycles o.wf o.xf o.spr (sk.toNat % 1024),
      started := false, latched := [], hazOld := [], hazEnd := [] }
  { t with mats := t.mats ++ [m] }

def execMma (pt : At) (o : MA) (s : State) : Res :=
  .next (slotOp pt slotMatrix (causeMa s.caps false o) (issueMat false pt o) s)
def execMmar (pt : At) (o : MA) (s : State) : Res :=
  .next (slotOp pt slotMatrix (causeMa s.caps true o) (issueMat true pt o) s)

/-- MATRIX_ENGINE_START: the operation whose first engine cycle is reached takes the executing
position and latches its first codebook (R112, R116). -/
def execMatrixEngineStart (pt : At) (s : State) : Res :=
  .next (s.onTile pt fun t =>
    (t.latchUpTo pt.cyc).startMat (pt.cyc + 1))

/-- MATRIX_ENGINE_DONE: operations whose cycle F + N + 12 is reached retire: accumulators and flags are
written, busy bits are clear in the next cycle (R113). -/
def execMatrixEngineDone (pt : At) (s : State) : Res :=
  .next (s.onTile pt fun t => t.engine (pt.cyc + 1))

/-- One element as MRD reads it: rne(a + c) when compensated (R118). -/
def mrdElem (t : Tile) (o : MR) (idx : Nat) : Nat × Flags :=
  let a := (t.rdA (o.ad.toNat * 1024 + idx)).toNat
  if o.cmp then addRne a (decodeF fp32 (t.rdA ((o.ad.toNat + 1) % 4 * 1024 + idx)).toNat) else (a, 0)

def mrdRead (pt : At) (o : MR) (t : Tile) : Tile :=
  if t.matStall pt.cyc (namedAcc o.ad o.cmp) none then t else
  let e0 := t.env o.rm
  let env : FEnv := ⟨e0.md, e0.sat, false⟩
  if o.tf = 0 then
    let r := (List.range 64).map fun i =>
      let (v, f) := mrdElem t o (64 * o.rp.toNat + i)
      match decodeF fp32 v with
      | .nan sig => (nanCode fp32, if sig then f ||| fNV else f)
      | _ => (v, f)
    (t.post pt.cyc 6 slotMatrix (.v o.vd (BitVec.allOnes 2048) (BitVec.ofNat 2048 (packN 32 (r.map (·.1)))))).postFlags
      pt.cyc 6 slotMatrix (r.foldl (fun f e => f ||| e.2) 0)
  else
    let tf := (fmtOf o.tf.toNat).getD bf16
    let r := mapElems (t.rnd pt.die.val pt.tile.val) (env.md == .sr) (fun _ => true) (fun e u =>
      let (v, f) := mrdElem t o (128 * o.rp.toNat + e)
      let d := deliver tf env u (decodeF fp32 v)
      (d.1, f ||| d.2)) (List.range 128) 0
    ((t.post pt.cyc 6 slotMatrix (.v o.vd (BitVec.allOnes 2048) (BitVec.ofNat 2048 (packN 16 r.1)))).postFlags
      pt.cyc 6 slotMatrix r.2.1).drew r.2.2

def execMrd (pt : At) (o : MR) (s : State) : Res :=
  .next (slotOp pt slotMatrix (causeMrd s.caps o) (mrdRead pt o) s)

/-- Write accumulator elements with latency `l`, the busy bit held meanwhile (R119). -/
def accWrite (pt : At) (l : Nat) (ad : BitVec 2) (base : Nat) (vals : List W32) (t : Tile) : Tile :=
  if t.matStall pt.cyc [ad.toNat] none then t else
  let t := t.post pt.cyc l slotMatrix (.acc (ad.toNat * 1024 + base) vals)
  { t with held := t.held ++ [(ad.toNat, pt.cyc + l)] }

def execMwr (pt : At) (o : MR) (s : State) : Res :=
  .next (slotOp pt slotMatrix (causeMwr o) (fun t =>
    accWrite pt 4 o.ad (64 * o.rp.toNat) ((List.range 64).map fun i => lane (t.rdV o.vd) i) t) s)
def execMset (pt : At) (o : MB) (s : State) : Res :=
  .next (slotOp pt slotMatrix 0 (fun t =>
    accWrite pt 2 o.ad 0 (List.replicate 1024 ((t.rdS o.sa).setWidth 32)) t) s)

/-- The engine may read a bank in a cycle of its executing operation (R111). -/
def Tile.cbldHeld (t : Tile) (c a : Nat) : Bool :=
  match t.executing c with
  | some m => m.readsBank (a / 32 % 32)
  | none => false

/-- CBLD (R117): no busy bit, but the pending interlock; an address with any of bits [63:20] set gives
NaN entries and reports ADDR_FAULT. -/
def execCbld (pt : At) (o : MB) (s : State) : Res :=
  .next (slotOp pt slotMatrix 0 (fun t =>
    if t.pendingFull pt.cyc then t else
    let a := align32 (t.rdS o.sa).toNat
    if storeSize ≤ a then
      (t.post pt.cyc 5 slotMatrix (.b o.ad (BitVec.ofNat 256 (packN 16 (List.replicate 16 0x7FC0))))).report 0x04 a
    else
      let h := Held.cbld pt.cyc a o.ad
      if t.cbldHeld pt.cyc a then { t with delayed := t.delayed ++ [h] } else t.perform pt.cyc h) s)

/-- A held CBLD reads in cycle `c`: the first whose bank the engine leaves free, which one being open among those held,
since the banks read in a cycle are not architectural (R71, R111). -/
def cbldRead (c : Nat) (t : Tile) : Tile :=
  let hs := t.delayed.filter fun h => !h.isVec && decide (h.cyc ≤ c)
  match hs[Config.freeTile t.key t.free 0 % hs.length]? with
  | none => t
  | some h => { t with delayed := t.delayed.eraseP (· == h), free := t.free + 1 }.perform c h

/-- CBLD_DELAYED_READ: a held CBLD reads in this cycle. -/
def execCbldDelayedRead (pt : At) (s : State) : Res := .next (s.onTile pt (cbldRead pt.cyc))

/-- RESULT_WRITE: every result whose latency expires in this cycle is written at its end (R55). -/
def execResultWrite (pt : At) (s : State) : Res :=
  .next (s.onTile pt fun t => t.applyBefore (pt.cyc + 1))

end Sys2Proof.Machine
end

