-- ==== Sys2Proof/Machine/MoveOps.lean ====
section
/-! DEFINITION. The move slot (Table 6-2) and the start of a queued move command (R74). -/
namespace Sys2Proof.Machine

/-- The move engine starts a command of its kind. -/
def startMove (pt : At) (m : MoveCmd) (s : State) : State :=
  match m.kind with
  | .tpld => startTpld pt m s
  | .tpst => startTpst pt m s
  | .msend => startMsend pt m s
  | .otxa => startOtxa pt m s
  | .orxa => startOrxa pt m s
  | .hbrd => startHbrd pt m s
  | .hbwr => startHbwr pt m s
  | .ibld => startIbld pt m s
  | .kvapp => startKv 1 pt m s
  | .kvgth => startKv 2 pt m s
  | .kvbws => startKv 3 pt m s
  | .note => startNote pt m s
  | .fld => startFabric pLD pt m s
  | .fst => startFabric pST pt m s
  | .fatm => startFabric pATOM pt m s

/-- A command that a Tidepool must answer waits while it answers no access (R173). -/
def State.poolWait (s : State) (d : Nat) (m : MoveCmd) : Bool := (m.kind == .tpld || m.kind == .tpst) && !s.poolUp d
/-- The engine takes the oldest queued command, at most one in a cycle. -/
def startFront (pt : At) (s : State) : State :=
  let t := (s.tile (tileKey pt.die pt.tile)).settle pt.cyc
  match t.queue with
  | [] => s
  | m :: ms =>
    if pt.cyc ≤ t.lastStart || s.poolWait pt.die.val m then s
    else startMove pt m (s.putTile pt.die.val pt.tile.val { t with queue := ms, lastStart := pt.cyc })

/-- MOVE_COMMAND_START: commands start in issue order, at most one per cycle (R74). -/
def execMoveCommandStart (pt : At) (s : State) : Res := .next (startFront pt s)

/-- A move-slot operation given on its own: it enters the queue and, with nothing queued before it and the
engine free in the next cycle, starts there (Table 6-4); otherwise MOVE_COMMAND_START starts it (log 46). -/
def moveOp (pt : At) (cause : Nat) (kind : MvKind) (o : MV) (s : State) : State :=
  let t := (s.tile (tileKey pt.die pt.tile)).settle pt.cyc
  let s := slotOp pt slotMove cause (issueMove pt kind o) s
  if cause = 0 ∧ t.queue.isEmpty then startFront { pt with cyc := pt.cyc + 1 } s else s

def execTpld (pt : At) (o : MV) (s : State) : Res := .next (moveOp pt (causeTp o) .tpld o s)
def execTpst (pt : At) (o : MV) (s : State) : Res := .next (moveOp pt (causeTp o) .tpst o s)
def execMsend (pt : At) (o : MV) (s : State) : Res := .next (moveOp pt (causeMsend o) .msend o s)
def execOtxa (pt : At) (o : MV) (s : State) : Res := .next (moveOp pt (causeArm o) .otxa o s)
def execOrxa (pt : At) (o : MV) (s : State) : Res := .next (moveOp pt (causeArm o) .orxa o s)
def execHbrd (pt : At) (o : MV) (s : State) : Res := .next (moveOp pt (causePlainMv o) .hbrd o s)
def execHbwr (pt : At) (o : MV) (s : State) : Res := .next (moveOp pt (causePlainMv o) .hbwr o s)
def execIbld (pt : At) (o : MV) (s : State) : Res := .next (moveOp pt (causePlainMv o) .ibld o s)
def execKvapp (pt : At) (o : MV) (s : State) : Res := .next (moveOp pt (causeKv o) .kvapp o s)
def execKvgth (pt : At) (o : MV) (s : State) : Res := .next (moveOp pt (causeKv o) .kvgth o s)
def execKvbws (pt : At) (o : MV) (s : State) : Res := .next (moveOp pt (causeKvbws o) .kvbws o s)
def execNote (pt : At) (o : MV) (s : State) : Res := .next (moveOp pt (causeNote o) .note o s)
def execFld (pt : At) (o : MV) (s : State) : Res := .next (moveOp pt (causeFl o) .fld o s)
def execFst (pt : At) (o : MV) (s : State) : Res := .next (moveOp pt (causeFl o) .fst o s)
def execFatm (pt : At) (o : MV) (s : State) : Res := .next (moveOp pt (causeFatm o) .fatm o s)

end Sys2Proof.Machine
end

