-- ==== Sys2Proof/Machine/Scalar.lean ====
section
/-! DEFINITION. The scalar slot (R57, R133 to R135). -/
namespace Sys2Proof.Machine

/-- A two-source scalar operation of latency `l`. -/
def scalarSR (pt : At) (l : Nat) (f : W64 → W64 → W64) (o : SR) (s : State) : State :=
  slotOp pt slotScalar 0 (fun t => t.postS pt l o.sd (f (t.rdS o.sa) (t.rdS o.sb))) s
/-- A scalar operation with a 30-bit immediate. -/
def scalarSI (pt : At) (cause : Nat) (f : W64 → W64 → W64) (o : SI) (s : State) : State :=
  slotOp pt slotScalar cause (fun t => t.postS pt 1 o.sd (f (t.rdS o.sa) (immS o))) s

def boolW (b : Bool) : W64 := if b then 1 else 0

/-- Signed quotient toward zero; all ones for a zero divisor; −2^63 ÷ −1 wraps (R57, R134). -/
def divS (a b : W64) : W64 := if b = 0 then BitVec.allOnes 64 else BitVec.ofInt 64 (a.toInt.tdiv b.toInt)
def divU (a b : W64) : W64 := if b = 0 then BitVec.allOnes 64 else BitVec.ofNat 64 (a.toNat / b.toNat)
def remS (a b : W64) : W64 := if b = 0 then a else BitVec.ofInt 64 (a.toInt.tmod b.toInt)
def remU (a b : W64) : W64 := if b = 0 then a else BitVec.ofNat 64 (a.toNat % b.toNat)

def execAdd (pt : At) (o : SR) (s : State) : Res := .next (scalarSR pt 1 (· + ·) o s)
def execSub (pt : At) (o : SR) (s : State) : Res := .next (scalarSR pt 1 (· - ·) o s)
def execAnd (pt : At) (o : SR) (s : State) : Res := .next (scalarSR pt 1 (· &&& ·) o s)
def execOr (pt : At) (o : SR) (s : State) : Res := .next (scalarSR pt 1 (· ||| ·) o s)
def execXor (pt : At) (o : SR) (s : State) : Res := .next (scalarSR pt 1 (· ^^^ ·) o s)
def execSll (pt : At) (o : SR) (s : State) : Res := .next (scalarSR pt 1 (fun a b => a <<< (b.toNat % 64)) o s)
def execSrl (pt : At) (o : SR) (s : State) : Res := .next (scalarSR pt 1 (fun a b => a >>> (b.toNat % 64)) o s)
def execSra (pt : At) (o : SR) (s : State) : Res := .next (scalarSR pt 1 (fun a b => a.sshiftRight (b.toNat % 64)) o s)
def execSlt (pt : At) (o : SR) (s : State) : Res := .next (scalarSR pt 1 (fun a b => boolW (a.slt b)) o s)
def execSltu (pt : At) (o : SR) (s : State) : Res := .next (scalarSR pt 1 (fun a b => boolW (a.ult b)) o s)
def execMin (pt : At) (o : SR) (s : State) : Res := .next (scalarSR pt 1 (fun a b => if a.slt b then a else b) o s)
def execMax (pt : At) (o : SR) (s : State) : Res := .next (scalarSR pt 1 (fun a b => if a.slt b then b else a) o s)
def execMinu (pt : At) (o : SR) (s : State) : Res := .next (scalarSR pt 1 (fun a b => if a.ult b then a else b) o s)
def execMaxu (pt : At) (o : SR) (s : State) : Res := .next (scalarSR pt 1 (fun a b => if a.ult b then b else a) o s)
def execMul (pt : At) (o : SR) (s : State) : Res := .next (scalarSR pt 3 (· * ·) o s)
def execMulh (pt : At) (o : SR) (s : State) : Res :=
  .next (scalarSR pt 3 (fun a b => BitVec.ofInt 64 (a.toInt * b.toInt / 2 ^ 64)) o s)
def execMulhu (pt : At) (o : SR) (s : State) : Res :=
  .next (scalarSR pt 3 (fun a b => BitVec.ofNat 64 (a.toNat * b.toNat / 2 ^ 64)) o s)
def execDiv (pt : At) (o : SR) (s : State) : Res := .next (scalarSR pt 20 divS o s)
def execDivu (pt : At) (o : SR) (s : State) : Res := .next (scalarSR pt 20 divU o s)
def execRem (pt : At) (o : SR) (s : State) : Res := .next (scalarSR pt 20 remS o s)
def execRemu (pt : At) (o : SR) (s : State) : Res := .next (scalarSR pt 20 remU o s)
/-- LANE: lane S[SB][5:0] of V[SA], zero-extended; V[SA] is read in the issue cycle. -/
def execLane (pt : At) (o : SR) (s : State) : Res :=
  .next (slotOp pt slotScalar 0 (fun t =>
    t.postS pt 2 o.sd ((lane (t.rdV o.sa) ((t.rdS o.sb).toNat % 64)).setWidth 64)) s)

def execAddi (pt : At) (o : SI) (s : State) : Res := .next (scalarSI pt 0 (· + ·) o s)
def execAndi (pt : At) (o : SI) (s : State) : Res := .next (scalarSI pt 0 (· &&& ·) o s)
def execOri (pt : At) (o : SI) (s : State) : Res := .next (scalarSI pt 0 (· ||| ·) o s)
def execXori (pt : At) (o : SI) (s : State) : Res := .next (scalarSI pt 0 (· ^^^ ·) o s)
/-- SLLI, SRLI, SRAI: IMM30 bits [29:6] must be zero, else a bundle fault with cause 0x3. -/
def execSlli (pt : At) (o : SI) (s : State) : Res :=
  .next (scalarSI pt (causeShiftImm o) (fun a b => a <<< (b.toNat % 64)) o s)
def execSrli (pt : At) (o : SI) (s : State) : Res :=
  .next (scalarSI pt (causeShiftImm o) (fun a b => a >>> (b.toNat % 64)) o s)
def execSrai (pt : At) (o : SI) (s : State) : Res :=
  .next (scalarSI pt (causeShiftImm o) (fun a b => a.sshiftRight (b.toNat % 64)) o s)
def execSlti (pt : At) (o : SI) (s : State) : Res := .next (scalarSI pt 0 (fun a b => boolW (a.slt b)) o s)
def execSltiu (pt : At) (o : SI) (s : State) : Res := .next (scalarSI pt 0 (fun a b => boolW (a.ult b)) o s)
def execLi (pt : At) (o : SL) (s : State) : Res :=
  .next (slotOp pt slotScalar 0 (fun t => t.postS pt 1 o.sd (o.imm.signExtend 64)) s)
/-- LIH keeps SD[31:0], reading its own destination in the issue cycle (R134). -/
def execLih (pt : At) (o : SL) (s : State) : Res :=
  .next (slotOp pt slotScalar 0 (fun t => t.postS pt 1 o.sd (o.imm ++ (t.rdS o.sd).setWidth 32)) s)

/-- TCTL as read, with its read-only TILE and STATION fields (Table 3-3). -/
def tctlRead (t : Tile) (pt : At) : W64 :=
  t.tctl ||| BitVec.ofNat 64 (pt.tile.val * 2 ^ 48 + pt.die.val * 2 ^ 56)

/-- Value of a control register as CRR returns it (R135); `tick` is the region tide counter. -/
def crRead (t : Tile) (pt : At) (tick : Nat) (cr : BitVec 5) : W64 :=
  if cr = 0 then tctlRead t pt
  else if cr = 1 then t.tstat
  else if cr = 2 then BitVec.ofNat 64 tick
  else if cr = 3 then t.tgen
  else (t.rdK (cr.setWidth 4)).setWidth 64

def execCrr (pt : At) (o : SC) (s : State) : Res :=
  .next (slotOp pt slotScalar (causeCrr o) (fun t => t.postS pt 1 o.sd (crRead t pt (s.tick pt) o.cr)) s)
/-- CRW writes at the end of its cycle: TCTL takes effect one cycle later (R65), TSTAT clears (R66), a
counter is written before completions of the same cycle are recorded (R64), TTIME ignores it. -/
def execCrw (pt : At) (o : SC) (s : State) : Res :=
  .next (slotOp pt slotScalar (causeCrw o) (fun t => t.post pt.cyc 1 slotScalar (.cr o.cr (t.rdS o.sa))) s)

end Sys2Proof.Machine
end

