-- ==== Sys2Proof/Machine/Bundle.lean ====
section
/-! DEFINITION. Issue of a bundle (R82 to R85, R95 to R105): fetch, decode, the checks before issue, the
issue conditions of R97, and the five slots together. -/
namespace Sys2Proof.Machine

/-- The five slots of the bundle at `w`, decoded, with the cause each meets. -/
structure Slots where
  control : Instr
  scalar : Instr
  vector : Instr
  matrix : Instr
  move : Instr
  /-- Causes in slot order: control, scalar, vector, matrix, move. -/
  causes : List Nat
deriving DecidableEq, Repr

/-- Decode a bundle: causes that its encoding alone meets (R103, R105). -/
def decodeSlots (pt : At) (caps : Nat) (w : W256) : Slots :=
  let b := splitBundle w
  let c := decodeControl pt b.control
  let x := decodeScalar pt b.scalar
  let v := decodeVector pt b.vector
  let m := decodeMatrix pt b.matrix
  let k := decodeMove pt b.move
  { control := slotInstr pt c, scalar := slotInstr pt x, vector := slotInstr pt v, matrix := slotInstr pt m,
    move := slotInstr pt k,
    causes := [slotCause caps (b.control.extractLsb' 0 6).toNat b.control c,
               slotCause caps (b.scalar.extractLsb' 0 8).toNat b.scalar x,
               slotCause caps (b.vector.extractLsb' 0 8).toNat b.vector v,
               slotCause caps (b.matrix.extractLsb' 0 8).toNat b.matrix m,
               slotCause caps (b.move.extractLsb' 0 8).toNat b.move k] }

/-- The first slot with a cause, and the cause. -/
def firstFault (slot : Nat) : List Nat → Option (Nat × Nat)
  | [] => none
  | 0 :: cs => firstFault (slot + 1) cs
  | c :: _ => some (slot, c)

/-- The loop causes of the control slot, checked against the stack (R102). -/
def controlLoopCause (t : Tile) (i : Instr) : Nat :=
  match i with
  | .loop _ o => loopCause t o.fin
  | .loopi _ o => loopCause t o.fin
  | _ => 0

/-- The fault a bundle meets: the lowest slot, and its lowest cause; a double-bit error at fetch is a cause of the
control slot (R105). -/
def bundleCause (t : Tile) (ds : Slots) : Option (Nat × Nat) :=
  let twoBit := if eccIn t.ieccs 2 (32 * t.pc.toNat) 32 then 12 else 0
  match ds.causes with
  | [] => firstFault 0 []
  | c :: cs =>
    let c := if c = 0 then controlLoopCause t ds.control else c
    firstFault 0 ((if c = 0 then twoBit else c) :: cs)

/-- R97: WAITC and TIDEW. -/
def controlReady (t : Tile) (r : Region) (c : Nat) (i : Instr) : Bool :=
  match i with
  | .waitc _ o => waitcOk t o
  | .tidew _ o => tidewOk t r c o
  | _ => true

/-- R97: the accumulator and pending conditions of the matrix slot (R60, R61). -/
def matrixReady (t : Tile) (c : Nat) (i : Instr) : Bool :=
  match i with
  | .mma _ o => !t.maStall c o
  | .mmar _ o => !t.maStall c o
  | .mrd _ o => !t.matStall c (namedAcc o.ad o.cmp) none
  | .mwr _ o => !t.matStall c [o.ad.toNat] none
  | .mset _ o => !t.matStall c [o.ad.toNat] none
  | .cbld _ _ => !t.pendingFull c
  | _ => true

/-- One slot's operation issues: the operation's own meaning; a move command enters the queue. -/
def slotRun (i : Instr) (s : State) : Res :=
  match i with
  | .brc pt o => execBrc pt o s
  | .loop pt o => execLoop pt o s
  | .loopi pt o => execLoopi pt o s
  | .waitc pt o => execWaitc pt o s
  | .tidew pt o => execTidew pt o s
  | .fence pt o => execFence pt o s
  | .barr pt o => execBarr pt o s
  | .epchk pt o => execEpchk pt o s
  | .endIssue pt => execEndIssue pt s
  | .add pt o => execAdd pt o s
  | .sub pt o => execSub pt o s
  | .and pt o => execAnd pt o s
  | .or pt o => execOr pt o s
  | .xor pt o => execXor pt o s
  | .sll pt o => execSll pt o s
  | .srl pt o => execSrl pt o s
  | .sra pt o => execSra pt o s
  | .slt pt o => execSlt pt o s
  | .sltu pt o => execSltu pt o s
  | .min pt o => execMin pt o s
  | .max pt o => execMax pt o s
  | .minu pt o => execMinu pt o s
  | .maxu pt o => execMaxu pt o s
  | .mul pt o => execMul pt o s
  | .mulh pt o => execMulh pt o s
  | .mulhu pt o => execMulhu pt o s
  | .div pt o => execDiv pt o s
  | .divu pt o => execDivu pt o s
  | .rem pt o => execRem pt o s
  | .remu pt o => execRemu pt o s
  | .lane pt o => execLane pt o s
  | .addi pt o => execAddi pt o s
  | .andi pt o => execAndi pt o s
  | .ori pt o => execOri pt o s
  | .xori pt o => execXori pt o s
  | .slli pt o => execSlli pt o s
  | .srli pt o => execSrli pt o s
  | .srai pt o => execSrai pt o s
  | .slti pt o => execSlti pt o s
  | .sltiu pt o => execSltiu pt o s
  | .li pt o => execLi pt o s
  | .lih pt o => execLih pt o s
  | .crr pt o => execCrr pt o s
  | .crw pt o => execCrw pt o s
  | .vld pt o => execVld pt o s
  | .vst pt o => execVst pt o s
  | .vmovi pt o => execVmovi pt o s
  | .vidx pt o => execVidx pt o s
  | .vadd pt o => execVadd pt o s
  | .vsub pt o => execVsub pt o s
  | .vmul pt o => execVmul pt o s
  | .vfma pt o => execVfma pt o s
  | .vmin pt o => execVmin pt o s
  | .vmax pt o => execVmax pt o s
  | .vabs pt o => execVabs pt o s
  | .vneg pt o => execVneg pt o s
  | .vrcp pt o => execVrcp pt o s
  | .vsqrt pt o => execVsqrt pt o s
  | .vrsq pt o => execVrsq pt o s
  | .vexp2 pt o => execVexp2 pt o s
  | .vlog2 pt o => execVlog2 pt o s
  | .vexd pt o => execVexd pt o s
  | .vadds pt o => execVadds pt o s
  | .vmuls pt o => execVmuls pt o s
  | .vfmas pt o => execVfmas pt o s
  | .vmaxs pt o => execVmaxs pt o s
  | .viadds pt o => execViadds pt o s
  | .viadd pt o => execViadd pt o s
  | .visub pt o => execVisub pt o s
  | .vimul pt o => execVimul pt o s
  | .vand pt o => execVand pt o s
  | .vor pt o => execVor pt o s
  | .vxor pt o => execVxor pt o s
  | .vshl pt o => execVshl pt o s
  | .vshr pt o => execVshr pt o s
  | .vsra pt o => execVsra pt o s
  | .vimin pt o => execVimin pt o s
  | .vimax pt o => execVimax pt o s
  | .vsel pt o => execVsel pt o s
  | .vperm pt o => execVperm pt o s
  | .vcmpr pt o => execVcmpr pt o s
  | .pcnt pt o => execPcnt pt o s
  | .vcvt pt o => execVcvt pt o s
  | .vcvtx pt o => execVcvtx pt o s
  | .vrsum pt o => execVrsum pt o s
  | .vrmax pt o => execVrmax pt o s
  | .vrmin pt o => execVrmin pt o s
  | .vbmrg pt o => execVbmrg pt o s
  | .vcmp pt o => execVcmp pt o s
  | .pand pt o => execPand pt o s
  | .por pt o => execPor pt o s
  | .pxor pt o => execPxor pt o s
  | .mma pt o => execMma pt o s
  | .mmar pt o => execMmar pt o s
  | .mrd pt o => execMrd pt o s
  | .mwr pt o => execMwr pt o s
  | .mset pt o => execMset pt o s
  | .cbld pt o => execCbld pt o s
  | .tpld pt o => .next (s.onTile pt (issueMove pt .tpld o))
  | .tpst pt o => .next (s.onTile pt (issueMove pt .tpst o))
  | .msend pt o => .next (s.onTile pt (issueMove pt .msend o))
  | .otxa pt o => .next (s.onTile pt (issueMove pt .otxa o))
  | .orxa pt o => .next (s.onTile pt (issueMove pt .orxa o))
  | .hbrd pt o => .next (s.onTile pt (issueMove pt .hbrd o))
  | .hbwr pt o => .next (s.onTile pt (issueMove pt .hbwr o))
  | .ibld pt o => .next (s.onTile pt (issueMove pt .ibld o))
  | .kvapp pt o => .next (s.onTile pt (issueMove pt .kvapp o))
  | .kvgth pt o => .next (s.onTile pt (issueMove pt .kvgth o))
  | .kvbws pt o => .next (s.onTile pt (issueMove pt .kvbws o))
  | .note pt o => .next (s.onTile pt (issueMove pt .note o))
  | .fld pt o => .next (s.onTile pt (issueMove pt .fld o))
  | .fst pt o => .next (s.onTile pt (issueMove pt .fst o))
  | .fatm pt o => .next (s.onTile pt (issueMove pt .fatm o))
  | _ => .next s

/-- Run the next meaning on the state the last one left. -/
def Res.andThen (r : Res) (f : State → Res) : Res :=
  match r with
  | .next s => f s
  | .fault x => .fault x
  | .refused x => .refused x

/-- The control slot comes last: a FENCE sees the move command of its own bundle (R157), and pc moves on. -/
def controlRun (pt : At) (i : Instr) (s : State) : Res :=
  match i with
  | .nop _ => .next (s.onTile pt fun t => t.advance pt.cyc)
  | i => slotRun i s

/-- The five slots issue together. -/
def issueSlots (pt : At) (ds : Slots) (s : State) : Res :=
  ((((slotRun ds.scalar s).andThen (slotRun ds.vector)).andThen (slotRun ds.matrix)).andThen
    (slotRun ds.move)).andThen (controlRun pt ds.control)

/-- Whether the tile may take a bundle in this cycle: issuing, or launched with its tick reached (R201), not
before the cycle R99 gives; never in an idle tide cycle or in safe state. -/
def mayIssue (t : Tile) (r : Region) (c : Nat) : Bool :=
  (match t.issue with
    | .issuing => true
    | .waiting T => decide (T < r.tick) || (decide (T = r.tick) && decide (r.tick0 ≤ c))
    | _ => false) && decide (t.nextCyc ≤ c)

/-- BUNDLE_ISSUE: in the cycle given, the tile's next bundle is fetched and checked; it faults (R104), waits
for an issue condition, or issues. -/
def execBundleIssue (pt : At) (s : State) : Res :=
  let t := (s.tile (tileKey pt.die pt.tile)).settle pt.cyc
  let r := s.region (regionKey pt.die.val pt.tile.val)
  if s.safe || s.idle || !mayIssue t r pt.cyc then .next s else
  let ds := decodeSlots pt s.caps (fetchBundle t t.pc.toNat)
  let t := { t with issue := .issuing, free := if t.active.any fun a => a.cmd.kind == .ibld then t.free + 1 else t.free }
  let waited := s.putTile pt.die.val pt.tile.val t
  let s := s.putTile pt.die.val pt.tile.val
    (if eccIn t.ieccs 1 (32 * t.pc.toNat) 32 then t.report 0x01 (32 * t.pc.toNat) else t)
  match bundleCause t ds with
  | some (slot, cause) => .next (s.bundleFault pt slot cause)
  | none =>
    if controlReady t r pt.cyc ds.control && matrixReady t pt.cyc ds.matrix then issueSlots pt ds s
    else .next waited

end Sys2Proof.Machine
end

