-- ==== Sys2Proof/Machine/Card.lean ====
section
/-! DEFINITION. Writes of whole registers: their fields, then what their command bits start (Table 0-1); REGISTER_WRITE,
and the depot script's WRITE, which is such a write by the service agent (R520). -/
namespace Sys2Proof.Machine

/-- The state after a command that stops on no path. -/
def stateOf (r : Res) (s : State) : State :=
  match r with
  | .next t => t
  | _ => s

/-- What a register write carries: the written word in its place, and the span of its bits. -/
structure Written where
  word : Nat
  lo : Nat
  bits : Nat
deriving DecidableEq, Repr

/-- The write covers a field; the value it carries for one; a 1 in its lowest bit. -/
def wrCovers (w : Written) (f : Fld) : Bool := decide (w.lo ≤ f.lo) && decide (f.lo + f.wd ≤ w.lo + w.bits)
def wrField (w : Written) (f : Fld) : Nat := bitsN w.word f.lo f.wd
def wrSets (w : Written) (f : Fld) : Bool := wrCovers w f && (wrField w f).testBit 0
/-- The write changes a one-bit field that `inst` holds. -/
def State.turns (s : State) (w : Written) (f : Fld) (inst : Nat) : Bool := wrCovers w f && (wrField w f == 1) != s.on f inst

/-- Command bits of the Tidepool, tide, laser and fabric registers. -/
def State.startA (s : State) (m : Master) (no i : Nat) (w : Written) : State :=
  let bit (f : Fld) (r : Res) : State := if wrSets w f then stateOf r s else s
  if no = TPL_MAINT then
    (if wrSets w TPL_MAINT_GO then s.maintGo i (s.rd TPL_MAINT_OP i) (s.on TPL_MAINT_ALL i) (s.on TPL_MAINT_INCL_MOORED i) else s)
  else if no = TID_SWAP then
    bit TID_SWAP_GO (execSwapRequest (BitVec.ofNat 24 (s.rd TID_SWAP_HDL)) (BitVec.ofNat 16 (s.rd TID_SWAP_SHG)) (s.on TID_SWAP_HRB) (s.on TID_SWAP_TURN) s)
  else if no = TID_LOAD then
    bit TID_LOAD_GO (execTideTableLoad (BitVec.ofNat 8 (s.rd TID_LOAD_STATION)) (s.on TID_LOAD_BUF) (BitVec.ofNat 41 (s.rd TID_LOAD_ADDR_ADDR)) s)
  else if no = TID_MROLE_NEXT then
    bit TID_MROLE_NEXT_GO (execModuleRoleRequest (BitVec.ofNat 3 (s.rd TID_MROLE_NEXT_MROLE)) (BitVec.ofNat 8 (s.rd TID_MROLE_NEXT_FWD_RANK)) s)
  else if no = HRN_LS_CTRL then (if wrSets w HRN_LS_CTRL_PREHEAT_NOW then s.preheatNow else s)
  else if no = FAB_FLOW0 then
    let f := Fin.ofNat 4096 i
    let s := if wrSets w FAB_FLOW0_RETURN then stateOf (execReturnHome f m s) s else s
    if !s.turns w FAB_FLOW0_OPEN i then s
    else if wrSets w FAB_FLOW0_OPEN then
      stateOf (execFlowOpen f m (BitVec.ofNat 8 (s.rd FAB_FLOW0_RANK i)) (Fin.ofNat 8 (s.rd FAB_FLOW0_HOME i)) s) s
    else stateOf (execFlowCloseRequest f m s) s
  else if no = FAB_PLANE then
    (if s.turns w FAB_PLANE_DISABLE i then stateOf (execPlaneDisable (Fin.ofNat 8 i) m (wrSets w FAB_PLANE_DISABLE) s) s else s)
  else if no = FAB_DIRECT_CMD then
    (if !wrSets w FAB_DIRECT_CMD_GO || s.on FAB_DIRECT_CMD_BUSY || !s.mayFab m.val then s
    else if s.rd FAB_DIRECT_CMD_OP = 3 then s.directFail (s.rd FAB_DIRECT_CMD_NODE) (s.rd FAB_DIRECT_OFF_OFFSET) cUNSUPPORTED
    else s.direct (s.rd FAB_DIRECT_CMD_OP) m.val (s.rd FAB_DIRECT_CMD_NODE) (s.rd FAB_DIRECT_CMD_AOP) (s.on FAB_DIRECT_CMD_W64)
      (s.rd FAB_DIRECT_CMD_LEN) (s.rd FAB_DIRECT_OFF_OFFSET) (s.rd FAB_DIRECT_BUF_ADDR))
  else if no = FAB_SQUALL_CTRL then
    (if !s.turns w FAB_SQUALL_CTRL_EN 0 then s
    else if wrSets w FAB_SQUALL_CTRL_EN then
      stateOf (execSquallStart m (BitVec.ofNat 2 (wrField w FAB_SQUALL_CTRL_TARGET)) (BitVec.ofNat 8 (wrField w FAB_SQUALL_CTRL_PORTS))
        (BitVec.ofNat 16 (wrField w FAB_SQUALL_CTRL_DURATION_MS)) s) s
    else stateOf (execSquallEnd (some m) s) s)
  else s

/-- Command bits of the host, Ferry, ring, sampler and firmware registers. -/
def State.startB (s : State) (m : Master) (no i : Nat) (w : Written) : State :=
  if no = RNG_CFG then
    let h := Fin.ofNat 2 (i / 64)
    let n := Fin.ofNat 64 i
    let s := if wrSets w RNG_CFG_RECLAIM then stateOf (execReclaim (Fin.ofNat 128 i) s) s else s
    let s := if wrSets w RNG_CFG_DISCARD then stateOf (execDiscard (Fin.ofNat 128 i) s) s else s
    if !s.turns w RNG_CFG_ENABLE i then s
    else if wrSets w RNG_CFG_ENABLE then stateOf (execRingEnable h n s) s else stateOf (execRingDisable h n s) s
  else if no = FRY_CFG then
    let c := Fin.ofNat 32 i
    let s := if wrCovers w FRY_CFG_OWNER && wrField w FRY_CFG_OWNER != s.rd FRY_CFG_OWNER i then
      stateOf (execFerryOwnerWrite c m (BitVec.ofNat 6 (wrField w FRY_CFG_OWNER)) s) s else s
    if !s.turns w FRY_CFG_ENABLE i then s
    else if wrSets w FRY_CFG_ENABLE then stateOf (execFerryEnable c m s) s else stateOf (execFerryDisable c m s) s
  else if no = FRY_IDX then
    (if wrCovers w FRY_IDX_TAIL then stateOf (execFerryDoorbell (Fin.ofNat 32 i) m false (BitVec.ofNat 16 (wrField w FRY_IDX_TAIL)) s) s else s)
  else if no = SMP_CFG then
    (if !s.turns w SMP_CFG_ENABLE i then s
    else if wrSets w SMP_CFG_ENABLE then stateOf (execStreamEnable m (Fin.ofNat 64 i) s) s
    else stateOf (execStreamDisable m (Fin.ofNat 64 i) s) s)
  else if no = MBX_CTRL then (if wrSets w MBX_CTRL_LOCK then stateOf (execMailboxLock m s) s else s)
  else if no = GLB_RTLOAD then (if wrSets w GLB_RTLOAD_GO then stateOf (execRuntimeLoad m s) s else s)
  else s

/-- Command bits of the power, fault, Breakwater, reset, twin, security and record registers. -/
def State.startC (s : State) (m : Master) (no : Nat) (w : Written) : State :=
  let bit (f : Fld) (r : Res) : State := if wrSets w f then stateOf r s else s
  if no = PWR_CTRL then
    (if !wrCovers w PWR_CTRL_REQ then s
    else match wrField w PWR_CTRL_REQ with
      | 1 => stateOf (execDoldrumsRequest m s) s
      | 2 => stateOf (execBecalmedRequest m s) s
      | 3 => stateOf (execWakeRequest m s) s
      | _ => s)
  else if no = FLT_INJ then
    bit FLT_INJ_GO (execFaultInject m (BitVec.ofNat 8 (s.rd FLT_INJ_KIND)) (BitVec.ofNat 8 (s.rd FLT_INJ_STATION)) (BitVec.ofNat 16 (s.rd FLT_INJ_UNIT))
      (BitVec.ofNat 2 (s.rd FLT_INJ_CLASS)) (BitVec.ofNat 3 (s.rd FLT_INJ_BWT_CH)) true s)
  else if no = BWT_TIGHTEN then
    stateOf (execBwtTighten m (BitVec.ofNat 8 (wrField w BWT_TIGHTEN_HDL_TRIP)) (BitVec.ofNat 8 (wrField w BWT_TIGHTEN_HBM_TRIP))
      (BitVec.ofNat 8 (wrField w BWT_TIGHTEN_HRB_TRIP)) (BitVec.ofNat 8 (wrField w BWT_TIGHTEN_CUR_TRIP)) s) s
  else if no = BWT_TRIP then bit BWT_TRIP_PENDING (execTripAcknowledge m s)
  else if no = GLB_RESET then
    (if wrSets w GLB_RESET_MOD && wrField w GLB_RESET_KEY == 0x5A then stateOf (execModRequest m 0x5A s) s
    else bit GLB_RESET_DIE (execDieRequest m (BitVec.ofNat 8 (s.rd GLB_RESET_STATION)) (s.on GLB_RESET_HOLD) [] s))
  else if no = TWN_CTRL then
    let s := if wrCovers w TWN_CTRL_WANT && wrField w TWN_CTRL_WANT != s.rd TWN_CTRL_WANT then
      stateOf (execWantWrite m (BitVec.ofNat 2 (wrField w TWN_CTRL_WANT)) s) s else s
    let s := if wrSets w TWN_CTRL_ARM then stateOf (execArm m s) s else s
    let s := if wrSets w TWN_CTRL_RESUME then stateOf (execResume m s) s else s
    if wrSets w TWN_CTRL_TAKE then stateOf (execTake m s) s else s
  else if no = SEC_ATTEST then bit SEC_ATTEST_GO (execAttestRequest m (BitVec.ofNat 41 (s.rd SEC_ATTEST_ADDR)) s)
  else if no = SEC_WIPE then bit SEC_WIPE_GO (execWipeRequest m (BitVec.ofNat 8 (wrField w SEC_WIPE_KEY)) s)
  else if no = STL_SEAL then bit STL_SEAL_GO (execStlSeal m s)
  else s

/-- CLAIM, RELEASE and TAKEOVER by a host (R376). -/
def State.ownerBits (s : State) (m : Master) (w : Written) : State :=
  let p := Fin.ofNat 2 m.val
  if wrSets w GLB_HOSTCFG_CLAIM then stateOf (execClaim p s) s
  else if wrSets w GLB_HOSTCFG_RELEASE then stateOf (execRelease p s) s
  else if wrSets w GLB_HOSTCFG_TAKEOVER then stateOf (execTakeover p s) s
  else s

/-- A BAR0 write whole: the fields it may change, and then the commands its bits carry. A refused one starts nothing.
SEC_UPD's GO comes as UPDATE_REQUEST, which carries the container's verdict. -/
def State.writeReg (s : State) (m : Master) (addr size data : Nat) : State :=
  let t := s.writeBar0 m.val addr size data
  if (size ≠ 4 ∧ size ≠ 8) ∨ addr % size ≠ 0 then t
  else
    let a := addr / 8 * 8
    match regAt a with
    | none => t
    | some (r, i) =>
      let w : Written := ⟨data * 2 ^ (8 * (addr - a)), 8 * (addr - a), 8 * size⟩
      if r.no = GLB_HOSTCFG ∧ m.val < 2 then
        (if wrSets w GLB_HOSTCFG_CLAIM || wrSets w GLB_HOSTCFG_RELEASE || wrSets w GLB_HOSTCFG_TAKEOVER then s.ownerBits m w else t)
      else if !s.mayWrite m.val r.no i || s.frozen r.no i && r.no ≠ SMP_CFG then t
      else ((t.startA m r.no i w).startB m r.no i w).startC m r.no w

/-- REGISTER_WRITE: a write of a register of BAR0, or of the port's configuration space. -/
def execRegisterWrite (master : Master) (target : WrTarget) (s : State) : Res :=
  if s.rst.held then .next s else
  let p := master.val % 2
  let x := s.port p
  match target with
  | .bar0 addr size data => .next (s.writeReg master addr.toNat size data.toNat)
  | .busMaster on => .next (s.setPort p { x with busMaster := on })
  | .msix enable funcMask => .next ((s.setPort p { x with enable := enable, funcMask := funcMask }).sendPended p)
  | .msixMask v masked => .next ((s.setPort p { x with mask := if masked then x.mask ||| bit256 v.toNat else x.mask &&& ~~~(bit256 v.toNat) }).sendPended p)
  | .bar2Size log => .next (s.setPort p { x with bar2Log := min 41 (max 30 log) })

/-- SCRIPT_WRITE: a BAR0 register is written while no host owns the module. -/
def execScriptWrite (s : State) : Res :=
  match s.takeCmd 2 with
  | none => .next s
  | some (c, s) =>
    let a := fieldAt c 4 4
    if s.on GLB_HOSTCFG_OWNER_VALID then .next (s.logCmd 2 cPERM [])
    else if a % 8 ≠ 0 then .next (s.logCmd 2 cADDR_FAULT [])
    else .next ((s.writeReg 11 a 8 (fieldAt c 8 8)).logCmd 2 cOK [])

end Sys2Proof.Machine
end

