-- ==== Sys2Proof/Machine/Dispatch.lean ====
section
/-! DEFINITION. One arm per command: the direct call of its meaning. -/
namespace Sys2Proof.Machine

def exec (i : Instr) (s : State) : Host.Outcome State Fault Refusal :=
  match i with
  | .readClear master bar4 addr size => Sys2Proof.Machine.execReadClear master bar4 addr size s
  | .registerWrite master target => Sys2Proof.Machine.execRegisterWrite master target s
  | .bundleIssue pt => Sys2Proof.Machine.execBundleIssue pt s
  | .resultWrite pt => Sys2Proof.Machine.execResultWrite pt s
  | .delayedVectorAccess pt => Sys2Proof.Machine.execDelayedVectorAccess pt s
  | .nop pt => Sys2Proof.Machine.execNop pt s
  | .brc pt o => Sys2Proof.Machine.execBrc pt o s
  | .loop pt o => Sys2Proof.Machine.execLoop pt o s
  | .loopi pt o => Sys2Proof.Machine.execLoopi pt o s
  | .waitc pt o => Sys2Proof.Machine.execWaitc pt o s
  | .tidew pt o => Sys2Proof.Machine.execTidew pt o s
  | .fence pt o => Sys2Proof.Machine.execFence pt o s
  | .fenceRecord pt => Sys2Proof.Machine.execFenceRecord pt s
  | .barr pt o => Sys2Proof.Machine.execBarr pt o s
  | .barrierRelease die set cyc => Sys2Proof.Machine.execBarrierRelease die set cyc s
  | .epchk pt o => Sys2Proof.Machine.execEpchk pt o s
  | .endIssue pt => Sys2Proof.Machine.execEndIssue pt s
  | .add pt o => Sys2Proof.Machine.execAdd pt o s
  | .sub pt o => Sys2Proof.Machine.execSub pt o s
  | .and pt o => Sys2Proof.Machine.execAnd pt o s
  | .or pt o => Sys2Proof.Machine.execOr pt o s
  | .xor pt o => Sys2Proof.Machine.execXor pt o s
  | .sll pt o => Sys2Proof.Machine.execSll pt o s
  | .srl pt o => Sys2Proof.Machine.execSrl pt o s
  | .sra pt o => Sys2Proof.Machine.execSra pt o s
  | .slt pt o => Sys2Proof.Machine.execSlt pt o s
  | .sltu pt o => Sys2Proof.Machine.execSltu pt o s
  | .min pt o => Sys2Proof.Machine.execMin pt o s
  | .max pt o => Sys2Proof.Machine.execMax pt o s
  | .minu pt o => Sys2Proof.Machine.execMinu pt o s
  | .maxu pt o => Sys2Proof.Machine.execMaxu pt o s
  | .mul pt o => Sys2Proof.Machine.execMul pt o s
  | .mulh pt o => Sys2Proof.Machine.execMulh pt o s
  | .mulhu pt o => Sys2Proof.Machine.execMulhu pt o s
  | .div pt o => Sys2Proof.Machine.execDiv pt o s
  | .divu pt o => Sys2Proof.Machine.execDivu pt o s
  | .rem pt o => Sys2Proof.Machine.execRem pt o s
  | .remu pt o => Sys2Proof.Machine.execRemu pt o s
  | .lane pt o => Sys2Proof.Machine.execLane pt o s
  | .addi pt o => Sys2Proof.Machine.execAddi pt o s
  | .andi pt o => Sys2Proof.Machine.execAndi pt o s
  | .ori pt o => Sys2Proof.Machine.execOri pt o s
  | .xori pt o => Sys2Proof.Machine.execXori pt o s
  | .slli pt o => Sys2Proof.Machine.execSlli pt o s
  | .srli pt o => Sys2Proof.Machine.execSrli pt o s
  | .srai pt o => Sys2Proof.Machine.execSrai pt o s
  | .slti pt o => Sys2Proof.Machine.execSlti pt o s
  | .sltiu pt o => Sys2Proof.Machine.execSltiu pt o s
  | .li pt o => Sys2Proof.Machine.execLi pt o s
  | .lih pt o => Sys2Proof.Machine.execLih pt o s
  | .crr pt o => Sys2Proof.Machine.execCrr pt o s
  | .crw pt o => Sys2Proof.Machine.execCrw pt o s
  | .vld pt o => Sys2Proof.Machine.execVld pt o s
  | .vst pt o => Sys2Proof.Machine.execVst pt o s
  | .vmovi pt o => Sys2Proof.Machine.execVmovi pt o s
  | .vidx pt o => Sys2Proof.Machine.execVidx pt o s
  | .vadd pt o => Sys2Proof.Machine.execVadd pt o s
  | .vsub pt o => Sys2Proof.Machine.execVsub pt o s
  | .vmul pt o => Sys2Proof.Machine.execVmul pt o s
  | .vfma pt o => Sys2Proof.Machine.execVfma pt o s
  | .vmin pt o => Sys2Proof.Machine.execVmin pt o s
  | .vmax pt o => Sys2Proof.Machine.execVmax pt o s
  | .vabs pt o => Sys2Proof.Machine.execVabs pt o s
  | .vneg pt o => Sys2Proof.Machine.execVneg pt o s
  | .vrcp pt o => Sys2Proof.Machine.execVrcp pt o s
  | .vsqrt pt o => Sys2Proof.Machine.execVsqrt pt o s
  | .vrsq pt o => Sys2Proof.Machine.execVrsq pt o s
  | .vexp2 pt o => Sys2Proof.Machine.execVexp2 pt o s
  | .vlog2 pt o => Sys2Proof.Machine.execVlog2 pt o s
  | .vexd pt o => Sys2Proof.Machine.execVexd pt o s
  | .vadds pt o => Sys2Proof.Machine.execVadds pt o s
  | .vmuls pt o => Sys2Proof.Machine.execVmuls pt o s
  | .vfmas pt o => Sys2Proof.Machine.execVfmas pt o s
  | .vmaxs pt o => Sys2Proof.Machine.execVmaxs pt o s
  | .viadds pt o => Sys2Proof.Machine.execViadds pt o s
  | .viadd pt o => Sys2Proof.Machine.execViadd pt o s
  | .visub pt o => Sys2Proof.Machine.execVisub pt o s
  | .vimul pt o => Sys2Proof.Machine.execVimul pt o s
  | .vand pt o => Sys2Proof.Machine.execVand pt o s
  | .vor pt o => Sys2Proof.Machine.execVor pt o s
  | .vxor pt o => Sys2Proof.Machine.execVxor pt o s
  | .vshl pt o => Sys2Proof.Machine.execVshl pt o s
  | .vshr pt o => Sys2Proof.Machine.execVshr pt o s
  | .vsra pt o => Sys2Proof.Machine.execVsra pt o s
  | .vimin pt o => Sys2Proof.Machine.execVimin pt o s
  | .vimax pt o => Sys2Proof.Machine.execVimax pt o s
  | .vsel pt o => Sys2Proof.Machine.execVsel pt o s
  | .vperm pt o => Sys2Proof.Machine.execVperm pt o s
  | .vcmpr pt o => Sys2Proof.Machine.execVcmpr pt o s
  | .pcnt pt o => Sys2Proof.Machine.execPcnt pt o s
  | .vcvt pt o => Sys2Proof.Machine.execVcvt pt o s
  | .vcvtx pt o => Sys2Proof.Machine.execVcvtx pt o s
  | .vrsum pt o => Sys2Proof.Machine.execVrsum pt o s
  | .vrmax pt o => Sys2Proof.Machine.execVrmax pt o s
  | .vrmin pt o => Sys2Proof.Machine.execVrmin pt o s
  | .vbmrg pt o => Sys2Proof.Machine.execVbmrg pt o s
  | .vcmp pt o => Sys2Proof.Machine.execVcmp pt o s
  | .pand pt o => Sys2Proof.Machine.execPand pt o s
  | .por pt o => Sys2Proof.Machine.execPor pt o s
  | .pxor pt o => Sys2Proof.Machine.execPxor pt o s
  | .mma pt o => Sys2Proof.Machine.execMma pt o s
  | .mmar pt o => Sys2Proof.Machine.execMmar pt o s
  | .matrixEngineStart pt => Sys2Proof.Machine.execMatrixEngineStart pt s
  | .matrixEngineDone pt => Sys2Proof.Machine.execMatrixEngineDone pt s
  | .mrd pt o => Sys2Proof.Machine.execMrd pt o s
  | .mwr pt o => Sys2Proof.Machine.execMwr pt o s
  | .mset pt o => Sys2Proof.Machine.execMset pt o s
  | .cbld pt o => Sys2Proof.Machine.execCbld pt o s
  | .cbldDelayedRead pt => Sys2Proof.Machine.execCbldDelayedRead pt s
  | .tpld pt o => Sys2Proof.Machine.execTpld pt o s
  | .tpst pt o => Sys2Proof.Machine.execTpst pt o s
  | .msend pt o => Sys2Proof.Machine.execMsend pt o s
  | .otxa pt o => Sys2Proof.Machine.execOtxa pt o s
  | .orxa pt o => Sys2Proof.Machine.execOrxa pt o s
  | .hbrd pt o => Sys2Proof.Machine.execHbrd pt o s
  | .hbwr pt o => Sys2Proof.Machine.execHbwr pt o s
  | .ibld pt o => Sys2Proof.Machine.execIbld pt o s
  | .kvapp pt o => Sys2Proof.Machine.execKvapp pt o s
  | .kvgth pt o => Sys2Proof.Machine.execKvgth pt o s
  | .kvbws pt o => Sys2Proof.Machine.execKvbws pt o s
  | .note pt o => Sys2Proof.Machine.execNote pt o s
  | .fld pt o => Sys2Proof.Machine.execFld pt o s
  | .fst pt o => Sys2Proof.Machine.execFst pt o s
  | .fatm pt o => Sys2Proof.Machine.execFatm pt o s
  | .moveCommandStart pt => Sys2Proof.Machine.execMoveCommandStart pt s
  | .moveCommandComplete pt id => Sys2Proof.Machine.execMoveCommandComplete pt id s
  | .linkDelivery pt link rcyc => Sys2Proof.Machine.execLinkDelivery pt link rcyc s
  | .inboundBufferDrain pt source => Sys2Proof.Machine.execInboundBufferDrain pt source s
  | .referenceTick => Sys2Proof.Machine.execReferenceTick s
  | .regionTickEdge die region cyc => Sys2Proof.Machine.execRegionTickEdge die region cyc s
  | .beaconLoad die region => Sys2Proof.Machine.execBeaconLoad die region s
  | .tableTick q => Sys2Proof.Machine.execTableTick q s
  | .txCutoff die => Sys2Proof.Machine.execTxCutoff die s
  | .dataSwell q dport cyc rx => Sys2Proof.Machine.execDataSwell q dport cyc rx s
  | .nullSwell q dport rx => Sys2Proof.Machine.execNullSwell q dport rx s
  | .idleSwell q dport rx => Sys2Proof.Machine.execIdleSwell q dport rx s
  | .makeupSwell q dport cyc rx => Sys2Proof.Machine.execMakeupSwell q dport cyc rx s
  | .reportSwell q src rx => Sys2Proof.Machine.execReportSwell q src rx s
  | .noteSwell q src second cycs rx => Sys2Proof.Machine.execNoteSwell q src second cycs rx s
  | .beacon q rx => Sys2Proof.Machine.execBeacon q rx s
  | .settleTick => Sys2Proof.Machine.execSettleTick s
  | .couplerSweepDone die offs => Sys2Proof.Machine.execCouplerSweepDone die offs s
  | .reportTick q => Sys2Proof.Machine.execReportTick q s
  | .resolveTick => Sys2Proof.Machine.execResolveTick s
  | .makeupTick q => Sys2Proof.Machine.execMakeupTick q s
  | .noteTick q => Sys2Proof.Machine.execNoteTick q s
  | .beaconTick => Sys2Proof.Machine.execBeaconTick s
  | .quietTick => Sys2Proof.Machine.execQuietTick s
  | .idleCycle => Sys2Proof.Machine.execIdleCycle s
  | .tideTableLoad station buf addr => Sys2Proof.Machine.execTideTableLoad station buf addr s
  | .tideTableCheck => Sys2Proof.Machine.execTideTableCheck s
  | .swapRequest hdl shg hrb turn => Sys2Proof.Machine.execSwapRequest hdl shg hrb turn s
  | .moduleRoleRequest mrole fwd => Sys2Proof.Machine.execModuleRoleRequest mrole fwd s
  | .careenReturn bundle effect how => Sys2Proof.Machine.execCareenReturn bundle effect how s
  | .hareneRecalDone => Sys2Proof.Machine.execHareneRecalDone s
  | .bundleMapWrite bundle effect missed => Sys2Proof.Machine.execBundleMapWrite bundle effect missed s
  | .decoderTotals bundle corrected received => Sys2Proof.Machine.execDecoderTotals bundle corrected received s
  | .ringLockLost q src wg => Sys2Proof.Machine.execRingLockLost q src wg s
  | .ringLockReacquired q src wg => Sys2Proof.Machine.execRingLockReacquired q src wg s
  | .rateDetectorTrip q => Sys2Proof.Machine.execRateDetectorTrip q s
  | .fadeSample n lines => Sys2Proof.Machine.execFadeSample n lines s
  | .spareReservation => Sys2Proof.Machine.execSpareReservation s
  | .spareWarmed n => Sys2Proof.Machine.execSpareWarmed n s
  | .spareLocked n => Sys2Proof.Machine.execSpareLocked n s
  | .spareLockTimeout n => Sys2Proof.Machine.execSpareLockTimeout n s
  | .sourceFailed n => Sys2Proof.Machine.execSourceFailed n s
  | .preheatNow => Sys2Proof.Machine.execPreheatNow s
  | .cartridgeInterlockOpen value => Sys2Proof.Machine.execCartridgeInterlockOpen value s
  | .fibrePortOpen port => Sys2Proof.Machine.execFibrePortOpen port s
  | .probeBurst port => Sys2Proof.Machine.execProbeBurst port s
  | .fibrePortRestored port => Sys2Proof.Machine.execFibrePortRestored port s
  | .clean die all incl => Sys2Proof.Machine.execClean die all incl s
  | .inval die all incl => Sys2Proof.Machine.execInval die all incl s
  | .cleanInval die all incl => Sys2Proof.Machine.execCleanInval die all incl s
  | .unmoor die all incl => Sys2Proof.Machine.execUnmoor die all incl s
  | .tplMaintDone die => Sys2Proof.Machine.execTplMaintDone die s
  | .tidepoolFill die line => Sys2Proof.Machine.execTidepoolFill die line s
  | .couplerQuickScan die up dn => Sys2Proof.Machine.execCouplerQuickScan die up dn s
  | .couplerFullLaneTest die up dn offs => Sys2Proof.Machine.execCouplerFullLaneTest die up dn offs s
  | .rd k => Sys2Proof.Machine.execRd k s
  | .wr k => Sys2Proof.Machine.execWr k s
  | .rdata q => Sys2Proof.Machine.execRdata q s
  | .wack q => Sys2Proof.Machine.execWack q s
  | .kvcmd k => Sys2Proof.Machine.execKvcmd k s
  | .kvExecute k q rid => Sys2Proof.Machine.execKvExecute k q rid s
  | .kvdone q => Sys2Proof.Machine.execKvdone q s
  | .readReturnStart k q rid => Sys2Proof.Machine.execReadReturnStart k q rid s
  | .memoryRequestTimeout q k rid => Sys2Proof.Machine.execMemoryRequestTimeout q k rid s
  | .scrubRead k => Sys2Proof.Machine.execScrubRead k s
  | .dieRequest master station hold lines => Sys2Proof.Machine.execDieRequest master station hold lines s
  | .headlandDieRelease die fuses => Sys2Proof.Machine.execHeadlandDieRelease die fuses s
  | .shingleDieRelease k => Sys2Proof.Machine.execShingleDieRelease k s
  | .dieHoldClear master => Sys2Proof.Machine.execDieHoldClear master s
  | .slice => Sys2Proof.Machine.execSlice s
  | .tree => Sys2Proof.Machine.execTree s
  | .samplerStepClose n => Sys2Proof.Machine.execSamplerStepClose n s
  | .samplerStepTimeout n => Sys2Proof.Machine.execSamplerStepTimeout n s
  | .tokenRecordWrite n => Sys2Proof.Machine.execTokenRecordWrite n s
  | .streamEnable master n => Sys2Proof.Machine.execStreamEnable master n s
  | .streamDisable master n => Sys2Proof.Machine.execStreamDisable master n s
  | .ld plane pkt => Sys2Proof.Machine.execLd plane pkt s
  | .st plane pkt => Sys2Proof.Machine.execSt plane pkt s
  | .atom plane pkt => Sys2Proof.Machine.execAtom plane pkt s
  | .ldr plane pkt => Sys2Proof.Machine.execLdr plane pkt s
  | .sta plane pkt => Sys2Proof.Machine.execSta plane pkt s
  | .atomr plane pkt => Sys2Proof.Machine.execAtomr plane pkt s
  | .planeState plane pkt => Sys2Proof.Machine.execPlaneState plane pkt s
  | .nodeState plane pkt => Sys2Proof.Machine.execNodeState plane pkt s
  | .teardown plane pkt => Sys2Proof.Machine.execTeardown plane pkt s
  | .flowClose plane pkt => Sys2Proof.Machine.execFlowClose plane pkt s
  | .fabricPacketSend plane => Sys2Proof.Machine.execFabricPacketSend plane s
  | .creditReturn plane vc inward => Sys2Proof.Machine.execCreditReturn plane vc inward s
  | .fabricPortDown plane opened => Sys2Proof.Machine.execFabricPortDown plane opened s
  | .fabricPortUp plane credits => Sys2Proof.Machine.execFabricPortUp plane credits s
  | .detour flow => Sys2Proof.Machine.execDetour flow s
  | .attemptTimeout flow => Sys2Proof.Machine.execAttemptTimeout flow s
  | .flowReturn flow => Sys2Proof.Machine.execFlowReturn flow s
  | .flowOpen flow master rank home => Sys2Proof.Machine.execFlowOpen flow master rank home s
  | .flowCloseRequest flow master => Sys2Proof.Machine.execFlowCloseRequest flow master s
  | .returnHome flow master => Sys2Proof.Machine.execReturnHome flow master s
  | .planeDisable plane master disable => Sys2Proof.Machine.execPlaneDisable plane master disable s
  | .fabDirectLoad master node len off buf => Sys2Proof.Machine.execFabDirectLoad master node len off buf s
  | .fabDirectStore master node len off buf => Sys2Proof.Machine.execFabDirectStore master node len off buf s
  | .fabDirectAtomic master node aop w64 off buf => Sys2Proof.Machine.execFabDirectAtomic master node aop w64 off buf s
  | .quietEnd => Sys2Proof.Machine.execQuietEnd s
  | .squallStart master target ports duration => Sys2Proof.Machine.execSquallStart master target ports duration s
  | .squallEnd master => Sys2Proof.Machine.execSquallEnd master s
  | .squallReorderRelease plane => Sys2Proof.Machine.execSquallReorderRelease plane s
  | .portReset port down => Sys2Proof.Machine.execPortReset port down s
  | .bar2Read port off len => Sys2Proof.Machine.execBar2Read port off len s
  | .bar2Write port off data ep => Sys2Proof.Machine.execBar2Write port off data ep s
  | .msixUnmask port vector => Sys2Proof.Machine.execMsixUnmask port vector s
  | .claim port => Sys2Proof.Machine.execClaim port s
  | .release port => Sys2Proof.Machine.execRelease port s
  | .takeover port => Sys2Proof.Machine.execTakeover port s
  | .ferryEnable ch master => Sys2Proof.Machine.execFerryEnable ch master s
  | .ferryDisable ch master => Sys2Proof.Machine.execFerryDisable ch master s
  | .ferryOwnerWrite ch master owner => Sys2Proof.Machine.execFerryOwnerWrite ch master owner s
  | .ferryDoorbell ch master bar4 tail => Sys2Proof.Machine.execFerryDoorbell ch master bar4 tail s
  | .ferryTimer ch => Sys2Proof.Machine.execFerryTimer ch s
  | .descriptorStart ch => Sys2Proof.Machine.execDescriptorStart ch s
  | .burstStart => Sys2Proof.Machine.execBurstStart s
  | .burstDone ch second data ep => Sys2Proof.Machine.execBurstDone ch second data ep s
  | .ferryReadTimeout ch second => Sys2Proof.Machine.execFerryReadTimeout ch second s
  | .descriptorComplete ch => Sys2Proof.Machine.execDescriptorComplete ch s
  | .ferryRecordRelease ch => Sys2Proof.Machine.execFerryRecordRelease ch s
  | .ringEnable h n => Sys2Proof.Machine.execRingEnable h n s
  | .ringDisable h n => Sys2Proof.Machine.execRingDisable h n s
  | .ringDoorbell h n whole data => Sys2Proof.Machine.execRingDoorbell h n whole data s
  | .submissionTake ring => Sys2Proof.Machine.execSubmissionTake ring s
  | .ringNop ring => Sys2Proof.Machine.execRingNop ring s
  | .launch ring => Sys2Proof.Machine.execLaunch ring s
  | .jobComplete n => Sys2Proof.Machine.execJobComplete n s
  | .streamStart ring => Sys2Proof.Machine.execStreamStart ring s
  | .streamStop ring => Sys2Proof.Machine.execStreamStop ring s
  | .completionPost ring => Sys2Proof.Machine.execCompletionPost ring s
  | .snapshotWrite ring => Sys2Proof.Machine.execSnapshotWrite ring s
  | .heartbeatRead ring => Sys2Proof.Machine.execHeartbeatRead ring s
  | .reclaim ring => Sys2Proof.Machine.execReclaim ring s
  | .discard ring => Sys2Proof.Machine.execDiscard ring s
  | .doldrumsAutoEntry => Sys2Proof.Machine.execDoldrumsAutoEntry s
  | .mailboxSend c master whole data => Sys2Proof.Machine.execMailboxSend c master whole data s
  | .mailboxTake c master whole => Sys2Proof.Machine.execMailboxTake c master whole s
  | .mailboxLock master => Sys2Proof.Machine.execMailboxLock master s
  | .bootRom a b post => Sys2Proof.Machine.execBootRom a b post s
  | .runtimeLoad master => Sys2Proof.Machine.execRuntimeLoad master s
  | .runtimeLoadComplete c => Sys2Proof.Machine.execRuntimeLoadComplete c s
  | .watchdogFire core => Sys2Proof.Machine.execWatchdogFire core s
  | .coreFatalStop core mem => Sys2Proof.Machine.execCoreFatalStop core mem s
  | .workerRestart image => Sys2Proof.Machine.execWorkerRestart image s
  | .workerCatchUp worker => Sys2Proof.Machine.execWorkerCatchUp worker s
  | .supervisorRestart => Sys2Proof.Machine.execSupervisorRestart s
  | .jobPark => Sys2Proof.Machine.execJobPark s
  | .corePllUnlock q lines => Sys2Proof.Machine.execCorePllUnlock q lines s
  | .serializerPllUnlock q hbm => Sys2Proof.Machine.execSerializerPllUnlock q hbm s
  | .pllRelock q => Sys2Proof.Machine.execPllRelock q s
  | .droopStretch die region => Sys2Proof.Machine.execDroopStretch die region s
  | .powerSample volts amps => Sys2Proof.Machine.execPowerSample volts amps s
  | .busVoltageExcursion volts us => Sys2Proof.Machine.execBusVoltageExcursion volts us s
  | .doldrumsRequest master => Sys2Proof.Machine.execDoldrumsRequest master s
  | .becalmedRequest master => Sys2Proof.Machine.execBecalmedRequest master s
  | .wakeRequest master => Sys2Proof.Machine.execWakeRequest master s
  | .lowPowerEntry => Sys2Proof.Machine.execLowPowerEntry s
  | .lowPowerExit => Sys2Proof.Machine.execLowPowerExit s
  | .sensorSample die temps ring => Sys2Proof.Machine.execSensorSample die temps ring s
  | .statusWord pec => Sys2Proof.Machine.execStatusWord pec s
  | .busVoltageRead pec => Sys2Proof.Machine.execBusVoltageRead pec s
  | .inputCurrentRead pec => Sys2Proof.Machine.execInputCurrentRead pec s
  | .inputPowerRead pec => Sys2Proof.Machine.execInputPowerRead pec s
  | .headlandTemperatureRead pec => Sys2Proof.Machine.execHeadlandTemperatureRead pec s
  | .stackTemperatureRead pec => Sys2Proof.Machine.execStackTemperatureRead pec s
  | .harbourTemperatureRead pec => Sys2Proof.Machine.execHarbourTemperatureRead pec s
  | .laserTemperatureRead pec => Sys2Proof.Machine.execLaserTemperatureRead pec s
  | .stationTemperaturesRead pec => Sys2Proof.Machine.execStationTemperaturesRead pec s
  | .throttleRead pec => Sys2Proof.Machine.execThrottleRead pec s
  | .moduleIdRead pec => Sys2Proof.Machine.execModuleIdRead pec s
  | .smbusWake => Sys2Proof.Machine.execSmbusWake s
  | .strandlineSummary pec => Sys2Proof.Machine.execStrandlineSummary pec s
  | .entryPointer seq => Sys2Proof.Machine.execEntryPointer seq s
  | .entryRead pec => Sys2Proof.Machine.execEntryRead pec s
  | .signatureRead pec => Sys2Proof.Machine.execSignatureRead pec s
  | .faultEvent src => Sys2Proof.Machine.execFaultEvent src s
  | .faultWindowClose kind station unit => Sys2Proof.Machine.execFaultWindowClose kind station unit s
  | .recordForward level station child => Sys2Proof.Machine.execRecordForward level station child s
  | .breakwaterTrip cause votes station value us => Sys2Proof.Machine.execBreakwaterTrip cause votes station value us s
  | .breakwaterDisagreement ch value => Sys2Proof.Machine.execBreakwaterDisagreement ch value s
  | .bwtTighten master hdl hbm hrb cur => Sys2Proof.Machine.execBwtTighten master hdl hbm hrb cur s
  | .tripAcknowledge master => Sys2Proof.Machine.execTripAcknowledge master s
  | .faultInject master kind station unit cls ch go => Sys2Proof.Machine.execFaultInject master kind station unit cls ch go s
  | .moduleReset => Sys2Proof.Machine.execModuleReset s
  | .modRequest master key => Sys2Proof.Machine.execModRequest master key s
  | .moduleResetRelease a b post => Sys2Proof.Machine.execModuleResetRelease a b post s
  | .powerOn addrSel => Sys2Proof.Machine.execPowerOn addrSel s
  | .powerLoss torn => Sys2Proof.Machine.execPowerLoss torn s
  | .heartbeatSend => Sys2Proof.Machine.execHeartbeatSend s
  | .heartbeat h want ready => Sys2Proof.Machine.execHeartbeat h want ready s
  | .wantWrite master want => Sys2Proof.Machine.execWantWrite master want s
  | .delta h item => Sys2Proof.Machine.execDelta h item s
  | .bulk h item => Sys2Proof.Machine.execBulk h item s
  | .ack h => Sys2Proof.Machine.execAck h s
  | .trip h => Sys2Proof.Machine.execTrip h s
  | .health h worst row hbm tpl => Sys2Proof.Machine.execHealth h worst row hbm tpl s
  | .control h item => Sys2Proof.Machine.execControl h item s
  | .ackedSeqSend => Sys2Proof.Machine.execAckedSeqSend s
  | .frameResend port dseq => Sys2Proof.Machine.execFrameResend port dseq s
  | .twinPortDown port => Sys2Proof.Machine.execTwinPortDown port s
  | .linkDownDeclaration => Sys2Proof.Machine.execLinkDownDeclaration s
  | .arm master => Sys2Proof.Machine.execArm master s
  | .armingComplete => Sys2Proof.Machine.execArmingComplete s
  | .take master => Sys2Proof.Machine.execTake master s
  | .resume master => Sys2Proof.Machine.execResume master s
  | .twinSwitchover => Sys2Proof.Machine.execTwinSwitchover s
  | .handback peerHold => Sys2Proof.Machine.execHandback peerHold s
  | .standbyBist failed tpl => Sys2Proof.Machine.execStandbyBist failed tpl s
  | .attestRequest master addr => Sys2Proof.Machine.execAttestRequest master addr s
  | .attestComplete => Sys2Proof.Machine.execAttestComplete s
  | .cardInsertion cid image scripts => Sys2Proof.Machine.execCardInsertion cid image scripts s
  | .cardRemoval copying => Sys2Proof.Machine.execCardRemoval copying s
  | .scriptRead => Sys2Proof.Machine.execScriptRead s
  | .scriptWrite => Sys2Proof.Machine.execScriptWrite s
  | .scriptAttest => Sys2Proof.Machine.execScriptAttest s
  | .scriptWipe => Sys2Proof.Machine.execScriptWipe s
  | .stldump => Sys2Proof.Machine.execStldump s
  | .scriptWait => Sys2Proof.Machine.execScriptWait s
  | .modreset => Sys2Proof.Machine.execModreset s
  | .scriptEnd => Sys2Proof.Machine.execScriptEnd s
  | .updateRequest master c => Sys2Proof.Machine.execUpdateRequest master c s
  | .updateReady => Sys2Proof.Machine.execUpdateReady s
  | .updateConfirm => Sys2Proof.Machine.execUpdateConfirm s
  | .updateRollback => Sys2Proof.Machine.execUpdateRollback s
  | .seal => Sys2Proof.Machine.execSeal s
  | .stlSeal master => Sys2Proof.Machine.execStlSeal master s
  | .wipeRequest master key => Sys2Proof.Machine.execWipeRequest master key s
  | .handoverWipe => Sys2Proof.Machine.execHandoverWipe s
  | .portLinkUp port speed width flit => Sys2Proof.Machine.execPortLinkUp port speed width flit s
  | .cartridgeInsertion serial rev => Sys2Proof.Machine.execCartridgeInsertion serial rev s
  | .supervisorRestartComplete => Sys2Proof.Machine.execSupervisorRestartComplete s
  | .sealSignatureDone => Sys2Proof.Machine.execSealSignatureDone s
  | .tidepoolLineScrub die line => Sys2Proof.Machine.execTidepoolLineScrub die line s
  | .heartbeatIntervalMissed port => Sys2Proof.Machine.execHeartbeatIntervalMissed port s

end Sys2Proof.Machine
end

