-- ==== Sys2Proof/Safety.lean ====
section
/-! DEFINITION. What the statements mean by a good state and a good outcome. -/
namespace Sys2Proof.Machine

/-- The command completes: it answers a next state, and that state holds `p`. -/
def Yields (i : Instr) (s : State) (p : State → Prop) : Prop := ∃ t, exec i s = .next t ∧ p t

/-- The canonical form of one tile's stores: its registers, tile store and instruction buffer. -/
def Tile.wf (t : Tile) : Bool :=
  smWf (fun _ => 0) t.s && smWf (fun _ => 0) t.v && smWf (fun _ => 0) t.p && smWf (fun _ => 0) t.a
  && smWf (fun _ => 0) t.b && smWf (fun _ => 0) t.k && Memory.wf t.store && smWf (fun _ => 0) t.ibuf

/-- The canonical form of the block's addressed stores: the register file, HBM, and the tiles. -/
def State.wf (s : State) : Bool :=
  smWf regDefault s.regs && Memory.wf s.hbm && smWf (fun _ => Tile.reset) s.tiles && s.tiles.all fun e => e.2.wf

/-! ### One tile -/

/-- The tile a slot operation acts on. -/
def State.here (s : State) (pt : At) : Tile := s.tile (tileKey pt.die pt.tile)

/-- Nothing on its way in the tile: no result, matrix operation, held access or accumulator write pending, no
fault waiting for the collector. -/
def Tile.quiet (t : Tile) : Bool :=
  t.pend.isEmpty && t.mats.isEmpty && t.delayed.isEmpty && t.held.isEmpty && t.rep.isEmpty

/-- The move engine takes a command issued in cycle `c` at once: quiet, nothing queued, no start in the next cycle yet. -/
def Tile.moveFree (t : Tile) (c : Nat) : Bool := t.quiet && t.queue.isEmpty && decide (t.lastStart ≤ c)

/-- Length of a move command in 32 B units, and its local start address (R136). -/
def moveLen (t : Tile) (o : MV) : Nat := if o.len = 0 then (t.rdS o.sc).toNat % 65536 else o.len.toNat
def moveLocal (t : Tile) (o : MV) : Nat := (t.rdS o.sa).toNat / 32 * 32
/-- The local range lies in the tile store. -/
def moveFits (t : Tile) (o : MV) : Prop := (t.rdS o.sa).toNat < 1048576 ∧ moveLocal t o + 32 * moveLen t o ≤ 1048576

/-- Move command `id` of the tile has started: it reports to counter `k`, has code `code` so far and `left` parts
outstanding; nothing is queued. -/
def Started (t : Tile) (id : Nat) (k : BitVec 4) (code left : Nat) : Prop :=
  t.queue = [] ∧ ∃ a ∈ t.active, a.cmd.id = id ∧ a.cmd.k = k ∧ a.code = code ∧ a.left = left

/-- Everything but the one tile is as before. -/
def OnlyTile (pt : At) (s t : State) : Prop :=
  { t with tiles := s.tiles } = s ∧ ∀ k, k ≠ tileKey pt.die pt.tile → t.tile k = s.tile k

/-- Every register bit outside the listed fields is as before. -/
def RegsBut (fs : List (Fld × Nat)) (s t : State) : Prop :=
  ∀ key b, (∀ x ∈ fs, regKey x.1.reg x.2 = key → b < x.1.lo ∨ x.1.lo + x.1.wd ≤ b) →
    (smGet regDefault t.regs key).getLsbD b = (smGet regDefault s.regs key).getLsbD b

/-- The operations of the move slot and the kinds of command they queue. -/
def moveSlot : List ((At → MV → Instr) × MvKind) :=
  [(.tpld, .tpld), (.tpst, .tpst), (.msend, .msend), (.otxa, .otxa), (.orxa, .orxa), (.hbrd, .hbrd), (.hbwr, .hbwr), (.ibld, .ibld),
   (.kvapp, .kvapp), (.kvgth, .kvgth), (.kvbws, .kvbws), (.note, .note), (.fld, .fld), (.fst, .fst), (.fatm, .fatm)]

/-- No request waits at a station's memory-channel port. -/
def State.portClear (s : State) (q : Nat) : Prop := ∀ x ∈ s.mwait, x.1.q ≠ q ∧ x.1.uid ≠ s.reqNo
/-- From `s` to `t`, station `q` asks the stack that owns `m.pa` with message `m` for `dest`: the request is outstanding with a free
identifier and its message is queued toward the stack, or it waits at the port (R262). HBM and registers are as before. `meant` is the part
of its units that the Harbour station means. -/
def State.asks (s t : State) (dest : MDest) (q : Nat) (m : MMsg) (meant : Option (Nat × Nat) := none) : Prop :=
  let k := paStack m.pa
  let r : MemReq := ⟨s.reqNo, q, k, 0, m.typ, m.pa, m.len, meant, dest, m.stream, 0, [], 0,
    if m.typ = 1 then leBytes (32 * m.len) 0 else [], if m.typ = 1 then List.replicate m.len false else [], false⟩
  t.hbm = s.hbm ∧ t.regs = s.regs ∧ t.raised = s.raised ∧
  (∀ rid, s.mayIssue r = true → s.freeRid q k = some rid → t.mwait = s.mwait ∧
    t.mreqs = s.mreqs ++ [{ r with rid := rid, wall := s.wall }] ∧ t.mout = s.mout ++ [(q, 24 + k, { m with rid := rid })]) ∧
  (s.mayIssue r = false ∨ s.freeRid q k = none → t.mreqs = s.mreqs ∧ t.mout = s.mout ∧ t.mwait = s.mwait ++ [(r, m)])

/-- `bs` is what a Tidepool may serve for sectors lo to lo + n − 1 of a line: each sector whole, as the line holds it, or
for a clean sector as HBM holds it (R165; the two differ only after a write past the Tidepool). -/
def State.poolServes (s : State) (d line lo n : Nat) (bs : List Byte) : Prop :=
  bs.length = 32 * n ∧ ∀ i, i < n → (bs.drop (32 * i)).take 32 = (s.line d line).bytes (lo + i) 1 ∨
    ((s.line d line).dirty.getLsbD (lo + i) = false ∧ (bs.drop (32 * i)).take 32 = memBytes s.hbm (512 * line + 32 * (lo + i)) 32)

/-- An access of the Harbour die to a range of HBM meets no fault: populated addresses, a path to the stack, and no
block with an error or poison. -/
def State.hbmReady (s : State) (pa len : Nat) : Prop :=
  paOk pa len = true ∧ s.harbourPath (paStack pa) = 0 ∧ s.undec = [] ∧ s.hbmPoison = []
/-- HBM holds `bs` from `pa` on, and every other byte is as before. -/
def HbmPut (pa : Nat) (bs : List Byte) (s t : State) : Prop :=
  ∀ a, memGet t.hbm a = if pa ≤ a ∧ a < pa + bs.length then bs.getD (a - pa) 0 else memGet s.hbm a

/-- The same architectural registers and stores (Table 3-1). -/
def Tile.sameState (a b : Tile) : Prop :=
  a.s = b.s ∧ a.v = b.v ∧ a.p = b.p ∧ a.a = b.a ∧ a.b = b.b ∧ a.k = b.k ∧ a.tctl = b.tctl ∧ a.tstat = b.tstat
  ∧ a.store = b.store ∧ a.ibuf = b.ibuf ∧ a.pc = b.pc ∧ a.loops = b.loops ∧ a.queue = b.queue

/-- As `ResultAfter`, with a relation between the tile as it would have been and the tile as it is. -/
def ResultHolds (i : Instr) (pt : At) (latency : Nat) (s : State) (r : Tile → Tile → Prop) : Prop :=
  Yields i s fun t => OnlyTile pt s t ∧
    (∀ c, pt.cyc ≤ c → c < pt.cyc + latency → ((t.here pt).settle c).sameState (s.here pt)) ∧
    (∀ c, pt.cyc + latency ≤ c → r ((s.here pt).settle c) ((t.here pt).settle c))

/-- The command changes nothing but its tile. Through the cycle in which the latency expires the tile's registers
and stores are as before; from the next cycle on the tile is what `f` makes of it (R55, R96). -/
def ResultAfter (i : Instr) (pt : At) (latency : Nat) (s : State) (f : Tile → Tile) : Prop :=
  Yields i s fun t => OnlyTile pt s t ∧
    (∀ c, pt.cyc ≤ c → c < pt.cyc + latency → ((t.here pt).settle c).sameState (s.here pt)) ∧
    (∀ c, pt.cyc + latency ≤ c → (t.here pt).settle c = f ((s.here pt).settle c))

/-- What an operation on 32-bit lanes leaves in a tile: an enabled lane of V[VD] takes `g`, a disabled one keeps
its value, and nothing else changes (R58, R121). -/
structure LanesDone (vd : BitVec 5) (p : W64) (g : Nat → W32) (old new : Tile) : Prop where
  value : ∀ i, i < 64 → lane (new.rdV vd) i = if p.getLsbD i then g i else lane (old.rdV vd) i
  others : ∀ r, r ≠ vd → new.rdV r = old.rdV r
  frame : { new with v := old.v } = old

/-- Element `e` of width `w` is enabled by the predicate bit of its lane (R58). -/
def elemOn (p : W64) (w e : Nat) : Bool := p.getLsbD (e * w / 32)
/-- Enabled elements below `e`. -/
def onBefore (on : Nat → Bool) (e : Nat) : Nat := ((List.range e).filter on).length

/-- What an element-wise operation leaves in a tile (R37, R39, R47, R58): `n` elements of width `w` from bit `dst` of
V[VD] take the code of `f e u`, `u` the generator value drawn for element `e`; disabled elements and the other bits stay;
the flags of the enabled elements accumulate; nothing else changes. -/
structure ElemsDone (pt : At) (vd : BitVec 5) (dst w n : Nat) (on : Nat → Bool) (draws : Bool) (f : Nat → Nat → Nat × Flags)
    (old new : Tile) : Prop where
  value : ∀ e, e < n → on e = true → bitsN (new.rdV vd).toNat (dst + w * e) w =
    (f e (if draws then old.rnd pt.die.val pt.tile.val (onBefore on e) else 0)).1 % 2 ^ w
  kept : ∀ e, e < n → on e = false → bitsN (new.rdV vd).toNat (dst + w * e) w = bitsN (old.rdV vd).toNat (dst + w * e) w
  beside : ∀ b, b < dst ∨ dst + w * n ≤ b → (new.rdV vd).getLsbD b = (old.rdV vd).getLsbD b
  flags : ∀ b, b < 64 → new.tstat.getLsbD b = (old.tstat.getLsbD b || (List.range n).any fun e =>
    on e && (f e (if draws then old.rnd pt.die.val pt.tile.val (onBefore on e) else 0)).2.getLsbD b)
  generator : new.tgen = old.tgen + BitVec.ofNat 64 (if draws then onBefore on n else 0)
  others : ∀ r, r ≠ vd → new.rdV r = old.rdV r
  frame : { new with v := old.v, tstat := old.tstat, tgen := old.tgen } = old

/-- A slot operation's encoding meets no cause. -/
def Legal (s : State) (i : Instr) : Prop := i.cause s.caps = 0

end Sys2Proof.Machine
end

