-- ==== Sys2Proof/Certificates/Slice0/Obligations.lean ====
section
/-! DEFINITION. The statements about the model. -/
open Sys2Proof Sys2Proof.Machine

/-- R133, R134, R57, R54, R55, R96: every scalar operation on two registers leaves its result in S[SD], readable from
cycle t + L on, reads its sources in the issue cycle, discards a write to S0 and changes nothing else. -/
def Says.ScalarRegisterOps : Prop :=
  ∀ x ∈ ([(.add, 1, (· + ·)), (.sub, 1, (· - ·)), (.and, 1, (· &&& ·)), (.or, 1, (· ||| ·)), (.xor, 1, (· ^^^ ·)),
      (.sll, 1, fun a b => a <<< (b.toNat % 64)), (.srl, 1, fun a b => a >>> (b.toNat % 64)),
      (.sra, 1, fun a b => a.sshiftRight (b.toNat % 64)),
      (.slt, 1, fun a b => if a.toInt < b.toInt then 1 else 0), (.sltu, 1, fun a b => if a.toNat < b.toNat then 1 else 0),
      (.min, 1, fun a b => if a.toInt < b.toInt then a else b), (.max, 1, fun a b => if a.toInt < b.toInt then b else a),
      (.minu, 1, fun a b => if a.toNat < b.toNat then a else b), (.maxu, 1, fun a b => if a.toNat < b.toNat then b else a),
      (.mul, 3, (· * ·)), (.mulh, 3, fun a b => BitVec.ofInt 64 (a.toInt * b.toInt / 2 ^ 64)),
      (.mulhu, 3, fun a b => BitVec.ofNat 64 (a.toNat * b.toNat / 2 ^ 64)),
      (.div, 20, fun a b => if b = 0 then BitVec.allOnes 64 else BitVec.ofInt 64 (a.toInt.tdiv b.toInt)),
      (.divu, 20, fun a b => if b = 0 then BitVec.allOnes 64 else BitVec.ofNat 64 (a.toNat / b.toNat)),
      (.rem, 20, fun a b => if b = 0 then a else BitVec.ofInt 64 (a.toInt.tmod b.toInt)),
      (.remu, 20, fun a b => if b = 0 then a else BitVec.ofNat 64 (a.toNat % b.toNat))]
      : List ((At → SR → Instr) × Nat × (W64 → W64 → W64))),
    ∀ (pt : At) (o : SR) (s : State), (s.here pt).quiet = true →
      ResultAfter (x.1 pt o) pt x.2.1 s fun T => T.wrS o.sd (x.2.2 ((s.here pt).rdS o.sa) ((s.here pt).rdS o.sb))

/-- R133, R134, R89: the immediate forms, LI and LIH. A shift takes its count from IMM30; bits [29:6] must be zero. -/
def Says.ScalarImmediateOps : Prop :=
  (∀ x ∈ ([(.addi, (· + ·)), (.andi, (· &&& ·)), (.ori, (· ||| ·)), (.xori, (· ^^^ ·)),
      (.slti, fun a b => if a.toInt < b.toInt then 1 else 0), (.sltiu, fun a b => if a.toNat < b.toNat then 1 else 0)]
      : List ((At → SI → Instr) × (W64 → W64 → W64))),
    ∀ (pt : At) (o : SI) (s : State), (s.here pt).quiet = true →
      ResultAfter (x.1 pt o) pt 1 s fun T => T.wrS o.sd (x.2 ((s.here pt).rdS o.sa) (o.imm.signExtend 64))) ∧
  (∀ x ∈ ([(.slli, (· <<< ·)), (.srli, (· >>> ·)), (.srai, BitVec.sshiftRight)]
      : List ((At → SI → Instr) × (W64 → Nat → W64))),
    ∀ (pt : At) (o : SI) (s : State), (s.here pt).quiet = true → o.imm.toNat < 64 →
      ResultAfter (x.1 pt o) pt 1 s fun T => T.wrS o.sd (x.2 ((s.here pt).rdS o.sa) o.imm.toNat)) ∧
  (∀ (pt : At) (o : SL) (s : State), (s.here pt).quiet = true →
      ResultAfter (.li pt o) pt 1 s fun T => T.wrS o.sd (BitVec.ofInt 64 o.imm.toInt)) ∧
  (∀ (pt : At) (o : SL) (s : State), (s.here pt).quiet = true →
      ResultAfter (.lih pt o) pt 1 s fun T =>
        T.wrS o.sd (BitVec.ofNat 64 (o.imm.toNat * 2 ^ 32 + ((s.here pt).rdS o.sd).toNat % 2 ^ 32)))

/-- R133, R135, R64 to R68: LANE, CRR of every control register and CRW of every control register. A write takes effect
from the next cycle on; a read of TTIME is the region's tide counter; TILE and STATION of TCTL are the tile's own. -/
def Says.ScalarLaneAndControlRegisters : Prop :=
  (∀ (pt : At) (o : SR) (s : State), (s.here pt).quiet = true →
      ResultAfter (.lane pt o) pt 2 s fun T =>
        T.wrS o.sd ((lane ((s.here pt).rdV o.sa) (((s.here pt).rdS o.sb).toNat % 64)).setWidth 64)) ∧
  (∀ (pt : At) (o : SC) (s : State), (s.here pt).quiet = true → o.sa = 0 → ∀ v,
      (o.cr = 0 ∧ v = (s.here pt).tctl ||| BitVec.ofNat 64 (pt.tile.val * 2 ^ 48 + pt.die.val * 2 ^ 56)) ∨
      (o.cr = 1 ∧ v = (s.here pt).tstat) ∨
      (o.cr = 2 ∧ v = BitVec.ofNat 64 (s.region (pt.die.val * 4 + pt.tile.val / 64)).tick) ∨
      (o.cr = 3 ∧ v = (s.here pt).tgen) ∨
      (16 ≤ o.cr.toNat ∧ v = ((s.here pt).rdK (BitVec.ofNat 4 (o.cr.toNat - 16))).setWidth 64) →
      ResultAfter (.crr pt o) pt 1 s fun T => T.wrS o.sd v) ∧
  (∀ (pt : At) (o : SC) (s : State), (s.here pt).quiet = true → o.sd = 0 →
      let v := (s.here pt).rdS o.sa
      (o.cr = 0 → ResultAfter (.crw pt o) pt 1 s fun T => { T with tctl := v &&& 0x0000FFFFFFFF003F }) ∧
      (o.cr = 1 → ResultAfter (.crw pt o) pt 1 s fun T => { T with tstat := T.tstat &&& ~~~v }) ∧
      (o.cr = 2 → ResultAfter (.crw pt o) pt 1 s fun T => T) ∧
      (o.cr = 3 → ResultAfter (.crw pt o) pt 1 s fun T => { T with tgen := v }) ∧
      (16 ≤ o.cr.toNat → ResultAfter (.crw pt o) pt 1 s fun T =>
        { T.wrK (BitVec.ofNat 4 (o.cr.toNat - 16)) (v.setWidth 32 &&& 0x7FFFFFFF) with
          kcode := T.kcode &&& ~~~((1 : BitVec 16) <<< (o.cr.toNat % 16)) }))

/-- The parts above, together. -/
def Obligations.ScalarOperations : Prop := Says.ScalarRegisterOps ∧ Says.ScalarImmediateOps ∧ Says.ScalarLaneAndControlRegisters

/-- R121, R58, R54: the integer and logic operations of the vector slot, lane by lane, with their latencies; they set no flag. -/
def Says.VectorLaneOps : Prop :=
  (∀ x ∈ ([(.viadd, (· + ·)), (.visub, (· - ·)), (.vimul, (· * ·)), (.vand, (· &&& ·)), (.vor, (· ||| ·)), (.vxor, (· ^^^ ·)),
      (.vshl, fun a b => a <<< (b.toNat % 32)), (.vshr, fun a b => a >>> (b.toNat % 32)),
      (.vsra, fun a b => a.sshiftRight (b.toNat % 32)),
      (.vimin, fun a b => if a.toInt < b.toInt then a else b), (.vimax, fun a b => if a.toInt < b.toInt then b else a)]
      : List ((At → VR → Instr) × (W32 → W32 → W32))),
    ∀ (pt : At) (o : VR) (s : State), (s.here pt).quiet = true → Legal s (x.1 pt o) →
      ResultHolds (x.1 pt o) pt 2 s (LanesDone o.vd ((s.here pt).rdP o.pr)
        fun i => x.2 (lane ((s.here pt).rdV o.va) i) (lane ((s.here pt).rdV o.vb) i))) ∧
  (∀ (pt : At) (o : VS) (s : State), (s.here pt).quiet = true → Legal s (.viadds pt o) →
      ResultHolds (.viadds pt o) pt 2 s (LanesDone o.vd ((s.here pt).rdP o.pr)
        fun i => lane ((s.here pt).rdV o.va) i + ((s.here pt).rdS o.sb).setWidth 32)) ∧
  (∀ (pt : At) (o : VI) (s : State), (s.here pt).quiet = true → Legal s (.vmovi pt o) →
      ResultHolds (.vmovi pt o) pt 2 s (LanesDone o.vd ((s.here pt).rdP o.pr) fun _ => o.imm) ∧
      ResultHolds (.vidx pt o) pt 2 s (LanesDone o.vd ((s.here pt).rdP o.pr) fun i => o.imm + BitVec.ofNat 32 i))

/-- R121, R130: lane selection, permutation, compression by a predicate, and the predicate count. -/
def Says.VectorPermutes : Prop :=
  ∀ (pt : At) (o : VR) (s : State), (s.here pt).quiet = true →
    let T := s.here pt
    let pc := T.rdP (o.vc.setWidth 3)
    (Legal s (.vsel pt o) → ResultHolds (.vsel pt o) pt 2 s (LanesDone o.vd (T.rdP o.pr) fun i =>
      if pc.getLsbD i then lane (T.rdV o.va) i else lane (T.rdV o.vb) i)) ∧
    (Legal s (.vperm pt o) → ResultHolds (.vperm pt o) pt 4 s (LanesDone o.vd (T.rdP o.pr) fun i =>
      lane (T.rdV o.va) ((lane (T.rdV o.vb) i).toNat % 64))) ∧
    (Legal s (.vcmpr pt o) → ResultHolds (.vcmpr pt o) pt 4 s (LanesDone o.vd (BitVec.allOnes 64) fun k =>
      match (List.range 64).find? fun j => pc.getLsbD j && onBefore pc.getLsbD j == k with
      | some j => lane (T.rdV o.va) j
      | none => 0)) ∧
    (Legal s (.pcnt pt o) → ResultHolds (.pcnt pt o) pt 2 s (LanesDone o.vd (T.rdP o.pr) fun _ =>
      BitVec.ofNat 32 (onBefore (T.rdP (o.va.setWidth 3)).getLsbD 64)))

/-- R121, R124, R37 to R41, R46 to R48: the floating-point operations of the vector slot on two or three registers, element
by element, with their latencies, flags and generator draws. -/
def Says.VectorFloatOps : Prop :=
  ∀ x ∈ ([(.vadd, 4, true, fun ff v u a b _ => fAdd ff v u a b), (.vsub, 4, true, fun ff v u a b _ => fSub ff v u a b),
      (.vmul, 4, true, fun ff v u a b _ => fMul ff v u a b), (.vfma, 4, true, fFma),
      (.vmin, 4, false, fun ff v _ a b _ => minMaxF ff v.flush false a b),
      (.vmax, 4, false, fun ff v _ a b _ => minMaxF ff v.flush true a b),
      (.vabs, 2, false, fun ff v _ a _ _ => fSign ff v (fun _ => false) a), (.vneg, 2, false, fun ff v _ a _ _ => fSign ff v (fun b => !b) a),
      (.vrcp, 8, true, fun ff v u a _ _ => fRcp ff v u a), (.vsqrt, 8, true, fun ff v u a _ _ => fSqrt ff v u a),
      (.vrsq, 8, false, fun ff v _ a _ _ => fRsq ff v a),
      (.vexp2, 8, false, fun ff v _ a _ _ => fExp2 ff v 0x1B a 0 (readF ff v.flush a, 0)),
      (.vlog2, 8, false, fun ff v _ a _ _ => fLog2 ff v a),
      (.vexd, 8, false, fun ff v _ a b _ => fExp2 ff v 0x1D a b (addV .rne (readF ff v.flush a) (readF ff v.flush b).neg))]
      : List ((At → VR → Instr) × Nat × Bool × (FFmt → FEnv → Nat → Nat → Nat → Nat → Nat × Flags))),
    ∀ (pt : At) (o : VR) (s : State) (ff : FFmt), (s.here pt).quiet = true → Legal s (x.1 pt o) →
      ff = [fp32, fp16, bf16].getD o.fmt.toNat fp32 →
      let T := s.here pt
      let v := T.env o.rm
      ResultHolds (x.1 pt o) pt x.2.1 s (ElemsDone pt o.vd 0 ff.width (2048 / ff.width) (elemOn (T.rdP o.pr) ff.width)
        (x.2.2.1 && v.md == .sr) fun e u =>
          x.2.2.2 ff v u (elemN ff.width e (T.rdV o.va).toNat) (elemN ff.width e (T.rdV o.vb).toNat) (elemN ff.width e (T.rdV o.vc).toNat))

/-- R121, R123: the forms whose second operand is one scalar, broadcast to every element. -/
def Says.VectorScalarFloatOps : Prop :=
  ∀ x ∈ ([(.vadds, true, fun ff v u a b _ => fAdd ff v u a b), (.vmuls, true, fun ff v u a b _ => fMul ff v u a b),
      (.vfmas, true, fFma), (.vmaxs, false, fun ff v _ a b _ => minMaxF ff v.flush true a b)]
      : List ((At → VS → Instr) × Bool × (FFmt → FEnv → Nat → Nat → Nat → Nat → Nat × Flags))),
    ∀ (pt : At) (o : VS) (s : State) (ff : FFmt), (s.here pt).quiet = true → Legal s (x.1 pt o) →
      ff = [fp32, fp16, bf16].getD o.fmt.toNat fp32 →
      let T := s.here pt
      let v := T.env o.rm
      ResultHolds (x.1 pt o) pt 4 s (ElemsDone pt o.vd 0 ff.width (2048 / ff.width) (elemOn (T.rdP o.pr) ff.width)
        (x.2.1 && v.md == .sr) fun e u =>
          x.2.2 ff v u (elemN ff.width e (T.rdV o.va).toNat) ((T.rdS o.sb).toNat % 2 ^ ff.width) (elemN ff.width e (T.rdV o.vc).toNat))

/-- The parts above, together.
The model's choices it rests on: log 3, 13, 17. -/
def Obligations.VectorFloatArithmetic : Prop := Says.VectorFloatOps ∧ Says.VectorScalarFloatOps

/-- R125, R42 to R46: VCVT places element e of part PT, of n = 2,048 ÷ the wider width, at the width of each side;
predicated by the wider side's lane. -/
def Says.VectorConversion : Prop :=
  ∀ (pt : At) (o : VR) (s : State), (s.here pt).quiet = true → Legal s (.vcvt pt o) →
    let T := s.here pt
    let f := o.fmt.toNat
    let g := o.mod.toNat % 16
    let part := o.mod.toNat / 16 % 8
    let wide := max (fmtBits f) (fmtBits g)
    let n := 2048 / wide
    let src := if fmtBits f < fmtBits g then part * n * fmtBits f else 0
    let dst := if fmtBits g < fmtBits f then part * n * fmtBits g else 0
    ResultHolds (.vcvt pt o) pt 3 s (ElemsDone pt o.vd dst (fmtBits g) n (elemOn (T.rdP o.pr) wide)
      (!(decide (fmtBits f < fmtBits g) && decide (g ≤ 2)) && (T.env o.rm).md == .sr) fun e u =>
        convElem f g (T.env o.rm) u (bitsN (T.rdV o.va).toNat (src + fmtBits f * e) (fmtBits f)))

/-- R126, R45: VCVTX gives each block of 32 a scale byte in V[VC] and its elements in V[VD]; a block that holds a NaN or an
infinity takes scale 0xFF and elements of 0 and sets NV. Element codes are stated for the rounding modes without draws; with
VC = VD the bits that both results reach are left open (log 83). -/
def Says.VectorBlockConversion : Prop :=
  ∀ (pt : At) (o : VR) (s : State), (s.here pt).quiet = true → Legal s (.vcvtx pt o) →
    let T := s.here pt
    let v := T.env o.rm
    let ff := (fmtOf o.fmt.toNat).getD fp32
    let tf := (fmtOf (o.mod.toNat % 16)).getD e4m3
    let part := o.mod.toNat / 16 % 8
    let n := 2048 / ff.width
    let block := fun b => (List.range 32).map fun e => elemN ff.width (32 * b + e) (T.rdV o.va).toNat
    let data := part * n * tf.width
    let scale := 8 * (part * n / 32)
    let inData := fun k => data ≤ k ∧ k < data + n * tf.width
    let inScale := fun k => scale ≤ k ∧ k < scale + n / 4
    ResultHolds (.vcvtx pt o) pt 3 s fun old new =>
      (∀ b, b < n / 32 → (o.vd = o.vc → scale + 8 * b + 8 ≤ data ∨ data + n * tf.width ≤ scale + 8 * b) →
        bitsN (new.rdV o.vc).toNat (scale + 8 * b) 8 = (mxScale ff tf v.flush (block b)).getD 255) ∧
      (∀ k, ¬inScale k → (o.vd = o.vc → ¬inData k) → (new.rdV o.vc).getLsbD k = (old.rdV o.vc).getLsbD k) ∧
      (v.md ≠ .sr → ∀ b, b < n / 32 → ∀ e, e < 32 →
        let at_ := data + tf.width * (32 * b + e)
        (o.vd = o.vc → at_ + tf.width ≤ scale ∨ scale + n / 4 ≤ at_) → bitsN (new.rdV o.vd).toNat at_ tf.width =
          match mxScale ff tf v.flush (block b), readF ff v.flush ((block b).getD e 0) with
          | some x, .fin sg m y => (roundF tf v.md 0 true false sg m (y - ((x : Int) - 127)) false).1 % 2 ^ tf.width
          | _, _ => 0) ∧
      (∀ k, ¬inData k → (o.vd = o.vc → ¬inScale k) → (new.rdV o.vd).getLsbD k = (old.rdV o.vd).getLsbD k) ∧
      ((∃ b, b < n / 32 ∧ mxScale ff tf v.flush (block b) = none) → new.tstat.getLsbD 0 = true) ∧
      (v.md ≠ .sr → new.tgen = old.tgen) ∧
      (∀ r, r ≠ o.vd → r ≠ o.vc → new.rdV r = old.rdV r) ∧
      { new with v := old.v, tstat := old.tstat, tgen := old.tgen, free := old.free } = old

/-- The parts above, together.
The model's choices it rests on: log 7, 17, 83. -/
def Obligations.VectorConversions : Prop := Says.VectorConversion ∧ Says.VectorBlockConversion

/-- R127, R128: the reductions give every enabled element one value. VRSUM is the sum tree over the enabled elements;
VRMAX and VRMIN give the extreme enabled value, or with MOD[0] = 1 the lowest index that holds it, a NaN only where every
enabled element is one. With no element enabled nothing is written.
The model's choices it rests on: log 16. -/
def Obligations.VectorReductions : Prop :=
  ∀ (pt : At) (o : VR) (s : State) (ff : FFmt), (s.here pt).quiet = true → ff = [fp32, fp16, bf16].getD o.fmt.toNat fp32 →
    let T := s.here pt
    let w := ff.width
    let n := 2048 / w
    let on := elemOn (T.rdP o.pr) w
    let a := fun e => elemN w e (T.rdV o.va).toNat
    (Legal s (.vrsum pt o) →
      let v : FEnv := { T.env o.rm with md := if (T.env o.rm).md = .sr then .rne else (T.env o.rm).md }
      let r := sumTree ff v 7 ((List.range n).map fun e => if on e then some (a e) else none) 0
      ResultHolds (.vrsum pt o) pt 6 s fun old new =>
        (∀ e, e < n → elemN w e (new.rdV o.vd).toNat = if on e then r.1.getD 0 % 2 ^ w else elemN w e (old.rdV o.vd).toNat) ∧
        (new.tstat = old.tstat ||| r.2.setWidth 64) ∧ (∀ q, q ≠ o.vd → new.rdV q = old.rdV q) ∧
        { new with v := old.v, tstat := old.tstat } = old) ∧
    (∀ x ∈ ([(.vrmax, fun p q => decide (q ≤ p)), (.vrmin, fun p q => decide (p ≤ q))] : List ((At → VR → Instr) × (Int → Int → Bool))),
      Legal s (x.1 pt o) →
      let num := fun e => on e && !(decodeF ff (a e)).isNan
      let key := fun e => fkeyZ ff (flushCode ff T.flushOn (a e))
      let best := (List.range n).find? fun e => num e && (List.range n).all fun d => !num d || x.2 (key e) (key d)
      ResultHolds (x.1 pt o) pt 6 s fun old new =>
        ((∃ e, e < n ∧ on e = true) → o.mod = 0 → ∀ e, e < n → elemN w e (new.rdV o.vd).toNat =
          if on e then (match best with | some b => flushCode ff T.flushOn (a b) | none => nanCode ff) % 2 ^ w
          else elemN w e (old.rdV o.vd).toNat) ∧
        ((∃ e, e < n ∧ on e = true) → o.mod = 1 → ∀ i, i < 64 → lane (new.rdV o.vd) i =
          if (T.rdP o.pr).getLsbD i then (match best with | some b => BitVec.ofNat 32 b | none => 0xFFFFFFFF) else lane (old.rdV o.vd) i) ∧
        (∀ q, q ≠ o.vd → new.rdV q = old.rdV q) ∧ { new with v := old.v, tstat := old.tstat } = old)

/-- R129: one compare-exchange step of a bitonic merge: keys of V[VA] go to V[VD], payloads of V[VB] to V[VC]; each pair
of lanes 2^D apart swaps when its keys stand against the direction that bit S of the lane gives; NaN ranks lowest, a
signalling one sets NV; a reserved distance, stage, format or field does not issue. -/
def Obligations.VectorMergeStep : Prop :=
  (∀ (pt : At) (o : VR) (caps : Nat),
    let d := o.mod.toNat % 8
    let stage := o.mod.toNat / 8 % 8
    (Instr.vbmrg pt o).cause caps = if 64 ≤ o.mod.toNat ∨ o.pr ≠ 0 ∨ o.rm ≠ 0 then 3 else if o.fmt ≠ 0 then 4
      else if 6 ≤ d ∨ stage = 0 ∨ stage = 7 ∨ o.vd = o.vc then 8 else 0) ∧
  (∀ (pt : At) (o : VR) (s : State), (s.here pt).quiet = true → Legal s (.vbmrg pt o) →
    let T := s.here pt
    let d := 2 ^ (o.mod.toNat % 8)
    let rank := fun i => if (decodeF fp32 (lane (T.rdV o.va) i).toNat).isNan then -(2 ^ 40 : Int)
      else fkeyZ fp32 (flushCode fp32 T.flushOn (lane (T.rdV o.va) i).toNat)
    ResultHolds (.vbmrg pt o) pt 4 s fun old new =>
      (∀ i, i < 64 → i / d % 2 = 0 →
        let swap := if i / 2 ^ (o.mod.toNat / 8 % 8) % 2 = 0 then decide (rank i < rank (i + d)) else decide (rank (i + d) < rank i)
        let p := if swap then i + d else i
        let q := if swap then i else i + d
        lane (new.rdV o.vd) i = lane (T.rdV o.va) p ∧ lane (new.rdV o.vd) (i + d) = lane (T.rdV o.va) q ∧
        lane (new.rdV o.vc) i = lane (T.rdV o.vb) p ∧ lane (new.rdV o.vc) (i + d) = lane (T.rdV o.vb) q) ∧
      (∀ r, r ≠ o.vd → r ≠ o.vc → new.rdV r = old.rdV r) ∧
      new.tstat = (old.tstat ||| if (List.range 64).any (fun i => (decodeF fp32 (lane (T.rdV o.va) i).toNat).isSig) = true then fNV.setWidth 64 else 0) ∧
      { new with v := old.v, tstat := old.tstat } = old)

/-- R131, R121, R54: VCMP writes the enabled bits of P[PD] and sets NV for a signalling or unordered comparison; the
predicate logic writes all 64 bits; a write to P0 is discarded. -/
def Says.PredicateOps : Prop :=
  ∀ (pt : At) (o : VP) (s : State), (s.here pt).quiet = true →
    let T := s.here pt
    (∀ x ∈ ([(.pand, (· &&& ·)), (.por, (· ||| ·)), (.pxor, (· ^^^ ·))] : List ((At → VP → Instr) × (W64 → W64 → W64))),
      Legal s (x.1 pt o) → ResultAfter (x.1 pt o) pt 2 s fun t =>
        if o.pd = 0 then t
        else { t with p := smSet (fun _ => 0) t.p o.pd.toNat (x.2 (T.rdP (o.va.setWidth 3)) (T.rdP (o.vb.setWidth 3))) }) ∧
    (Legal s (.vcmp pt o) → ResultHolds (.vcmp pt o) pt 2 s fun old new =>
      let r := fun i => if o.mod.toNat / 8 % 2 = 1 then (cmpI (o.mod.toNat % 8) (lane (T.rdV o.va) i) (lane (T.rdV o.vb) i), false)
        else cmpF T.flushOn (o.mod.toNat % 8) (lane (T.rdV o.va) i).toNat (lane (T.rdV o.vb) i).toNat
      (∀ i, i < 64 → (new.rdP o.pd).getLsbD i =
        if o.pd = 0 then true else if (T.rdP o.pr).getLsbD i then (r i).1 else (old.rdP o.pd).getLsbD i) ∧
      (∀ q, q ≠ o.pd → new.rdP q = old.rdP q) ∧
      new.tstat = (if (List.range 64).any fun i => (T.rdP o.pr).getLsbD i && (r i).2 then old.tstat ||| 1 else old.tstat) ∧
      { new with p := old.p, tstat := old.tstat } = old)

/-- The parts above, together. -/
def Obligations.VectorLanesAndPredicates : Prop := Says.VectorLaneOps ∧ Says.VectorPermutes ∧ Says.PredicateOps

/-- R90, R132, R69 to R72: with their port free, VLD and VST act on 256 B at S[SA] + 32 × OFF, aligned down to 32 B and wrapping
at the top of the tile store; an address beyond it loads zeros, or stores nothing, and is reported as ADDR_FAULT (kind 0x04);
a word with a double-bit error is delivered raw and reported as SEVERE (kind 0x02).
The model's choices it rests on: log 15. -/
def Obligations.VectorMemory : Prop :=
  ∀ (pt : At) (o : VM) (s : State), (s.here pt).quiet = true → (s.here pt).portFree ≤ pt.cyc →
    let T := s.here pt
    let a := (T.rdS o.sa + o.off.signExtend 64 * 32).toNat / 32 * 32
    let evt := fun kind at_ => (⟨kind, pt.die.val, pt.tile.val, none, at_, 0⟩ : FaultEvt)
    let loaded := fun (g : Nat → W32) (old new : Tile) => LanesDone o.vd (T.rdP o.pr) g old { new with portFree := old.portFree }
    let raw := fun i => BitVec.ofNat 32 (memNat T.store ((a + 4 * i) % 1048576) 4)
    (a < 1048576 → T.ecc = [] → ResultHolds (.vld pt o) pt 5 s (loaded raw)) ∧
    (a < 1048576 → Yields (.vld pt o) s fun t =>
      (∀ w, (w, (2 : BitVec 2)) ∈ T.ecc → wordIn a 256 w = true → evt 2 (w * 8) ∈ t.raised) ∧
      ∀ c, pt.cyc + 5 ≤ c → loaded raw (T.settle c) ((t.here pt).settle c)) ∧
    (1048576 ≤ a → Yields (.vld pt o) s fun t => t.raised = s.raised ++ [evt 4 a] ∧
      ∀ c, pt.cyc + 5 ≤ c → loaded (fun _ => 0) (T.settle c) ((t.here pt).settle c)) ∧
    (a < 1048576 → T.ecc = [] → ResultHolds (.vst pt o) pt 2 s fun old new =>
      (∀ i, i < 64 → (T.rdP o.pr).getLsbD i = true → ∀ j, j < 4 → memGet new.store ((a + 4 * i) % 1048576 + j) =
        (lane (T.rdV o.vd) i).extractLsb' (8 * j) 8) ∧
      (∀ b, (∀ i, i < 64 → (T.rdP o.pr).getLsbD i = true → ¬((a + 4 * i) % 1048576 ≤ b ∧ b < (a + 4 * i) % 1048576 + 4)) →
        memGet new.store b = memGet old.store b) ∧
      { new with store := old.store, portFree := old.portFree } = old) ∧
    (1048576 ≤ a → Yields (.vst pt o) s fun t => t.raised = s.raised ++ [evt 4 a] ∧ { t with raised := s.raised, tiles := s.tiles } = s ∧
      ∀ c, pt.cyc ≤ c → (t.here pt).settle c = T.settle c)

/-- R108, R112 to R115, R60, R61: MMA and MMAR on an idle engine. The operation's first engine cycle is 8 cycles after
issue; it takes N engine cycles by the widths of its formats, half of that when sparse; the busy bit of AD, and of its
companion, is clear in cycle F + N + 13, and the accumulators are written by then: +0, or unchanged with ACC, when NCH is
0; the canonical NaN in every element on an operand error, with NV. -/
def Says.MatrixMultiply : Prop :=
  ∀ x ∈ ([.mma, .mmar] : List (At → MA → Instr)), ∀ (pt : At) (o : MA) (s : State), (s.here pt).quiet = true → Legal s (x pt o) →
    let T := s.here pt
    let nch := (T.rdS o.sk).toNat % 1024
    let width := max (fmtBits o.wf.toNat) (fmtBits o.xf.toNat)
    let chunk := (if 16 ≤ width then 64 else if width = 8 then 32 else 16) / (if o.spr then 2 else 1)
    let N := if nch = 0 then 1 else nch * chunk
    Yields (x pt o) s fun t => OnlyTile pt s t ∧
      (∀ c, pt.cyc ≤ c → c < pt.cyc + 8 + N + 13 → ((t.here pt).settle c).a = T.a ∧
        ((t.here pt).settle c).accBusy c o.ad.toNat = true ∧
        (o.cmp = true → ((t.here pt).settle c).accBusy c (o.ad.toNat + 1) = true)) ∧
      (∀ c, pt.cyc + 8 + N + 13 ≤ c → ((t.here pt).settle c).mats = [] ∧
        (∀ a, ((t.here pt).settle c).accBusy c a = false) ∧
        (nch = 0 → ∀ k, ((t.here pt).settle c).rdA k =
          if o.acc = false ∧ (o.ad.toNat = k / 1024 ∨ (o.cmp = true ∧ o.ad.toNat + 1 = k / 1024)) then 0 else T.rdA k) ∧
        (nch ≠ 0 → 1048576 ≤ (T.rdS o.sx).toNat / 32 * 32 → ((t.here pt).settle c).tstat.getLsbD 0 = true ∧
          ∀ k, ((t.here pt).settle c).rdA k =
            if o.ad.toNat = k / 1024 ∨ (o.cmp = true ∧ o.ad.toNat + 1 = k / 1024) then 0x7FC00000 else T.rdA k))

/-- R112, R113, R116: the engine's own events: the operation starts, latching its first codebook when its weights are
Cove, and retires, clearing its busy bits. -/
def Says.MatrixEngineEvents : Prop :=
  ∀ (pt : At) (s : State) (m : MatOp), ({ s.here pt with mats := [] } : Tile).quiet = true → (s.here pt).mats = [m] → (s.here pt).ecc = [] →
    (m.first = pt.cyc → 0 < m.cycles → m.latched = [] → Yields (.matrixEngineStart pt) s fun t => OnlyTile pt s t ∧
      ∃ m', (t.here pt).mats = [m'] ∧ m'.started = true ∧ m'.o = m.o ∧ m'.first = m.first ∧
        m'.latched = if 0 < m.spans then [(s.here pt).rdB m.o.bc] else []) ∧
    (m.clear = pt.cyc + 1 → m.badAddr = none → Yields (.matrixEngineDone pt) s fun t => OnlyTile pt s t ∧ (t.here pt).mats = [] ∧
      (∀ a, (t.here pt).accBusy (pt.cyc + 1) a = false) ∧
      (m.nch = 0 → m.o.acc = false → ∀ k, k / 1024 = m.o.ad.toNat → (t.here pt).rdA k = 0))

/-- The parts above, together.
The model's choices it rests on: log 4, 90, 103. -/
def Obligations.MatrixOperations : Prop := Says.MatrixMultiply ∧ Says.MatrixEngineEvents

/-- R118, R119, R117: read-out of an accumulator, raw in FP32 but for NaN, rounded in the 16-bit formats; write-in; set;
and the load of a codebook register, 0x7FC0 in every entry from an address beyond the tile store. -/
def Says.AccumulatorAccess : Prop :=
  ∀ (pt : At) (s : State), (s.here pt).quiet = true →
    let T := s.here pt
    (∀ o : MR, Legal s (.mrd pt o) →
      let elem := fun k => let a := (T.rdA (o.ad.toNat * 1024 + k)).toNat
        if o.cmp then addRne a (decodeF fp32 (T.rdA ((o.ad.toNat + 1) * 1024 + k)).toNat) else (a, 0)
      let v := T.env o.rm
      (o.tf = 0 → ResultHolds (.mrd pt o) pt 6 s (ElemsDone pt o.vd 0 32 64 (fun _ => true) false fun e _ =>
        let x := elem (64 * o.rp.toNat + e)
        match decodeF fp32 x.1 with
        | .nan sig => (nanCode fp32, if sig then x.2 ||| fNV else x.2)
        | _ => x)) ∧
      (o.tf ≠ 0 → ResultHolds (.mrd pt o) pt 6 s (ElemsDone pt o.vd 0 16 128 (fun _ => true) (v.md == .sr) fun e u =>
        let x := elem (128 * o.rp.toNat + e)
        let d := deliver (if o.tf = 1 then fp16 else bf16) ⟨v.md, v.sat, false⟩ u (decodeF fp32 x.1)
        (d.1, x.2 ||| d.2)))) ∧
    (∀ o : MR, Legal s (.mwr pt o) → ResultHolds (.mwr pt o) pt 4 s fun old new =>
      (∀ k, new.rdA k = if o.ad.toNat * 1024 + 64 * o.rp.toNat ≤ k ∧ k < o.ad.toNat * 1024 + 64 * o.rp.toNat + 64
        then lane (T.rdV o.vd) (k % 64) else old.rdA k) ∧ { new with a := old.a } = old) ∧
    (∀ o : MB, ResultHolds (.mset pt o) pt 2 s fun old new =>
      (∀ k, new.rdA k = if k / 1024 = o.ad.toNat then (T.rdS o.sa).setWidth 32 else old.rdA k) ∧ { new with a := old.a } = old) ∧
    (∀ o : MB, let a := (T.rdS o.sa).toNat / 32 * 32
      (a < 1048576 → T.ecc = [] → ResultAfter (.cbld pt o) pt 5 s fun t =>
        { t with b := smSet (fun _ => 0) t.b o.ad.toNat (BitVec.ofNat 256 (memNat T.store a 32)) }) ∧
      (1048576 ≤ a → Yields (.cbld pt o) s fun t => t.raised = s.raised ++ [⟨0x04, pt.die.val, pt.tile.val, none, a, 0⟩] ∧
        ∀ c, pt.cyc + 5 ≤ c → ∀ i, i < 16 → (((t.here pt).settle c).rdB o.ad).extractLsb' (16 * i) 16 = 0x7FC0))

/-- R55, R71, R117: a result is written at the end of the cycle in which its latency expires; an access the engine held
off is performed in the cycle given, a vector access when its port is free, and its result comes as much later. -/
def Says.ResultsAndHeldAccesses : Prop :=
  (∀ (pt : At) (s : State) (c0 : Nat) (r : BitVec 5) (v : W64), r ≠ 0 → ({ s.here pt with pend := [] } : Tile).quiet = true →
    (s.here pt).pend = [⟨pt.cyc, c0, 1, .s r v⟩] →
    Yields (.resultWrite pt) s fun t => OnlyTile pt s t ∧ (t.here pt).rdS r = v ∧ (t.here pt).pend = [] ∧
      ∀ q, q ≠ r → (t.here pt).rdS q = (s.here pt).rdS q) ∧
  (∀ (pt : At) (s : State) (c0 a : Nat) (r : BitVec 5) (p : W64), ({ s.here pt with delayed := [] } : Tile).quiet = true →
    (s.here pt).delayed = [.vld c0 a r p] → (s.here pt).ecc = [] → c0 ≤ pt.cyc → pt.cyc ≤ c0 + 8 → (s.here pt).portFree ≤ pt.cyc →
    a < 1048576 → Yields (.delayedVectorAccess pt) s fun t => OnlyTile pt s t ∧ (t.here pt).delayed = [] ∧
      ∀ c, pt.cyc + 5 ≤ c → ∀ i, i < 64 → lane (((t.here pt).settle c).rdV r) i =
        if p.getLsbD i then BitVec.ofNat 32 (memNat (s.here pt).store ((a + 32 * (i / 8)) % 1048576 + 4 * (i % 8)) 4)
        else lane ((s.here pt).rdV r) i) ∧
  (∀ (pt : At) (s : State) (c0 a : Nat) (r : BitVec 2), ({ s.here pt with delayed := [] } : Tile).quiet = true →
    (s.here pt).delayed = [.cbld c0 a r] → (s.here pt).ecc = [] → c0 ≤ pt.cyc → pt.cyc ≤ c0 + 8 →
    Yields (.cbldDelayedRead pt) s fun t => OnlyTile pt s t ∧ (t.here pt).delayed = [] ∧
      ∀ c, pt.cyc + 5 ≤ c → ((t.here pt).settle c).rdB r = BitVec.ofNat 256 (memNat (s.here pt).store a 32))

/-- The parts above, together.
The model's choices it rests on: log 18. -/
def Obligations.AccumulatorsAndResults : Prop := Says.AccumulatorAccess ∧ Says.ResultsAndHeldAccesses

/-- R87, R88, R99, R101: branches. A taken BRC or EPCHK issues its target three cycles on and drops the loop entries whose
range does not hold it; any other control operation goes on in the next cycle with the bundle that the loop stack gives;
NOP does nothing. -/
def Says.ControlBranches : Prop :=
  ∀ (pt : At) (s : State), (s.here pt).quiet = true →
    let T := (s.here pt).settle pt.cyc
    let jump := fun (tgt : BitVec 12) => { T with pc := tgt, nextCyc := pt.cyc + 3, reached := none, loops := T.loops.filter fun e => decide (e.start ≤ tgt.toNat) && decide (tgt.toNat ≤ e.fin) }
    let go := { T with pc := BitVec.ofNat 12 (loopNext T.pc.toNat T.loops).1, loops := (loopNext T.pc.toNat T.loops).2, nextCyc := pt.cyc + 1, reached := none }
    Yields (.nop pt) s (· = s) ∧
    (∀ o : CBrc, Legal s (.brc pt o) →
      let v := (T.rdS o.sa).toInt
      let taken := [true, v == 0, v != 0, decide (v < 0), decide (0 ≤ v), decide (0 < v), decide (v ≤ 0)].getD o.cond.toNat false
      Yields (.brc pt o) s fun t => OnlyTile pt s t ∧ t.here pt = if taken then jump o.tgt else go) ∧
    (∀ o : CEpchk, Yields (.epchk pt o) s fun t => OnlyTile pt s t ∧
      t.here pt = if (s.die pt.die.val).epoch = (T.rdS o.sa).toNat % 65536 then go else jump o.tgt)

/-- R101: the bundle after a loop's END: the loop goes back while iterations are left, else its entry is popped and an
outer loop that ends there is tested next; anywhere else the next bundle, after 4,095 bundle 0. -/
def Says.LoopStackRule : Prop :=
  ∀ (pc : Nat) (l : List LoopEnt) (e : LoopEnt),
    ((∀ x ∈ l.head?, x.fin ≠ pc) → loopNext pc l = ((pc + 1) % 4096, l)) ∧
    (e.fin = pc → 1 < e.left → loopNext pc (e :: l) = (e.start, { e with left := e.left - 1 } :: l)) ∧
    (e.fin = pc → e.left ≤ 1 → loopNext pc (e :: l) = loopNext pc l)

/-- R99, R101, R102, R104: LOOP and LOOPI push an entry and go on with the body, or with count 0 go on behind END after
three cycles; a stack of four entries, an END before the body or beyond the enclosing END, and a LOOP in an enclosing END
bundle are bundle faults, which stop the tile. -/
def Says.ControlLoops : Prop :=
  ∀ (pt : At) (s : State), (s.here pt).quiet = true →
    let T := (s.here pt).settle pt.cyc
    ∀ (i : Instr) (fin : BitVec 12) (n : Nat),
      (∃ o : CLoop, i = .loop pt o ∧ fin = o.fin ∧ n = (T.rdS o.sa).toNat % 2 ^ 32) ∨ (∃ o : CLoopi, i = .loopi pt o ∧ fin = o.fin ∧ n = o.cnt.toNat) →
      let bad := fin.toNat < T.pc.toNat + 1 ∨ 4 ≤ T.loops.length ∨ (∃ e ∈ T.loops, e.fin < fin.toNat ∨ e.fin = T.pc.toNat)
      (¬bad → Yields i s fun t => OnlyTile pt s t ∧ t.here pt =
        if n = 0 then { T with pc := fin + 1, nextCyc := pt.cyc + 3, reached := none }
        else { T with loops := ⟨T.pc.toNat + 1, fin.toNat, n⟩ :: T.loops, pc := T.pc + 1, nextCyc := pt.cyc + 1, reached := none }) ∧
      (bad → Yields i s fun t => (t.here pt) = { T with issue := .stopped })

/-- The parts above, together. -/
def Obligations.BranchesAndLoops : Prop := Says.ControlBranches ∧ Says.LoopStackRule ∧ Says.ControlLoops

/-- R97, R155, R156: WAITC and TIDEW let the tile go on when their condition holds and leave it as it is when it does
not; a TIDEW whose target had passed in the tick in which its bundle was reached raises a NOTE (kind 0x05); R157, R158: FENCE
takes the commands it waits for, with CAPACITY when the full queue has refused one that it selects, and goes on. -/
def Says.ControlWaits : Prop :=
  ∀ (pt : At) (s : State), (s.here pt).quiet = true →
    let T := (s.here pt).settle pt.cyc
    let R := s.region (pt.die.val * 4 + pt.tile.val / 64)
    let go := fun (t : Tile) => { t with pc := BitVec.ofNat 12 (loopNext T.pc.toNat T.loops).1, loops := (loopNext T.pc.toNat T.loops).2, nextCyc := pt.cyc + 1, reached := none }
    (∀ o : CWaitc, Legal s (.waitc pt o) →
      let v := if o.src then (T.rdS (o.val.setWidth 5)).toNat % 2 ^ 20 else o.val.toNat
      Yields (.waitc pt o) s fun t => OnlyTile pt s t ∧ t.here pt = if v ≤ (T.rdK o.k).toNat % 2 ^ 20 then go T else T) ∧
    (∀ o : CTidew,
      let T0 := (T.rdS o.sa + o.off.signExtend 64).toNat
      (R.tick < T0 ∨ (R.tick = T0 ∧ pt.cyc ≠ R.tick0) → Yields (.tidew pt o) s fun t => OnlyTile pt s t ∧ t.here pt = T) ∧
      (T0 < R.tick ∨ (R.tick = T0 ∧ pt.cyc = R.tick0) →
        (T.reached.getD R.tick ≤ T0 → Yields (.tidew pt o) s fun t => OnlyTile pt s t ∧ t.here pt = go T) ∧
        (T0 < T.reached.getD R.tick → Yields (.tidew pt o) s fun t => t.here pt = go T ∧
          t.raised = s.raised ++ [⟨0x05, pt.die.val, pt.tile.val, none, T0, 0⟩]))) ∧
    (∀ o : CFence, Legal s (.fence pt o) → ∀ code,
      ((∀ b, T.refused = some (pt.cyc, some b) → o.fset.getLsbD b = false) ∧ code = 0x00) ∨
      ((∃ b, T.refused = some (pt.cyc, some b) ∧ o.fset.getLsbD b = true) ∧ code = 0x0B) →
      Yields (.fence pt o) s fun t => OnlyTile pt s t ∧ t.here pt = go { T with fences := T.fences ++ [⟨o.k, pt.cyc,
        (T.queue.filter (inFset o.fset)).map (·.id) ++ ((T.active.map (·.cmd)).filter (inFset o.fset)).map (·.id), code⟩] })

/-- R100: END stops a tile's issue; when it is the last active tile of a die with work, the work is finished and LOCK of
TPL_CTRL is 0. -/
def Says.ControlEnd : Prop :=
  ∀ (pt : At) (s : State), (s.here pt).quiet = true →
    Yields (.endIssue pt) s fun t => t.here pt = { (s.here pt).settle pt.cyc with issue := .ended } ∧
      ((s.die pt.die.val).running = false → OnlyTile pt s t) ∧
      ((s.die pt.die.val).running = true → (∀ k, k < 256 → k ≠ pt.tile.val → (s.tile (pt.die.val * 256 + k)).issue = .ended) →
        (t.die pt.die.val).running = false ∧ t.rd TPL_CTRL_LOCK pt.die.val = 0)

/-- R64, R157 to R159: a fence with nothing outstanding records its code; BARR records OK on an empty set, PERM from a
tile that is no member, CAPACITY beyond three arrivals ahead of the slowest member, else one arrival; a release records OK
in the counter that the member's BARR named. -/
def Says.FencesAndBarriers : Prop :=
  (∀ (pt : At) (s : State) (k : BitVec 4) (c0 code : Nat), (s.here pt).quiet = true → (s.here pt).fences = [⟨k, c0, [], code⟩] → c0 < pt.cyc →
    Yields (.fenceRecord pt) s fun t => OnlyTile pt s t ∧ (t.here pt).fences = [] ∧
      ∀ c, pt.cyc < c → ((t.here pt).settle c).rdK k = (s.here pt).kNext k code) ∧
  (∀ (pt : At) (o : CBarr) (s : State), (s.here pt).quiet = true →
    let d := pt.die.val
    let set := o.bset.toNat
    let mine := (s.here pt).arrivals set
    ∀ (code delay : Nat),
      (s.members d set = [] ∧ code = 0 ∧ delay = 1) ∨
      (s.members d set ≠ [] ∧ s.isMember d set pt.tile.val = false ∧ code = 0x05 ∧ delay = 0) ∨
      (s.isMember d set pt.tile.val = true ∧ s.slowest d set + 3 ≤ mine ∧ code = 0x0B ∧ delay = 0) →
      Yields (.barr pt o) s fun t => OnlyTile pt s t ∧ (t.here pt).barr = (s.here pt).barr ∧
        ∀ c, pt.cyc + delay < c → ((t.here pt).settle c).rdK o.k = (s.here pt).kNext o.k code) ∧
  (∀ (pt : At) (o : CBarr) (s : State), (s.here pt).quiet = true →
    let d := pt.die.val
    let set := o.bset.toNat
    let mine := (s.here pt).arrivals set
    s.isMember d set pt.tile.val = true → mine < s.slowest d set + 3 →
      Yields (.barr pt o) s fun t => (t.here pt).arrivals set = mine + 1 ∧ (t.here pt).k = (s.here pt).k ∧
        t.barr d set = s.barr d set ++ [⟨mine + 1, pt.tile.val, o.k⟩]) ∧
  (∀ (die : Fin 24) (tile : Fin 256) (set : Fin 16) (cyc g : Nat) (k : BitVec 4) (s : State),
    let pt : At := ⟨die, tile, cyc⟩
    (s.here pt).quiet = true → s.barr die.val set.val = [⟨g, tile.val, k⟩] → g ≤ s.slowest die.val set.val →
      Yields (.barrierRelease die set cyc) s fun t => t.barr die.val set.val = [] ∧
        ∀ c, cyc < c → ((t.here pt).settle c).rdK k = (s.here pt).kNext k 0)

/-- The parts above, together.
The model's choices it rests on: log 19, 91. -/
def Obligations.WaitsFencesBarriersAndEnd : Prop := Says.ControlWaits ∧ Says.ControlEnd ∧ Says.FencesAndBarriers

/-- R24, R84, R85, R93, R103 to R106: an operation whose encoding meets a cause does not issue: its tile stops, a SEVERE
fault (kind 0x03) is raised and HDL_BFAULT_LOG records tile, pc, slot and cause of the first fault, and counts it. -/
def Says.BundleFaultEffect : Prop :=
  ∀ (pt : At) (slot : Nat) (i : Instr) (rsv : Bool) (s : State),
    ((slot = 0 ∧ ∃ w, decodeControl pt w = some (i, rsv)) ∨ (slot = 1 ∧ ∃ w, decodeScalar pt w = some (i, rsv)) ∨
     (slot = 2 ∧ ∃ w, decodeVector pt w = some (i, rsv)) ∨ (slot = 3 ∧ ∃ w, decodeMatrix pt w = some (i, rsv)) ∨
     (slot = 4 ∧ ∃ w, decodeMove pt w = some (i, rsv))) →
    (s.here pt).quiet = true → i.cause s.caps ≠ 0 → s.rd HDL_BFAULT_LOG_VALID pt.die.val = 0 →
    s.rd HDL_BFAULT_LOG_COUNT pt.die.val < 65535 →
    let d := pt.die.val
    Yields i s fun t => t.here pt = { (s.here pt).settle pt.cyc with issue := .stopped } ∧
      t.raised = s.raised ++ [⟨0x03, d, pt.tile.val, none, 0, 0⟩] ∧
      t.rd HDL_BFAULT_LOG_VALID d = 1 ∧ t.rd HDL_BFAULT_LOG_TILE d = pt.tile.val ∧ t.rd HDL_BFAULT_LOG_PC d = (s.here pt).pc.toNat ∧
      t.rd HDL_BFAULT_LOG_SLOT d = slot ∧ t.rd HDL_BFAULT_LOG_CAUSE d = i.cause s.caps ∧
      t.rd HDL_BFAULT_LOG_COUNT d = s.rd HDL_BFAULT_LOG_COUNT d + 1

/-- R82, R95, R97, R99, R103 to R105, R73: in a cycle a tile may issue in, with no load into its instruction buffer under way, BUNDLE_ISSUE
leaves the tile as it is while an issue condition fails, and otherwise runs the five slots' own meanings together, a move command
entering the queue and the control slot coming last; a bundle with a cause issues nothing: the tile stops, and the log records the lowest
slot and its lowest cause, a double-bit error at fetch being cause 0xC of the control slot. -/
def Says.BundleIssueEffect : Prop :=
  ∀ (pt : At) (s : State), (s.here pt).quiet = true → s.safe = false → s.idle = false →
    let R := s.region (pt.die.val * 4 + pt.tile.val / 64)
    ((s.here pt).issue = .issuing ∨ ∃ n, (s.here pt).issue = .waiting n ∧ (n < R.tick ∨ (n = R.tick ∧ R.tick0 ≤ pt.cyc))) →
    (s.here pt).nextCyc ≤ pt.cyc → (s.here pt).active = [] →
    let T : Tile := { (s.here pt).settle pt.cyc with issue := .issuing }
    let ds := decodeSlots pt s.caps (smGet (fun _ => 0) T.ibuf T.pc.toNat)
    let ready := controlReady T R pt.cyc ds.control && matrixReady T pt.cyc ds.matrix
    let go := fun (X : Tile) =>
      { X with pc := BitVec.ofNat 12 (loopNext X.pc.toNat X.loops).1, loops := (loopNext X.pc.toNat X.loops).2, nextCyc := pt.cyc + 1, reached := none }
    (T.ieccs = [] → ds.causes = [0, 0, 0, 0, 0] → controlLoopCause T ds.control = 0 →
      (ready = true → ∃ s1 s2 s3 s4, exec ds.scalar (s.putTile pt.die.val pt.tile.val T) = .next s1 ∧ exec ds.vector s1 = .next s2 ∧
        exec ds.matrix s2 = .next s3 ∧
        ((ds.move = .nop pt ∧ s4 = s3) ∨ ∃ x ∈ moveSlot, ∃ o, ds.move = x.1 pt o ∧ s4 = s3.onTile pt (issueMove pt x.2 o)) ∧
        (ds.control = .nop pt → Yields (.bundleIssue pt) s fun t => OnlyTile pt s4 t ∧ t.here pt = go ((s4.here pt).settle pt.cyc)) ∧
        (ds.control ≠ .nop pt → Yields (.bundleIssue pt) s fun t => exec ds.control s4 = .next t)) ∧
      (ready = false → Yields (.bundleIssue pt) s fun t => OnlyTile pt s t ∧ t.here pt = T)) ∧
    (T.ieccs = [] → smGet (fun _ => 0) T.ibuf T.pc.toNat = 0 → Yields (.bundleIssue pt) s fun t => OnlyTile pt s t ∧ t.here pt = go T) ∧
    (let control := if ds.causes.headD 0 ≠ 0 then ds.causes.headD 0 else if controlLoopCause T ds.control ≠ 0 then controlLoopCause T ds.control
        else if eccIn T.ieccs 2 (32 * T.pc.toNat) 32 then 0xC else 0
     let causes := control :: ds.causes.drop 1
     ∀ slot, slot < 5 → causes.getD slot 0 ≠ 0 → (∀ i, i < slot → causes.getD i 0 = 0) → s.rd HDL_BFAULT_LOG_VALID pt.die.val = 0 →
      Yields (.bundleIssue pt) s fun t => t.here pt = { T with issue := .stopped } ∧
        (if causes.getD slot 0 = 0xC then (⟨0x02, pt.die.val, pt.tile.val, none, 32 * T.pc.toNat, 0⟩ : FaultEvt)
          else ⟨0x03, pt.die.val, pt.tile.val, none, 0, 0⟩) ∈ t.raised ∧
        t.rd HDL_BFAULT_LOG_VALID pt.die.val = 1 ∧ t.rd HDL_BFAULT_LOG_TILE pt.die.val = pt.tile.val ∧
        t.rd HDL_BFAULT_LOG_PC pt.die.val = T.pc.toNat ∧ t.rd HDL_BFAULT_LOG_SLOT pt.die.val = slot ∧
        t.rd HDL_BFAULT_LOG_CAUSE pt.die.val = causes.getD slot 0)

/-- The parts above, together.
The model's choices it rests on: log 46, 51, 86. -/
def Obligations.BundleIssueAndFault : Prop := Says.BundleFaultEffect ∧ Says.BundleIssueEffect

/-- R74, R95, R136: the move queue. A command issued behind queued ones enters at the end with its registers read, LEN = 0
taking the length from S[SC][15:0]; into a full queue it is not executed: its counter records CAPACITY and a NOTE (kind 0x06)
is raised; MOVE_COMMAND_START takes the oldest and starts it, at most one in a cycle (R173: a TPLD or TPST only while the Tidepool
answers); the empty command has nothing to do, an IBLD reads its bundles, an HBRD asks its stack for its range; a command given to a free
engine does what it does when MOVE_COMMAND_START takes it from the queue in the next cycle. -/
def Says.MoveQueueRules : Prop :=
  (∀ x ∈ moveSlot,
    ∀ (pt : At) (o : MV) (s : State), (s.here pt).quiet = true → Legal s (x.1 pt o) →
      let T := s.here pt
      let m : MoveCmd := ⟨T.nextId, x.2, o.k, T.rdS o.sa, T.rdS o.sb, T.rdS o.sc, moveLen T o, o.osf⟩
      (0 < T.queue.length → T.queue.length < 32 → Yields (x.1 pt o) s fun t => OnlyTile pt s t ∧
        t.here pt = { T.settle pt.cyc with nextId := T.nextId + 1, queue := T.queue ++ [m] }) ∧
      (32 ≤ T.queue.length → Yields (x.1 pt o) s fun t => (t.here pt).queue = T.queue ∧ (t.here pt).active = T.active ∧
        t.raised = s.raised ++ [⟨0x06, pt.die.val, pt.tile.val, none, 0, 0⟩] ∧
        ∀ c, pt.cyc < c → ((t.here pt).settle c).rdK o.k = T.kNext o.k 0x0B) ∧
      (T.queue = [] → exec (x.1 pt o) s = exec (.moveCommandStart { pt with cyc := pt.cyc + 1 })
        (s.putTile pt.die.val pt.tile.val { T.settle pt.cyc with nextId := T.nextId + 1, queue := [m] }))) ∧
  (∀ (pt : At) (s : State) (m : MoveCmd) (ms : List MoveCmd), (s.here pt).quiet = true → (s.here pt).queue = m :: ms →
    let d := pt.die.val
    let T := (s.here pt).settle pt.cyc
    let began := fun (code left : Nat) (data : List Byte) =>
      { T with queue := ms, lastStart := pt.cyc, active := T.active ++ [⟨m, pt.cyc, code, left, data, false⟩] }
    let fits := m.la.toNat < 1048576 ∧ m.la.toNat / 32 * 32 + 32 * m.len ≤ 1048576
    (T.lastStart < pt.cyc → (m.kind = .tpld ∨ m.kind = .tpst → s.poolUp d = true) →
      Yields (.moveCommandStart pt) s (fun t => (t.here pt).queue = ms ∧ (t.here pt).lastStart = pt.cyc ∧ ∃ a ∈ (t.here pt).active, a.cmd = m) ∧
      (m.len = 0 → m.kind ∈ ([.tpld, .tpst, .hbrd, .hbwr, .ibld] : List MvKind) →
        Yields (.moveCommandStart pt) s fun t => OnlyTile pt s t ∧ t.here pt = began 0x00 0 []) ∧
      (m.kind = .ibld → 0 < m.len → fits → m.rb.toNat % 4096 + m.len ≤ 4096 → T.ecc = [] →
        Yields (.moveCommandStart pt) s fun t => OnlyTile pt s t ∧ t.here pt = began 0x00 0 (T.bytes (m.la.toNat / 32 * 32) (32 * m.len))) ∧
      (m.kind = .hbrd → 0 < m.len → fits → let pa := m.rb.toNat / 32 * 32
        paOk pa (32 * m.len) = true → (s.shg (paStack pa)).lost = false → s.memSlots d (paStack pa) = true → s.portClear d →
        Yields (.moveCommandStart pt) s fun t => t.here pt = began 0x00 1 [] ∧
          s.asks t (.tile pt.tile.val m.id (m.la.toNat / 32 * 32)) d ⟨1, 0, 0, pa, m.len, 0, 0, 0, [], []⟩)) ∧
    (pt.cyc ≤ T.lastStart ∨ ((m.kind = .tpld ∨ m.kind = .tpst) ∧ s.poolUp d = false) → Yields (.moveCommandStart pt) s (· = s)))

/-- R137, R141, R72, R73: a started command with nothing outstanding records one completion with its code and is gone; an
IBLD has then written its bundles. -/
def Says.MoveCompletion : Prop :=
  ∀ (pt : At) (s : State) (a : ActiveMove), (s.here pt).quiet = true → (s.here pt).active = [a] →
    (∀ x ∈ s.mwait, x.1.q ≠ pt.die.val) → (∀ j ∈ s.kvs, j.die ≠ pt.die.val) →
    (a.left ≠ 0 → Yields (.moveCommandComplete pt a.cmd.id) s fun t => OnlyTile pt s t ∧ t.here pt = (s.here pt).settle pt.cyc) ∧
    (a.left = 0 → Yields (.moveCommandComplete pt a.cmd.id) s fun t => { t with tiles := s.tiles, couplers := s.couplers } = s ∧
      (∀ k, k ≠ tileKey pt.die pt.tile → t.tile k = s.tile k) ∧ (t.here pt).active = [] ∧
      (t.here pt).store = (s.here pt).store ∧
      (∀ c, pt.cyc < c → ((t.here pt).settle c).rdK a.cmd.k = (s.here pt).kNext a.cmd.k a.code) ∧
      (a.cmd.kind ≠ .ibld → (t.here pt).ibuf = (s.here pt).ibuf) ∧
      (∀ n, a.cmd.kind = .ibld → a.data.length = 32 * n → ∀ i, smGet (fun _ => 0) (t.here pt).ibuf i =
        if a.cmd.rb.toNat % 4096 ≤ i ∧ i < a.cmd.rb.toNat % 4096 + n
        then BitVec.ofNat 256 (leNat ((a.data.drop (32 * (i - a.cmd.rb.toNat % 4096))).take 32)) else smGet (fun _ => 0) (s.here pt).ibuf i))

/-- R136, R137, R69: a TPLD, TPST, HBRD, HBWR or IBLD of no units moves nothing and ends with OK; one whose local range leaves the tile
store moves nothing, ends with ADDR_FAULT and reports the address (kind 0x04). -/
def Says.MoveLocalChecks : Prop :=
  ∀ x ∈ ([.tpld, .tpst, .hbrd, .hbwr, .ibld] : List (At → MV → Instr)),
    ∀ (pt : At) (o : MV) (s : State), (s.here pt).moveFree pt.cyc = true → s.poolUp pt.die.val = true → Legal s (x pt o) →
      let T := s.here pt
      (moveLen T o = 0 → Yields (x pt o) s fun t => OnlyTile pt s t ∧ Started (t.here pt) T.nextId o.k 0x00 0 ∧ (t.here pt).store = T.store) ∧
      (moveLen T o ≠ 0 → ¬moveFits T o → Yields (x pt o) s fun t => Started (t.here pt) T.nextId o.k 0x04 0 ∧
        (t.here pt).store = T.store ∧ (t.here pt).ibuf = T.ibuf ∧ t.hbm = s.hbm ∧ t.pool = s.pool ∧ t.mreqs = s.mreqs ∧
        let a := (T.rdS o.sa).toNat
        ⟨0x04, pt.die.val, pt.tile.val, none, if 1048576 ≤ a then a else 1048576, 0⟩ ∈ t.raised)

/-- The parts above, together.
The model's choices it rests on: log 27, 46, 101. -/
def Obligations.MoveQueueAndCompletion : Prop := Says.MoveQueueRules ∧ Says.MoveCompletion ∧ Says.MoveLocalChecks

/-- R139, R165, R168, R71: a TPLD that hits one line sends its bytes to the tile's inbound buffer, a clean sector that was written past the
Tidepool old or new; a TPST within a present line writes its sectors, valid and dirty, and leaves the other sectors. -/
def Says.MoveTidepoolHits : Prop :=
  ∀ (pt : At) (o : MV) (s : State), (s.here pt).moveFree pt.cyc = true → o.osf = 0 →
    let T := s.here pt
    let d := pt.die.val
    let n := moveLen T o
    let pa := (T.rdS o.sb).toNat / 32 * 32
    let l := s.line d (pa / 512)
    let lo := pa / 32 % 16
    s.poolUp d = true → 0 < n → moveFits T o → paOk pa (32 * n) = true → lo + n ≤ 16 → l.err = 0 → l.poison = false → (s.coupler d).upsets = [] →
    T.ecc = [] →
    (secMask lo n &&& ~~~l.valid = 0 → Yields (.tpld pt o) s fun t =>
      Started (t.here pt) T.nextId o.k 0x00 1 ∧ t.pool = s.pool ∧ t.hbm = s.hbm ∧ t.raised = s.raised ∧ (t.here pt).store = T.store ∧
      ∃ bs, s.poolServes d (pa / 512) lo n bs ∧
        (t.here pt).inq = T.inq ++ inEntries 8 (bs.length / 128) (moveLocal T o) bs (.part T.nextId 0x00)) ∧
    (l.valid ≠ 0 → Yields (.tpst pt o) s fun t =>
      Started (t.here pt) T.nextId o.k 0x00 0 ∧ (t.here pt).store = T.store ∧ t.hbm = s.hbm ∧
      (t.line d (pa / 512)).bytes lo n = T.bytes (moveLocal T o) (32 * n) ∧
      (t.line d (pa / 512)).valid = l.valid ||| secMask lo n ∧ (t.line d (pa / 512)).dirty = l.dirty ||| secMask lo n ∧
      (∀ j, j < 16 → j < lo ∨ lo + n ≤ j → (t.line d (pa / 512)).bytes j 1 = l.bytes j 1) ∧
      ∀ e m, e < 24 → m < 2 ^ 32 → (e, m) ≠ (d, pa / 512) → t.line e m = s.line e m)

/-- R140, R262: HBRD and HBWR request their range of the Shingle that owns it, a write with its data; the request leaves the port or
waits there for one of the 1,024 and an identifier; without slots toward the stack they end with CAPACITY, and outside the address map with
ADDR_FAULT. -/
def Says.MoveHbmRequests : Prop :=
  ∀ (pt : At) (o : MV) (s : State), (s.here pt).moveFree pt.cyc = true → o.osf = 0 →
    let T := s.here pt
    let d := pt.die.val
    let n := moveLen T o
    let pa := (T.rdS o.sb).toNat / 32 * 32
    let k := pa / 2 ^ 37 % 16
    let dest := MDest.tile pt.tile.val T.nextId (moveLocal T o)
    0 < n → moveFits T o → T.ecc = [] →
    (paOk pa (32 * n) = true → (s.shg k).lost = false → s.memSlots d k = true → s.portClear d →
      Yields (.hbrd pt o) s (fun t => Started (t.here pt) T.nextId o.k 0x00 1 ∧ (t.here pt).store = T.store ∧
        s.asks t dest d ⟨1, 0, 0, pa, n, 0, 0, 0, [], []⟩) ∧
      Yields (.hbwr pt o) s fun t => Started (t.here pt) T.nextId o.k 0x00 1 ∧ (t.here pt).store = T.store ∧
        s.asks t dest d ⟨2, 0, 0, pa, n, 0, 0, 0, T.bytes (moveLocal T o) (32 * n), List.replicate n false⟩) ∧
    (∀ x ∈ ([.hbrd, .hbwr] : List (At → MV → Instr)),
      (paOk pa (32 * n) = true → (s.shg k).lost = false → s.memSlots d k = false →
        Yields (x pt o) s fun t => OnlyTile pt s t ∧ Started (t.here pt) T.nextId o.k 0x0B 0) ∧
      (paOk pa (32 * n) = false → Yields (x pt o) s fun t => Started (t.here pt) T.nextId o.k 0x04 0 ∧
        (t.here pt).store = T.store ∧ t.hbm = s.hbm ∧ t.mreqs = s.mreqs))

/-- The parts above, together.
The model's choices it rests on: log 27, 84, 101. -/
def Obligations.TidepoolAndHbmMoves : Prop := Says.MoveTidepoolHits ∧ Says.MoveHbmRequests

/-- R142, R76, R77, R71: MSEND sends its range over the link it names, the first unit written in cycle X + L − 1 and the last when its
beats and the hop have passed, behind earlier transfers of the link; a missing link and a receiving range beyond the tile store are ADDR_FAULT.
IBLD keeps its data for its bundles. -/
def Says.MoveMeshAndInstructions : Prop :=
  ∀ (pt : At) (o : MV) (s : State), (s.here pt).moveFree pt.cyc = true →
    let T := s.here pt
    let d := pt.die.val
    let src := pt.tile.val
    let n := moveLen T o
    let rb := (T.rdS o.sb).toNat
    let ra := rb / 32 * 32
    let link := o.osf.toNat % 16
    let faults := fun (a : Nat) (t : State) => { t with tiles := s.tiles, raised := s.raised } = s ∧ Started (t.here pt) T.nextId o.k 0x04 0 ∧
      (t.here pt).store = T.store ∧ t.raised = s.raised ++ [⟨0x04, d, src, none, a, 0⟩]
    0 < n → moveFits T o → T.ecc = [] →
    (Legal s (.msend pt o) → linkTarget src link = none → Yields (.msend pt o) s (faults rb)) ∧
    (∀ dst, Legal s (.msend pt o) → linkTarget src link = some dst →
      (1048576 ≤ rb ∨ 1048576 < ra + 32 * n → Yields (.msend pt o) s (faults (if 1048576 ≤ rb then rb else 1048576))) ∧
      (rb < 1048576 → ra + 32 * n ≤ 1048576 → Yields (.msend pt o) s fun t => Started (t.here pt) T.nextId o.k 0x00 1 ∧
        (t.here pt).store = T.store ∧ t.raised = s.raised ∧ ∃ l, t.links = s.links ++ [l] ∧ l.die = d ∧ l.src = src ∧ l.dst = dst ∧ l.link = link ∧
          l.addr = ra ∧ l.data = T.bytes (moveLocal T o) (32 * n) ∧ l.poison = false ∧ l.rk = BitVec.ofNat 4 (o.osf.toNat / 16 % 16) ∧
          l.width = (if link < 4 then 128 else 32) ∧ l.id = T.nextId ∧ pt.cyc + linkLatency src dst link ≤ l.due ∧
          l.last = l.due + (if link < 4 then (n + 3) / 4 else n) - 1 ∧
          ((∀ l ∈ s.links, ¬(l.die = d ∧ l.src = src ∧ l.link = link)) → l.due = pt.cyc + linkLatency src dst link))) ∧
    (o.osf = 0 → rb % 4096 + n ≤ 4096 → Yields (.ibld pt o) s fun t => OnlyTile pt s t ∧
      Started (t.here pt) T.nextId o.k 0x00 0 ∧ (t.here pt).ibuf = T.ibuf ∧ (t.here pt).store = T.store ∧
      ∃ a ∈ (t.here pt).active, a.cmd.id = T.nextId ∧ a.data = T.bytes (moveLocal T o) (32 * n) ∧ a.cmd.rb = T.rdS o.sb)

/-- R76, R77: the links of tile (row, column) and the latency of each hop. -/
def Says.LinkGeometry : Prop :=
  ∀ r c, r < 16 → c < 16 →
    let t := 16 * r + c
    linkTarget t 0 = (if 1 ≤ r then some (t - 16) else none) ∧ linkTarget t 1 = (if c + 1 < 16 then some (t + 1) else none) ∧
    linkTarget t 2 = (if r + 1 < 16 then some (t + 16) else none) ∧ linkTarget t 3 = (if 1 ≤ c then some (t - 1) else none) ∧
    linkTarget t 4 = (if 4 ≤ r then some (t - 64) else none) ∧ linkTarget t 5 = (if c + 4 < 16 then some (t + 4) else none) ∧
    linkTarget t 6 = (if r + 4 < 16 then some (t + 64) else none) ∧ linkTarget t 7 = (if 4 ≤ c then some (t - 4) else none) ∧
    (∀ u, linkTarget t 1 = some u → linkLatency t u 1 = 2) ∧ (∀ u, linkTarget t 5 = some u → linkLatency t u 5 = 3) ∧
    (∀ u, linkTarget t 6 = some u → linkLatency t u 6 = 5) ∧
    (∀ u, linkTarget t 2 = some u → linkLatency t u 2 = if r = 3 ∨ r = 7 ∨ r = 11 then 4 else 2)

/-- R71, R77, R142, R64: from the cycle of its next unit on, the oldest transfer of a link has landed what its cycles allow, 128 B or 32 B in
each; with its last unit the receiver's counter RK records and the sender has one part less outstanding. A full inbound buffer drains one entry
at a time; so do the buffers of Tidepool, HBM and optical deliveries, the last entry of a delivery ending its part or counting. -/
def Says.LinkTransfers : Prop :=
  (∀ (pt : At) (s : State) (l : LinkMsg) (ls : List LinkMsg) (dst : Fin 256) (rcyc : Nat), s.links = l :: ls → l ∉ ls → l.die = pt.die.val →
    l.src = pt.tile.val → l.dst = dst.val → dst ≠ pt.tile → l.poison = false →
    let rpt : At := ⟨pt.die, dst, rcyc⟩
    (s.here pt).quiet = true → (s.here rpt).quiet = true → (s.here rpt).ecc = [] → (∀ a ∈ (s.here pt).active, a.cmd.id ≠ l.id) →
    let lands := fun (n : Nat) (t : State) => ∀ b, memGet (t.here rpt).store b =
      if l.addr ≤ b ∧ b < l.addr + min n l.data.length then l.data.getD (b - l.addr) 0 else memGet (s.here rpt).store b
    (∀ k : BitVec 3, l.link = k.toNat →
      let n := (pt.cyc + 1 - l.due) * l.width
      (pt.cyc < l.due → Yields (.linkDelivery pt k rcyc) s (· = s)) ∧
      (l.due ≤ pt.cyc → n < l.data.length → Yields (.linkDelivery pt k rcyc) s fun t => lands n t ∧ t.raised = s.raised ∧
        t.links = { l with addr := l.addr + n, data := l.data.drop n, due := pt.cyc + 1 } :: ls) ∧
      (l.due ≤ pt.cyc → l.data.length ≤ n → Yields (.linkDelivery pt k rcyc) s fun t => lands n t ∧ t.raised = s.raised ∧ t.links = ls ∧
        ∀ c, rcyc < c → ((t.here rpt).settle c).rdK l.rk = (s.here rpt).kNext l.rk 0)) ∧
    (∀ src : Fin 8, src.val = (l.link + 2) % 4 + l.link / 4 * 4 → l.link < 8 → l.width < l.data.length → l.due ≤ pt.cyc →
      Yields (.inboundBufferDrain rpt (.link src pt.cyc)) s fun t => lands l.width t ∧ t.raised = s.raised ∧
        t.links = { l with addr := l.addr + l.width, data := l.data.drop l.width, due := pt.cyc + 1 } :: ls)) ∧
  (∀ (pt : At) (s : State) (port : InPort) (src : Nat) (e : InEnt) (es : List InEnt), (port, src) ∈ [(.tidepool, 8), (.hbm, 9), (.optical, 10)] → (s.here pt).quiet = true → (s.here pt).ecc = [] →
    (s.here pt).inq = e :: es → e.src = src →
    let T := s.here pt
    (pt.cyc < e.due → Yields (.inboundBufferDrain pt port) s fun t => OnlyTile pt s t ∧ t.here pt = T.settle pt.cyc) ∧
    (e.due ≤ pt.cyc → Yields (.inboundBufferDrain pt port) s fun t => OnlyTile pt s t ∧
      (∀ b, memGet (t.here pt).store b = if e.addr ≤ b ∧ b < e.addr + e.data.length then e.data.getD (b - e.addr) 0 else memGet T.store b) ∧
      (t.here pt).inq = es.map (fun x => if x.src = src then { x with due := pt.cyc + 1 } else x) ∧
      (e.fin = .more → (t.here pt).active = T.active ∧ (t.here pt).pend = []) ∧
      (∀ id code, e.fin = .part id code → (t.here pt).active = T.active.map (ActiveMove.part id code)) ∧
      (∀ k code, e.fin = .count k code → ∀ c, pt.cyc < c → ((t.here pt).settle c).rdK k = T.kNext k code)))

/-- The parts above, together.
The model's choices it rests on: log 20, 44, 104. -/
def Obligations.MeshLinksAndInstructionLoads : Prop := Says.MoveMeshAndInstructions ∧ Says.LinkGeometry ∧ Says.LinkTransfers

/-- R143 to R145: OTXA and ORXA arm a slot that the die's table gives the tile, at most 16 ticks ahead and in time; on a die
that runs no tide table they end with PERM. -/
def Obligations.MoveOpticalArms : Prop :=
  ∀ (pt : At) (o : MV) (s : State), (s.here pt).moveFree pt.cyc = true → Legal s (.otxa pt o) →
    let T := s.here pt
    let d := pt.die.val
    let now := s.tick pt
    let slot := (T.rdS o.sc).toNat
    let port := o.osf.toNat % 64
    let x := s.stn d
    (∀ y ∈ ([.otxa, .orxa] : List (At → MV → Instr)), (s.die d).running = false →
      Yields (y pt o) s fun t => OnlyTile pt s t ∧ Started (t.here pt) T.nextId o.k 0x05 0) ∧
    ((s.die d).running = true → moveFits T o → T.ecc = [] → o.len.toNat = s.payUnits → slot ≤ now + 16 → slot / 1024 = now / 1024 →
      (now + 1 < slot → s.otxaTable d slot now port pt.tile.val = true → (∀ a ∈ x.tx, ¬(a.tick = slot ∧ a.wg = port)) →
        Yields (.otxa pt o) s fun t => Started (t.here pt) T.nextId o.k 0x00 1 ∧
          ∃ a, (t.stn d).tx = x.tx ++ [a] ∧ a.tick = slot ∧ a.wg = port ∧ a.tile = pt.tile.val ∧ a.id = T.nextId ∧
            a.data = T.bytes (moveLocal T o) (32 * o.len.toNat) ∧ a.phase = .armed) ∧
      (now < slot → s.orxaTable d slot now port pt.tile.val = true → (∀ a ∈ x.rx, ¬(a.tick = slot ∧ a.dp = port)) →
        Yields (.orxa pt o) s fun t => Started (t.here pt) T.nextId o.k 0x00 1 ∧ (t.here pt).store = T.store ∧
          ∃ a, (t.stn d).rx = x.rx ++ [a] ∧ a.tick = slot ∧ a.dp = port ∧ a.tile = pt.tile.val ∧ a.id = T.nextId ∧
            a.addr = moveLocal T o ∧ a.phase = .armed))

/-- R146, R147, R300, R305: a KV command is for dies of role 4 and for aligned addresses of the map. With UNIT = 1 it goes to the Shingle
of its region with its units of data; with UNIT = 0 the die's Tidepool executes it, KVBWS writing the header with TOP = BERM. -/
def Says.MoveKvCommands : Prop :=
  ∀ (pt : At) (o : MV) (s : State), (s.here pt).moveFree pt.cyc = true →
    let T := s.here pt
    let d := pt.die.val
    let base := (T.rdS o.sb).toNat
    let k := paStack base
    let stream := o.osf.toNat % 64
    let n := moveLen T o
    (∀ x ∈ ([.kvapp, .kvgth, .kvbws] : List (At → MV → Instr)), Legal s (x pt o) → (s.die d).role ≠ 4 →
      Yields (x pt o) s fun t => OnlyTile pt s t ∧ Started (t.here pt) T.nextId o.k 0x05 0 ∧ (t.here pt).store = T.store) ∧
    (∀ x ∈ ([.kvapp, .kvgth, .kvbws] : List (At → MV → Instr)), Legal s (x pt o) → (s.die d).role = 4 → paOk base 64 = false ∨ base % 4096 ≠ 0 →
      Yields (x pt o) s fun t => Started (t.here pt) T.nextId o.k 0x04 0 ∧ (t.here pt).store = T.store ∧ t.hbm = s.hbm ∧ t.mreqs = s.mreqs) ∧
    (∀ x ∈ ([(.kvapp, 1), (.kvgth, 2), (.kvbws, 3)] : List ((At → MV → Instr) × Nat)), Legal s (x.1 pt o) → (s.die d).role = 4 →
      paOk base 64 = true → base % 4096 = 0 → o.osf.getLsbD 6 = true → (s.shg k).lost = false → (x.2 = 3 ∨ (0 < n ∧ moveFits T o ∧ T.ecc = [])) →
      (s.memSlots d k = false → Yields (x.1 pt o) s fun t => OnlyTile pt s t ∧ Started (t.here pt) T.nextId o.k 0x0B 0) ∧
      (s.memSlots d k = true → s.portClear d → Yields (x.1 pt o) s fun t => Started (t.here pt) T.nextId o.k 0x00 1 ∧ (t.here pt).store = T.store ∧
        { t with tiles := s.tiles, mreqs := s.mreqs, mout := s.mout, mwait := s.mwait, reqNo := s.reqNo } = s ∧
        s.asks t (.tile pt.tile.val T.nextId 0) d (if x.2 = 3 then ⟨5, 0, 0, base, 0, 0, stream, 3, [], []⟩
          else ⟨5, 0, 0, base, n, 0, stream, x.2, T.bytes (moveLocal T o) (32 * n), List.replicate n false⟩))) ∧
    (Legal s (.kvbws pt o) → (s.die d).role = 4 → paOk base 64 = true → base % 4096 = 0 → o.osf.getLsbD 6 = false → s.poolUp d = true →
      s.rd TWN_STATUS_STATE ≠ 2 → s.rd TWN_STATUS_STATE ≠ 5 → (s.line d (base / 512)).valid = 0xFFFF → (s.line d (base / 512)).err = 0 →
      (∀ j ∈ s.kvs, j.die ≠ d) → T.active = [] → s.staleSector d base = false → s.staleSector d (base + 32) = false →
      let l := s.line d (base / 512)
      let h := kvHdr (l.bytes 0 2)
      kvCheck h base stream l.poison = 0 →
      Yields (.kvbws pt o) s fun t => Started (t.here pt) T.nextId o.k 0x00 0 ∧ (t.here pt).store = T.store ∧
        (t.line d (base / 512)).bytes 0 2 = h.write h.berm h.berm false ∧ (t.line d (base / 512)).dirty = l.dirty ||| 3 ∧
        (∀ j, 2 ≤ j → j < 16 → (t.line d (base / 512)).bytes j 1 = l.bytes j 1) ∧
        (∀ e m, e < 24 → m < 2 ^ 32 → (e, m) ≠ (d, base / 512) → t.line e m = s.line e m) ∧ t.hbm = s.hbm ∧ t.regs = s.regs ∧ t.mreqs = s.mreqs ∧
        t.kvs = s.kvs)

/-- R148 to R150, R208: NOTE queues its data with the expected role and epoch toward the die or channel it names; a rank that names no
other die is ADDR_FAULT and a full queue CAPACITY. -/
def Says.MoveNote : Prop :=
  ∀ (pt : At) (o : MV) (s : State), (s.here pt).moveFree pt.cyc = true → Legal s (.note pt o) →
    let T := s.here pt
    let d := pt.die.val
    let n := moveLen T o
    let drank := o.osf.toNat % 256
    let held := fun q => (s.notes.filter fun m => m.src == d && m.dst == q && m.reply.isNone).length
    (noteDest d drank = none → Yields (.note pt o) s fun t => { t with tiles := s.tiles, raised := s.raised } = s ∧
      Started (t.here pt) T.nextId o.k 0x04 0 ∧ t.raised = s.raised ++ [⟨0x04, d, pt.tile.val, none, (T.rdS o.sb).toNat, 0⟩]) ∧
    (∀ q, noteDest d drank = some q → moveFits T o → noteWordOk q (T.rdS o.sb).toNat n = true →
      (s.noteQueue ≤ held q → Yields (.note pt o) s fun t => OnlyTile pt s t ∧ Started (t.here pt) T.nextId o.k 0x0B 0) ∧
      (held q < s.noteQueue → s.inReset q = true → Yields (.note pt o) s fun t => OnlyTile pt s t ∧ Started (t.here pt) T.nextId o.k 0x07 0) ∧
      (held q < s.noteQueue → s.inReset q = false → T.ecc = [] → Yields (.note pt o) s fun t => Started (t.here pt) T.nextId o.k 0x00 1 ∧
        (t.here pt).store = T.store ∧ { t with tiles := s.tiles, notes := s.notes } = s ∧
        t.notes = s.notes ++ [⟨d, q, pt.tile.val, T.nextId, o.osf.toNat / 256 % 8, (T.rdS o.sc).toNat % 65536, (T.rdS o.sb).toNat,
          T.bytes (moveLocal T o) (32 * n), false, 0, 0, none⟩]))

/-- The parts above, together.
The model's choices it rests on: log 24, 33, 101. -/
def Obligations.KvAndNoteMoves : Prop := Says.MoveKvCommands ∧ Says.MoveNote

/-- R262 to R265, R140, Table 11-2: the memory channel. A read request waits at its stack with each unit as it stands; a write request is
stored as its segments complete blocks and acknowledged with its last; a read returns 400 ns after arrival; data and acknowledgements end
their requests, read data going to the tile's inbound buffer; without them, 327.68 µs do. -/
def Says.HbmChannel : Prop :=
  (∀ (k : Fin 16) (s : State) (q : Nat) (m : MMsg) (rest : List (Nat × Nat × MMsg)), s.inbox = (24 + k.val, q, m) :: rest →
    (∀ j ∈ s.jobs, s.wall < j.wall + 65536 ∧ ¬(j.k = k.val ∧ j.q = q ∧ j.msg.rid = m.rid ∧ j.msg.typ = m.typ)) →
    let n := m.data.length / 32
    let data := spliceList (leBytes (32 * m.len) 0) (32 * m.off) m.data
    let gathered : ShgJob :=
      ⟨k.val, q, { m with off := 0, data := data, bad := spliceList (List.replicate m.len false) m.off m.bad }, s.wall, [(m.off, n)]⟩
    (m.typ = 1 → Yields (.rd k) s fun t => { t with inbox := s.inbox, jobs := s.jobs } = s ∧ t.inbox = rest ∧
      t.jobs = s.jobs ++ [⟨k.val, q, { m with data := s.hbmBytes m.pa (32 * m.len), bad := s.unitPoison m.pa m.len }, s.wall, []⟩]) ∧
    (m.typ = 5 → Yields (.kvcmd k) s fun t => { t with inbox := s.inbox, jobs := s.jobs } = s ∧ t.inbox = rest ∧ t.jobs = s.jobs ++ [gathered]) ∧
    (m.typ = 2 → s.undec = [] → s.hbmPoison = [] → (∀ b ∈ m.bad, b = false) → 32 ∣ m.data.length → q ≠ 40 → (∀ r ∈ s.mreqs, r.meant = none) →
      (m.off = 0 → 0 < m.len → n = m.len → Yields (.wr k) s fun t => t.inbox = rest ∧ t.regs = s.regs ∧ t.raised = s.raised ∧ t.jobs = s.jobs ∧
        HbmPut m.pa m.data s t ∧
        t.mout = s.mout ++ [(24 + k.val, q, { m with typ := 4, code := 0, off := 0, kvop := 0, data := [], bad := [] })]) ∧
      (n < m.len → Yields (.wr k) s fun t => t.inbox = rest ∧ t.mout = s.mout ∧ t.jobs = s.jobs ++ [gathered]))) ∧
  (∀ (k : Fin 16) (q : Fin 41) (rid : BitVec 12) (s : State) (j : ShgJob) (js : List ShgJob), s.jobs = j :: js → s.undec = [] → s.hbmPoison = [] →
    j.k = k.val → j.q = q.val → j.msg.rid = rid.toNat → j.msg.typ = 1 → j.msg.data.length = 32 * j.msg.len →
    j.msg.bad = List.replicate j.msg.len false →
    (s.wall < j.wall + 40 → Yields (.readReturnStart k q rid) s (· = s)) ∧
    (j.wall + 40 ≤ s.wall → Yields (.readReturnStart k q rid) s fun t => { t with jobs := s.jobs, mout := s.mout, free := s.free } = s ∧ j ∉ t.jobs ∧
      ∃ data : List Byte, data.length = 32 * j.msg.len ∧
        t.mout = s.mout ++ [(24 + k.val, q.val, { j.msg with typ := 3, data := data, bad := List.replicate j.msg.len false })] ∧
        ∀ u, u < j.msg.len → (data.drop (32 * u)).take 32 = (j.msg.data.drop (32 * u)).take 32 ∨
          (data.drop (32 * u)).take 32 = memBytes s.hbm (j.msg.pa + 32 * u) 32)) ∧
  (∀ (q : Fin 41) (k : Fin 16) (s : State) (r : MemReq) (rs : List MemReq) (tile : Fin 256) (id addr : Nat),
    s.mreqs = r :: rs → (∀ x ∈ rs, x.uid ≠ r.uid) → r.q = q.val → r.k = k.val → r.dest = .tile tile.val id addr → s.hrbDone = [] →
    (∀ x ∈ s.mwait, x.1.q ≠ q.val) → (s.tile (q.val * 256 + tile.val)).rep = [] →
    let T := s.tile (q.val * 256 + tile.val)
    let ended := fun (T' : Tile) (t : State) => t.mreqs = rs ∧ t.mwait = s.mwait ∧ t.hbm = s.hbm ∧ t.regs = s.regs ∧
      t.tile (q.val * 256 + tile.val) = T' ∧ ∀ e, e ≠ q.val * 256 + tile.val → t.tile e = s.tile e
    (∀ m rest, s.inbox = (q.val, 24 + k.val, m) :: rest → r.rid = m.rid →
      (m.typ = 4 → r.kind = 2 → Yields (.wack q) s fun t => t.inbox = rest ∧ t.raised = s.raised ∧ ended (T.movePart id m.code) t) ∧
      (m.typ = 3 → r.kind = 1 → r.code = 0 → m.code = 0 → (∀ b ∈ m.bad, b = false) → m.off = 0 → m.data.length = 32 * r.len → r.seen = [] →
        Yields (.rdata q) s fun t => t.inbox = rest ∧ t.raised = s.raised ∧
          ended { T with inq := T.inq ++ inEntries 9 (m.data.length / 128) addr m.data .more ++ [⟨9, addr, [], 0, .part id 0⟩] } t) ∧
      (∀ q' : Fin 24, q'.val = q.val → m.typ = 6 → r.kind = 5 → s.twn.gathers = [] →
        Yields (.kvdone q') s fun t => t.inbox = rest ∧ t.raised = s.raised ∧ ended (T.movePart id m.code) t)) ∧
    (∀ rid : BitVec 12, r.rid = rid.toNat →
      (s.wall < r.wall + 32768 → Yields (.memoryRequestTimeout q k rid) s (· = s)) ∧
      (r.wall + 32768 ≤ s.wall → Yields (.memoryRequestTimeout q k rid) s fun t => t.ridHold = s.ridHold ++ [(q.val, k.val, rid.toNat, s.wall + 65536)] ∧
        t.raised = s.raised ++ [⟨0x44, stnId q.val, 0, none, 0, 0⟩] ∧
        ended (if r.kind = 1 then { T with inq := T.inq ++ [⟨9, addr, [], 0, .part id 0x08⟩] } else T.movePart id 0x08) t)))

/-- R274, R277, Table 11-5: SCRUB_READ writes back the corrected block that it read last, unless a write has reached it since, and reads the
block at SHG_SCRUB_POS, counting a pass at the end; a block that decodes in neither form is rewritten poisoned, logged with cause 2 and
reported; a Shingle that does not serve scrubs nothing. -/
def Says.HbmScrub : Prop :=
  ∀ (k : Fin 16) (s : State),
    (s.rd SHG_STATUS_STATE k.val ≠ 3 → Yields (.scrubRead k) s (· = s)) ∧
    (s.rd SHG_STATUS_STATE k.val = 3 → s.rd SHG_CTRL_SCRUB_HOURS k.val ≠ 0 →
      let pos := s.rd SHG_SCRUB_POS k.val
      let b := (k.val * 2 ^ 37 + pos) / 64
      ((s.shg k.val).scrub = none →
        (s.blkErr b = BlkErr.none → pos + 64 < 0x1400000000 → Yields (.scrubRead k) s fun t => t.rd SHG_SCRUB_POS k.val = pos + 64 ∧
          RegsBut [(SHG_SCRUB_POS, k.val)] s t ∧ { t with regs := s.regs } = s) ∧
        (s.blkErr b = BlkErr.none → 0x1400000000 ≤ pos + 64 → Yields (.scrubRead k) s fun t => t.rd SHG_SCRUB_POS k.val = 0 ∧
          t.rd SHG_SCRUB_PASSES k.val = min (s.rd SHG_SCRUB_PASSES k.val + 1) (2 ^ SHG_SCRUB_PASSES.wd - 1) ∧
          RegsBut [(SHG_SCRUB_POS, k.val), (SHG_SCRUB_PASSES, k.val)] s t ∧ { t with regs := s.regs } = s) ∧
        (∀ p, (s.blkErr b).onDie = false → (s.blkErr b).syms ≠ [] → s.blkForm b = some p → Yields (.scrubRead k) s fun t =>
          t.rd SHG_ECC_CORR_SHG k.val = min (s.rd SHG_ECC_CORR_SHG k.val + 1) (2 ^ SHG_ECC_CORR_SHG.wd - 1) ∧ t.hbm = s.hbm ∧ t.undec = s.undec ∧
          (t.shg k.val).scrub = some (pos, s.blkBytes b, p) ∧ (t.shg k.val).scrubHit = false ∧
          t.raised = s.raised ++ [⟨0x40, 32 + k.val, 0, none, 0, 0⟩]) ∧
        ((s.blkErr b).onDie = true → (s.blkErr b).syms = [] → Yields (.scrubRead k) s fun t =>
          t.rd SHG_ECC_CORR_DIE k.val = min (s.rd SHG_ECC_CORR_DIE k.val + 1) (2 ^ SHG_ECC_CORR_DIE.wd - 1) ∧ t.hbm = s.hbm ∧ t.raised = s.raised ∧
          (t.shg k.val).scrub = some (pos, memBytes s.hbm (64 * b) 64, s.stored b)) ∧
        ((s.blkErr b).onDie = false → s.blkForm b = none → s.rd SHG_ERRLOG_VALID k.val = 0 → Yields (.scrubRead k) s fun t =>
          t.blkErr b = BlkErr.none ∧ t.stored b = true ∧ HbmPut (64 * b) (s.blkBytes b) s t ∧
          t.rd SHG_ERRLOG_VALID k.val = 1 ∧ t.rd SHG_ERRLOG_CAUSE k.val = 2 ∧ t.rd SHG_ERRLOG_OFFSET k.val = pos ∧
          t.raised = s.raised ++ [⟨0x42, 32 + k.val, 0, none, 0, 0⟩])) ∧
      (∀ off d p, (s.shg k.val).scrub = some (off, d, p) → s.blkErr b = BlkErr.none → d.length = 64 →
        let old := (k.val * 2 ^ 37 + off) / 64
        ((s.shg k.val).scrubHit = false → Yields (.scrubRead k) s fun t => HbmPut (64 * old) d s t ∧ t.blkErr old = BlkErr.none ∧ t.stored old = p ∧
          (t.shg k.val).scrub = none) ∧
        ((s.shg k.val).scrubHit = true → Yields (.scrubRead k) s fun t => t.hbm = s.hbm ∧ t.undec = s.undec ∧ t.hbmPoison = s.hbmPoison ∧
          (t.shg k.val).scrub = none)))

/-- The parts above, together.
The model's choices it rests on: log 92, 94. -/
def Obligations.HbmChannelAndScrub : Prop := Says.HbmChannel ∧ Says.HbmScrub

/-- R270, R271, R299 to R304: in the Shingle a KV command waits until its units have come, then KVAPP writes its entries from TOP, KVGTH moves
the accepted entries down behind BERM and advances it, KVBWS sets TOP to BERM, and the header is written last; a failed check changes nothing.
The model's choices it rests on: log 64, 105. -/
def Obligations.KvExecution : Prop :=
  ∀ (k : Fin 16) (q : Fin 24) (rid : BitVec 12) (s : State) (j : ShgJob), s.jobs = [j] → s.undec = [] → s.hbmPoison = [] →
    j.k = k.val → j.q = q.val → j.msg.rid = rid.toNat → j.msg.typ = 5 →
    let base := j.msg.pa
    let h := kvHdr (memBytes s.hbm base 64)
    let answer := fun c => [(24 + k.val, q.val, { j.msg with typ := 6, code := c, off := 0, kvop := 0, data := [], bad := [] })]
    (segUnits j.seen 0 j.msg.len = false → Yields (.kvExecute k q rid) s (· = s)) ∧
    (segUnits j.seen 0 j.msg.len = true → j.seen ≠ [] → kvCheck h base j.msg.stream false ≠ 0 → Yields (.kvExecute k q rid) s fun t =>
      t.jobs = [] ∧ t.hbm = s.hbm ∧ t.mout = s.mout ++ answer 0x04) ∧
    (segUnits j.seen 0 j.msg.len = true → j.seen ≠ [] → kvCheck h base j.msg.stream false = 0 → j.msg.kvop = 3 → Yields (.kvExecute k q rid) s fun t =>
      t.jobs = [] ∧ t.regs = s.regs ∧ t.mout = s.mout ++ answer 0 ∧ memBytes t.hbm base 64 = h.write h.berm h.berm false ∧
      ∀ a, a < base ∨ base + 64 ≤ a → memGet t.hbm a = memGet s.hbm a) ∧
    (∀ n, segUnits j.seen 0 j.msg.len = true → j.seen ≠ [] → kvCheck h base j.msg.stream false = 0 → j.msg.kvop = 1 → h.bwsDue = false → j.msg.data.length = 64 * h.units * n →
      (∀ b ∈ j.msg.bad, b = false) → h.top - h.berm + n ≤ 64 → h.top + n ≤ h.cap → Yields (.kvExecute k q rid) s fun t =>
      t.jobs = [] ∧ t.regs = s.regs ∧ t.mout = s.mout ++ answer 0 ∧ memBytes t.hbm base 64 = h.write h.berm (h.top + n) false ∧
      memBytes t.hbm (base + 512 + h.top * (64 * h.units)) (64 * h.units * n) = j.msg.data) ∧
    (∀ p more, segUnits j.seen 0 j.msg.len = true → j.seen ≠ [] → kvCheck h base j.msg.stream false = 0 → j.msg.kvop = 2 → h.bwsDue = false → j.msg.data = 1 :: p :: more →
      (∀ b ∈ j.msg.bad, b = false) → h.berm + p.toNat < h.top → Yields (.kvExecute k q rid) s fun t =>
      t.jobs = [] ∧ t.mout = s.mout ++ answer 0 ∧ memBytes t.hbm base 64 = h.write (h.berm + 1) h.top true ∧
      memBytes t.hbm (base + 512 + h.berm * (64 * h.units)) (64 * h.units) =
        memBytes s.hbm (base + 512 + (h.berm + p.toNat) * (64 * h.units)) (64 * h.units) ∧
      ∀ a, base + 512 + (h.berm + 1) * (64 * h.units) ≤ a → memGet t.hbm a = memGet s.hbm a)

/-- R170, R188: a GO of CLEAN, INVAL, CLEAN_INVAL or UNMOOR sets BUSY and handles lines in range, some at once and the rest as it finishes:
a clean sends the dirty sectors to HBM, an invalidation discards lines that are not moored or are included, an unmoor ends mooring;
TPL_MAINT_DONE finishes it once its write-backs have ended and reports CODE; a GO while a job locks the cache is REFUSED. -/
def Says.TidepoolMaintenance : Prop :=
  let handled := fun (op : Nat) (incl : Bool) (l : TLine) =>
    if op = 1 then { l with dirty := 0 } else if op = 4 then { l with moor := false } else if incl = false ∧ l.moor = true then l else TLine.absent
  (∀ (die : Fin 24) (all incl : Bool) (s : State), s.rd TPL_CTRL_LOCK die.val = 0 → s.rd TPL_MAINT_BUSY die.val = 0 →
    s.rd TPL_STATUS_STATE die.val = 3 → (s.coupler die.val).upsets = [] → s.mwait = [] → (∀ k, (s.shg k).lost = false) →
    (∀ m, m < 2 ^ 32 → (s.line die.val m).err = 0 ∧ (s.line die.val m).poison = false) →
    let d := die.val
    let first := s.rd TPL_MAINT_RANGE_FIRST_LINE d
    let sel := fun m => all || (decide (first ≤ m) && decide (m < first + s.rd TPL_MAINT_RANGE_LINES d))
    ∀ x ∈ ([(.clean, 1), (.inval, 2), (.cleanInval, 3), (.unmoor, 4)] : List ((Fin 24 → Bool → Bool → Instr) × Nat)),
      Yields (x.1 die all incl) s fun t => t.tiles = s.tiles ∧ t.raised = s.raised ∧ t.hbm = s.hbm ∧ t.rd TPL_MAINT_BUSY d = 1 ∧ t.rd TPL_MAINT_OP d = x.2 ∧
        RegsBut [(TPL_MAINT_OP, d), (TPL_MAINT_ALL, d), (TPL_MAINT_INCL_MOORED, d), (TPL_MAINT_BUSY, d)] s t ∧
        (∀ e m, e < 24 → m < 2 ^ 32 → e ≠ d → t.line e m = s.line e m) ∧
        ∃ left, (t.coupler d).maint = some (x.2, incl, left, 0) ∧ ∀ m, m < 2 ^ 32 → (s.line d m).valid ≠ 0 →
          (t.line d m = if sel m = true ∧ m ∉ left then handled x.2 incl (s.line d m) else s.line d m) ∧
          (sel m = true → m ∉ left → x.2 = 1 ∨ (x.2 = 3 ∧ (incl = true ∨ (s.line d m).moor = false)) → ∀ n, n < 16 → (s.line d m).dirty.getLsbD n = true →
            let a := 512 * m + 32 * n
            ∃ rq mm, ((rq ∈ t.mreqs ∧ (d, 24 + rq.k, mm) ∈ t.mout) ∨ (rq, mm) ∈ t.mwait) ∧ rq.q = d ∧ rq.k = paStack (512 * m) ∧ rq.dest = .wback m ∧
              mm.typ = 2 ∧ mm.rid = rq.rid ∧ mm.pa = rq.pa ∧ rq.pa ≤ a ∧ a < rq.pa + 32 * rq.len ∧
              (mm.data.drop (a - rq.pa)).take 32 = (s.line d m).bytes n 1)) ∧
  (∀ (die : Fin 24) (all incl : Bool) (s : State), s.rd TPL_CTRL_LOCK die.val = 1 →
    ∀ x ∈ ([.clean, .inval, .cleanInval, .unmoor] : List (Fin 24 → Bool → Bool → Instr)),
      Yields (x die all incl) s fun t => t.rd TPL_MAINT_REFUSED die.val = 1 ∧ { t with regs := s.regs } = s ∧
        RegsBut [(TPL_MAINT_OP, die.val), (TPL_MAINT_ALL, die.val), (TPL_MAINT_INCL_MOORED, die.val), (TPL_MAINT_REFUSED, die.val)] s t) ∧
  (∀ (die : Fin 24) (s : State) (op c : Nat) (incl : Bool) (left : List Nat), c < 256 → (s.coupler die.val).maint = some (op, incl, left, c) →
    let d := die.val
    let finished := fun t : State => t.rd TPL_MAINT_BUSY d = 0 ∧ t.rd TPL_MAINT_CODE d = c ∧ (t.coupler d).maint = none ∧
      RegsBut [(TPL_MAINT_BUSY, d), (TPL_MAINT_CODE, d)] s t
    (s.anyWback d = false → left = [] → Yields (.tplMaintDone die) s fun t => finished t ∧ { t with regs := s.regs, couplers := s.couplers } = s) ∧
    (s.anyWback d = false → op = 2 ∨ op = 4 → (∀ m ∈ left, m < 2 ^ 32 ∧ (s.line d m).valid ≠ 0) → Yields (.tplMaintDone die) s fun t => finished t ∧
      ∀ m, m < 2 ^ 32 → t.line d m = if m ∈ left then handled op incl (s.line d m) else s.line d m) ∧
    (s.anyWback d = true → left = [] → Yields (.tplMaintDone die) s fun t => t.regs = s.regs ∧ (t.coupler d).maint = some (op, incl, [], c)))

/-- R168, R169, R171, R508: while the Tidepool answers, a fill installs the sectors that came back where none is valid yet, and the load that
waits is served to its tile's inbound buffer; the lee's scrub corrects a single-bit error, discards a clean line it cannot correct, which stays
moored, and poisons a dirty one. -/
def Says.TidepoolFillAndScrub : Prop :=
  (∀ (die : Fin 24) (line : BitVec 32) (s : State) (f : Fill) (w : LinePart) (tile : Fin 256), s.poolUp die.val = true → s.fills = [f] → f.die = die.val →
    f.line = line.toNat → f.back = true → f.code = 0 → f.written = 0 → f.waiters = [w] → w.kv = false → w.tile = tile.val → w.hint = 0 → w.lo + w.n ≤ 16 →
    f.lo + f.n ≤ 16 → f.want = secMask f.lo f.n → f.want ≠ 0 → f.data.length = 32 * f.n → (s.coupler die.val).upsets = [] → (∀ j ∈ s.kvs, j.die ≠ die.val) →
    let d := die.val
    let l := s.line d line.toNat
    let T := s.tile (d * 256 + tile.val)
    secMask w.lo w.n &&& ~~~(l.valid ||| f.want) = 0 → l.valid ≠ 0 → l.err = 0 → l.poison = false → T.rep = [] → Yields (.tidepoolFill die line) s fun t =>
      t.fills = [] ∧ t.regs = s.regs ∧ t.raised = s.raised ∧ t.hbm = s.hbm ∧
      (t.line d line.toNat).valid = l.valid ||| f.want ∧ (t.line d line.toNat).dirty = l.dirty ∧
      (∀ j, j < 16 → (t.line d line.toNat).bytes j 1 = if (f.want &&& ~~~l.valid).getLsbD j then (f.data.drop (32 * (j - f.lo))).take 32 else l.bytes j 1) ∧
      (∃ bs, t.poolServes d line.toNat w.lo w.n bs ∧
        t.tile (d * 256 + tile.val) = { T with inq := T.inq ++ inEntries 8 (bs.length / 128) w.addr bs (.part w.id 0x00) })) ∧
  (∀ (die : Fin 24) (line : BitVec 32) (s : State), s.rd TWN_STATUS_STATE = 4 →
    let d := die.val
    let l := s.line d line.toNat
    (l.valid ≠ 0 → l.err = 1 → Yields (.tidepoolLineScrub die line) s fun t => t.line d line.toNat = { l with err := 0 } ∧ { t with pool := s.pool } = s) ∧
    (l.err = 2 → l.dirty = 0 → Yields (.tidepoolLineScrub die line) s fun t => t.line d line.toNat = { TLine.absent with moor := l.moor } ∧
      { t with pool := s.pool, raised := s.raised } = s ∧ t.raised = s.raised ++ [⟨0x32, d, 0, none, line.toNat * 512, 0⟩]) ∧
    (l.valid ≠ 0 → l.err = 2 → l.dirty ≠ 0 → s.rd TPL_POISON_LOG_VALID d = 0 → Yields (.tidepoolLineScrub die line) s fun t =>
      t.line d line.toNat = { l with err := 0, poison := true } ∧ t.rd TPL_POISON_LOG_LINE d = line.toNat ∧ t.rd TPL_POISON_LOG_CAUSE d = 2 ∧
      t.rd TPL_POISON_LOG_VALID d = 1 ∧ t.raised = s.raised ++ [⟨0x33, d, 0, none, line.toNat * 512, 1⟩]))

/-- The parts above, together.
The model's choices it rests on: log 5, 22, 95, 96. -/
def Obligations.TidepoolFillsAndMaintenance : Prop := Says.TidepoolMaintenance ∧ Says.TidepoolFillAndScrub

/-- R176, R179, R182 to R184, R186: a quick scan whose map has the Tidepool's checksum makes the coupler active, another starts the full lane test;
the lane test's result gives the map and the width; given while the coupler is active it begins a retraining with retention (R173); a sweep sets the
offsets.
The model's choices it rests on: log 66, 70. -/
def Obligations.CouplerTraining : Prop :=
  (∀ (die : Fin 24) (up dn : List (Fin 544)) (s : State), s.rd TPL_STATUS_STATE die.val = 1 →
    let d := die.val
    let c := s.coupler d
    let same := mapCrc (up.map (·.val)) (dn.map (·.val)) = mapCrc c.failUp c.failDn
    let n := (bothMaps c.failUp c.failDn).2.2
    (¬same → Yields (.couplerQuickScan die up dn) s fun t => t.rd TPL_STATUS_STATE d = 2 ∧ t.rd TPL_STATUS_LAST_CHECK d = 2 ∧
      RegsBut [(TPL_STATUS_STATE, d), (TPL_STATUS_LAST_CHECK, d), (TPL_MAPCHK_HDL_CRC, d)] s t ∧ { t with regs := s.regs } = s) ∧
    (same → Yields (.couplerQuickScan die up dn) s fun t => t.rd TPL_STATUS_STATE d = (if n = 0 then 5 else 3) ∧
      t.rd TPL_STATUS_LAST_CHECK d = 1 ∧ t.rd TPL_STATUS_WIDTH d = 64 * n ∧ t.rd TPL_MAPCHK_HDL_CRC d = t.rd TPL_MAPCHK_TPL_CRC d ∧
      t.tiles = s.tiles ∧ t.pool = s.pool)) ∧
  (∀ (die : Fin 24) (up dn : List (Fin 544)) (offs : List (Fin 2048 × BitVec 6)) (s : State),
    let d := die.val
    s.rd TPL_STATUS_STATE d = 2 ∨ (s.rd TPL_STATUS_STATE d = 4 ∧ (s.coupler d).retrain = true) →
    let n := (bothMaps (up.map (·.val)) (dn.map (·.val))).2.2
    Yields (.couplerFullLaneTest die up dn offs) s fun t => (t.coupler d).failUp = up.map (·.val) ∧ (t.coupler d).failDn = dn.map (·.val) ∧
      (t.coupler d).rebuild = false ∧ t.rd TPL_STATUS_STATE d = (if n = 0 then 5 else 3) ∧ t.rd TPL_STATUS_WIDTH d = 64 * n ∧
      (t.coupler d).retrain = false ∧ t.tiles = s.tiles ∧ t.pool = s.pool) ∧
  (∀ (die : Fin 24) (up dn : List (Fin 544)) (offs : List (Fin 2048 × BitVec 6)) (s : State), s.rd TPL_STATUS_STATE die.val = 3 →
    s.rd TPL_MAINT_BUSY die.val = 0 → Yields (.couplerFullLaneTest die up dn offs) s fun t => t.rd TPL_STATUS_STATE die.val = 4 ∧
      (t.coupler die.val).retrain = true ∧ RegsBut [(TPL_STATUS_STATE, die.val)] s t ∧ { t with regs := s.regs, couplers := s.couplers } = s) ∧
  (∀ (die : Fin 24) (g : Fin 2048) (v : BitVec 6) (s : State), s.rd TPL_STATUS_CAL_BUSY die.val = 1 →
    Yields (.couplerSweepDone die [(g, v)]) s fun t => t.rd TPL_STATUS_CAL_BUSY die.val = 0 ∧ RegsBut [(TPL_STATUS_CAL_BUSY, die.val)] s t ∧
      { t with regs := s.regs, couplers := s.couplers } = s ∧ (t.coupler die.val).calTemp = s.govT die.val ∧
      ∀ i, smGet (fun _ => 0) (t.coupler die.val).offset i = if i = g.val then v.toNat else smGet (fun _ => 0) (s.coupler die.val).offset i)

/-- R189 to R193, R436, R437: a reference tick adds one to the wall count and, outside idle cycles, to the tide counter; a region's copy rises
at its tick edge, the Harbour die's own with the reference tick (R435), and is loaded from the beacon at tick 0, a difference being a slip; a bundle
reached before the edge stays reached in the old tick (R156); a stretched cycle counts; the cut-off sorts arms.
The model's choices it rests on: log 80. -/
def Obligations.TideClock : Prop :=
  (∀ s : State, s.tide.aligned = true → s.tide.started = true → s.wall + 1 < 2 ^ 64 → s.ticks + 1 < 2 ^ 64 →
    let H := s.region 96
    let harbour := fun (idle : Bool) (t : State) => (∀ e, e ≠ 96 → t.region e = s.region e) ∧
      (H.beacon = none → t.region 96 = if idle = false ∧ H.synced = true then { H with tick := H.tick + 1 } else H) ∧
      (∀ v, H.beacon = some v → idle = false → (s.ticks + 1) % 1024 = 0 → t.region 96 = { H with tick := v, synced := true, beacon := none })
    ((s.wall + 1) % 1024 ≠ 0 → Yields .referenceTick s fun t => t.wall = s.wall + 1 ∧ t.ticks = (if s.idle then s.ticks else s.ticks + 1) ∧
      RegsBut [(TID_WALL_TICKS, 0), (TID_COUNTER_TICKS, 0)] s t ∧ { t with regs := s.regs, regions := s.regions } = s ∧ harbour s.idle t) ∧
    ((s.wall + 1) % 1024 = 0 → Yields .referenceTick s fun t => t.wall = s.wall + 1 ∧ harbour (s.rd TID_STATUS_IDLE_NEXT != 0) t ∧
      t.rd TID_STATUS_IDLE_NOW = s.rd TID_STATUS_IDLE_NEXT ∧ t.rd TID_STATUS_IDLE_NEXT = 0 ∧
      t.ticks = (if s.rd TID_STATUS_IDLE_NEXT = 0 then s.ticks + 1 else s.ticks) ∧ t.air = [] ∧ t.tide.assign = [] ∧
      RegsBut [(TID_WALL_TICKS, 0), (TID_COUNTER_TICKS, 0), (TID_STATUS_IDLE_NOW, 0), (TID_STATUS_IDLE_NEXT, 0)] s t ∧
      t.tiles = s.tiles ∧ t.hbm = s.hbm ∧ t.pool = s.pool ∧ t.notes = s.notes ∧
      ∀ q, q < 41 → (t.stn q).fails = [] ∧ (t.stn q).report = [] ∧ (t.stn q).beacon = none ∧ (t.stn q).bufA = (s.stn q).bufA)) ∧
  (∀ s : State, s.tide.aligned = true → s.tide.started = false → Yields .referenceTick s fun t =>
    t.tide = { s.tide with started := true } ∧ { t with tide := s.tide } = s) ∧
  (∀ (die : Fin 24) (region : Fin 4) (cyc : Nat) (s : State),
    let k := 4 * die.val + region.val
    let r := s.region k
    let full := 0 < r.stretched ∧ cyc - r.tick0 ≤ r.stretched
    let key := fun i => 256 * die.val + 64 * region.val + i
    let rollover := fun t : State => (∀ i, i < 64 → t.tile (key i) = Tile.tickOver r.tick cyc (s.tile (key i))) ∧
      ∀ m, (∀ i, i < 64 → m ≠ key i) → t.tile m = s.tile m
    (s.idle = true → ¬full → (∀ i, i < 64 → (s.tile (key i)).rep = []) → Yields (.regionTickEdge die region cyc) s fun t =>
      t.region k = { r with tick0 := cyc, stretched := 0 } ∧ { t with regions := s.regions, tiles := s.tiles } = s ∧ rollover t) ∧
    (s.idle = false → r.synced = true → (s.stn die.val).tx = [] → (∀ i, i < 64 → (s.tile (key i)).rep = []) →
      Yields (.regionTickEdge die region cyc) s fun t => t.region k = { r with tick := r.tick + 1, tick0 := cyc, stretched := 0 } ∧ rollover t ∧
      (∀ e, e ≠ k → t.region e = s.region e) ∧ (¬full → t.regs = s.regs ∧ t.raised = s.raised) ∧
      (full → t.raised = s.raised ++ [⟨0x0B, die.val, region.val, none, 0, 0⟩] ∧
        t.rd HDL_CLK_FULL_TICKS k = min (s.rd HDL_CLK_FULL_TICKS k + 1) (2 ^ HDL_CLK_FULL_TICKS.wd - 1))) ∧
    (∀ (a : TxArm) (tile : Fin 256) (v : ActiveMove), s.idle = false → r.synced = true → ¬full → (s.stn die.val).tx = [a] → a.phase = .sent false →
      a.tick ≤ r.tick → a.tile = tile.val → tile.val / 64 = region.val →
      let pt : At := ⟨die, tile, cyc⟩
      (s.here pt).quiet = true → (s.here pt).active = [v] → v.cmd.id = a.id → Yields (.regionTickEdge die region cyc) s fun t =>
        (t.here pt).active = [] ∧ (t.here pt).store = (s.here pt).store ∧
        ∀ c, cyc < c → ((t.here pt).settle c).rdK v.cmd.k = (s.here pt).kNext v.cmd.k v.code) ∧
    (∀ v, r.beacon = some v → s.tk = 0 → s.idle = false → Yields (.beaconLoad die region) s fun t =>
      t.region k = { r with tick := v, synced := true, beacon := none } ∧ (∀ e, e ≠ k → t.region e = s.region e) ∧
      RegsBut [(STN_TIDE_SYNCED, die.val)] s t ∧ { t with regs := s.regs, regions := s.regions, raised := s.raised } = s ∧
      t.raised = s.raised ++ (if r.synced = true ∧ r.tick ≠ v
        then [⟨0x09, die.val, region.val, some (if (s.die die.val).running then 2 else 0), 0, 0⟩] else []) ∧
      ((∀ g, g < 4 → g ≠ region.val → (s.region (4 * die.val + g)).synced = true) → t.rd STN_TIDE_SYNCED die.val = 1)) ∧
    Yields (.droopStretch die region) s (fun t => t.region k = { r with stretched := r.stretched + 1 } ∧
      t.rd HDL_CLK_STRETCHES k = min (s.rd HDL_CLK_STRETCHES k + 1) (2 ^ HDL_CLK_STRETCHES.wd - 1) ∧
      RegsBut [(HDL_CLK_STRETCHES, k)] s t ∧ { t with regs := s.regs, regions := s.regions } = s)) ∧
  (∀ (die : Fin 24) (s : State) (a : TxArm), (s.stn die.val).tx = [a] → a.tick = s.ticks + 1 → a.phase = .armed →
    Yields (.txCutoff die) s fun t => { t with stns := s.stns } = s ∧ (t.stn die.val).tx =
      [{ a with phase := if a.start + (if s.calm then 6 else 8) ≤ (s.region (die.val * 4 + a.tile / 64)).tick0 then .ready else .missed }])

/-- R198, R204 to R206, R208, R225, R226, R230: what a station sends: in a table tick, what its arm left in the slot; its report to every other station
that is not absent; makeups assigned to it, with the header of the slot's entry; notes, in a note swell to their destination.
Every station resolves the reports to one assignment in which a makeup tick uses no waveguide and no drop port twice.
The model's choices it rests on: log 36, 107. -/
def Obligations.SwellSending : Prop :=
  (∀ (q : Fin 41) (w : Nat) (s : State), q.val < 24 → w < 60 → s.tk ≤ 1007 → s.idle = false → (s.stn q.val).up = true →
    (s.tk = 0 ∨ ∀ d, d < 60 → (s.rxAt q.val (s.tk - 1) d).valid = true → (s.tk - 1, d) ∈ (s.stn q.val).got) →
    (∀ x ∈ s.air, s.slotSwell q.val (s.tk - 1) x = false) →
    (∀ v, v < 60 → v ≠ w → (s.txAt q.val s.tk v).valid = false) → s.rd FAB_SQUALL_CTRL_EN = 0 → s.wgLit q.val w = true →
    let e := s.txAt q.val s.tk w
    let x := s.stn q.val
    e.valid = true → e.srck = 0 →
    ((∀ a ∈ x.tx, ¬(a.tick = s.ticks ∧ a.wg = w)) → Yields (.tableTick q) s fun t => { t with air := s.air } = s ∧
      t.air = s.air ++ [⟨0, false, q.val, w, e.dst, e.dport, s.tk, e.tag, [], []⟩]) ∧
    (∀ a, x.tx = [a] → a.tick = s.ticks → a.wg = w → a.phase = .ready → Yields (.tableTick q) s fun t =>
      { t with air := s.air, stns := s.stns } = s ∧ (t.stn q.val).tx = [{ a with phase := .sent false }] ∧
      t.air = s.air ++ [⟨1, false, q.val, w, e.dst, e.dport, s.tk, e.tag, a.bad, a.data⟩]) ∧
    (∀ a, x.tx = [a] → a.tick = s.ticks → a.wg = w → a.phase = .missed → Yields (.tableTick q) s fun t =>
      (t.stn q.val).tx = [{ a with phase := .failed false }] ∧ t.tiles = s.tiles ∧
      t.air = s.air ++ [⟨2, true, q.val, w, e.dst, e.dport, s.tk, e.tag, [], []⟩] ∧
      t.rd STN_TIDE_MISSED_TX q.val = min (s.rd STN_TIDE_MISSED_TX q.val + 1) 65535 ∧
      t.rd HRN_BERR_MISSED_TX (4 * q.val + w / 15) = min (s.rd HRN_BERR_MISSED_TX (4 * q.val + w / 15) + 1) 65535 ∧
      RegsBut [(STN_TIDE_MISSED_TX, q.val), (HRN_BERR_MISSED_TX, 4 * q.val + w / 15)] s t ∧
      t.raised = s.raised ++ [⟨0x0A, q.val, w, none, 0, 0⟩])) ∧
  (∀ (q : Fin 41) (s : State), s.idle = false → s.listens q.val = true → (s.stn q.val).told = 0 →
    (if q.val < 24 then s.tk = 1009 else s.tk = 1010 ∨ s.tk = 1011) → Yields (.reportTick q) s fun t =>
      let list := (failSort ((s.stn q.val).fails.filter fun f => match stnQ f.sstn with | some p => !s.absent p | none => true)).take (if s.calm then 191 else 255)
      { t with stns := s.stns, air := s.air, regs := s.regs } = s ∧ (q.val ≠ 40 → t.regs = s.regs) ∧ (t.stn q.val).report = list ∧
      ∀ d, d < 41 → d ≠ q.val → s.absent d = false → reportTick q.val d = s.tk → s.wgLit q.val (reportWg q.val d) = true →
        (⟨4, false, stnId q.val, reportWg q.val d, stnId d, reportPort q.val, s.tk, 0, [], reportBytes list⟩ : Swell) ∈ t.air) ∧
  (∀ s : State, s.idle = false → s.tk = 1012 → Yields .resolveTick s fun t =>
    ((∀ x ∈ s.air, x.kind ≠ 4) → (∀ q p, q < 41 → p < 41 → s.unreported q p = false) → { t with tide := s.tide } = s) ∧
    (∀ m f, (m, f) ∈ t.tide.assign → 1013 ≤ m ∧ m ≤ 1017 ∧ ∃ q, q < 41 ∧ f ∈ (s.stn q).report) ∧
    t.tide.assign.Pairwise fun a b => a.1 = b.1 → (a.2.sstn, a.2.swg) ≠ (b.2.sstn, b.2.swg) ∧ (a.2.dst, a.2.dport) ≠ (b.2.dst, b.2.dport)) ∧
  (∀ (q : Fin 41) (f : FailEnt) (a : TxArm) (s : State), q.val < 24 → 1013 ≤ s.tk → s.tk < 1017 → s.idle = false → s.listens q.val = true →
    (s.stn q.val).noReport = false → s.tide.assign = [(s.tk, f)] → f.sstn = q.val → (s.stn q.val).tx = [a] → a.tick % 1024 = f.tick → a.wg = f.swg →
    s.wgLit q.val f.swg = true → (s.tile (q.val * 256 + a.tile)).bytes a.addr a.data.length = a.data →
    let e := s.txAt q.val f.tick f.swg
    e.valid = true → Yields (.makeupTick q) s fun t => { t with air := s.air, stns := s.stns, free := s.free } = s ∧
      (t.stn q.val).tx = [{ a with phase := .made s.tk }] ∧ ∃ y, t.air = s.air ++ [y] ∧ y.kind = 3 ∧ y.sstn = f.sstn ∧ y.swg = f.swg ∧
        y.dst = e.dst ∧ y.dport = e.dport ∧ y.tag = e.tag ∧ y.tick = f.tick ∧ y.payload = a.data) ∧
  (∀ (q : Fin 41) (s : State) (n : NoteMsg), q.val < 24 ∨ q.val = 40 → s.idle = false → s.listens q.val = true → s.notes = [n] → n.src = q.val →
    n.dst < 24 ∨ n.dst = 40 → n.dst ≠ q.val → n.sent = 0 → s.tk = 1018 ∨ s.tk = 1019 →
    Yields (.noteTick q) s fun t =>
      let m := { n with sent := s.tk - 1017 }
      { t with notes := s.notes, air := s.air } = s ∧ t.notes = [m] ∧
      (s.wgLit q.val (slackWg q.val n.dst) = true →
        (⟨5, false, stnId q.val, slackWg q.val n.dst, stnId n.dst, q.val, s.tk, 0, noteMarks [m], noteBytes [m]⟩ : Swell) ∈ t.air))

/-- R144, R202, R203, R206, R227: a data or makeup swell whose checks pass goes to the tile's inbound buffer for the armed range, and ends the arm when
it is written; one that fails the code counts, enters the report and sets MISS; a null swell enters the report and sets MISS; an idle swell ends the
arm with TIMEOUT, and so does a makeup that fails.
The model's choices it rests on: log 85, 87. -/
def Obligations.SwellReception : Prop :=
  ∀ (q : Fin 41) (dport : Fin 60) (cyc : Nat) (s : State) (x : Swell) (a : RxArm) (tile : Fin 256) (v : ActiveMove), q.val < 24 → s.listens q.val = true →
    s.air = [x] → (s.stn q.val).rx = [a] → a.tick % 1024 = x.tick → a.dp = dport.val → a.tile = tile.val → x.bad = [] →
    let T := s.tile (q.val * 256 + tile.val)
    let T' := fun t : State => t.tile (q.val * 256 + tile.val)
    let e := s.rxAt q.val x.tick dport.val
    T.quiet = true → T.active = [v] → v.cmd.id = a.id → e.dkind = 0 → e.sstn = x.sstn → e.swg = x.swg → x.dst = q.val → x.dport = dport.val →
    x.tag % 128 = e.tag6 → s.pathBad ((stnQ x.sstn).getD 41) x.swg q.val = false →
    let landed := fun t : State => t.air = [] ∧ (t.stn q.val).rx = [] ∧ t.regs = s.regs ∧ t.raised = s.raised ∧
      T' t = { T.settle cyc with inq := T.inq ++ inEntries 10 (x.payload.length / 128) a.addr x.payload (.cmd a.id 0x00) }
    let missed := fun t : State => t.air = [] ∧ (t.stn q.val).rx = [{ a with phase := .failed true }] ∧ (T' t).store = T.store ∧ (T' t).active = [v] ∧
      (t.stn q.val).fails = (s.stn q.val).fails ++ [⟨x.sstn, x.swg, x.tick, dport.val, q.val⟩] ∧
      ∀ c, T.now < c → ((T' t).settle c).rdK v.cmd.k = T.kNext v.cmd.k 0x0C
    let ended := fun t : State => t.air = [] ∧ (t.stn q.val).rx = [] ∧ (T' t).store = T.store ∧ (T' t).active = [] ∧
      ∀ c, T.now < c → ((T' t).settle c).rdK v.cmd.k = T.kNext v.cmd.k 0x08
    (a.phase = .armed → e.valid = true →
      (x.kind = 1 → Yields (.dataSwell q dport cyc .good) s landed ∧
        Yields (.dataSwell q dport cyc .fec) s fun t => missed t ∧ t.raised = s.raised ++ [⟨0x10, q.val, x.sstn * 256 + x.swg, none, 0, 0⟩] ∧
          t.rd STN_TIDE_FEC_RX q.val = min (s.rd STN_TIDE_FEC_RX q.val + 1) 65535 ∧ RegsBut [(STN_TIDE_FEC_RX, q.val)] s t) ∧
      (x.kind = 2 → Yields (.nullSwell q dport .good) s fun t => missed t ∧ t.regs = s.regs ∧ t.raised = s.raised) ∧
      (x.kind = 0 → Yields (.idleSwell q dport .good) s fun t => ended t ∧ t.regs = s.regs ∧ t.raised = s.raised)) ∧
    (∀ m f, a.phase = .failed true → x.kind = 3 → (s.stn q.val).noReport = false → s.idle = false → s.tide.assign = [(m, f)] → m ≤ s.tk →
      (m, dport.val) ∉ (s.stn q.val).got → f.sstn = x.sstn → f.swg = x.swg → f.tick = x.tick → f.dst = q.val → f.dport = dport.val →
      Yields (.makeupSwell q dport cyc .good) s landed ∧
      Yields (.makeupSwell q dport cyc .fec) s fun t => ended t ∧ t.rd STN_TIDE_MAKEUP_TO q.val = min (s.rd STN_TIDE_MAKEUP_TO q.val + 1) 65535 ∧
        RegsBut [(STN_TIDE_MAKEUP_TO, q.val)] s t ∧ t.raised = s.raised ++ [⟨0x10, q.val, x.sstn * 256 + x.swg, none, 0, 0⟩])

/-- R148 to R150, R204, R208, R225, R236, R284, R430: a note of a note swell for a die goes to its tile's inbound buffer and counts when the die's role
and epoch match, else is answered with where the role went; one for a channel enters it; a failed swell's notes are tried three times more. A report
that does not arrive bars makeups; the Harbour die counts the slots that one names.
R224, R227: a swell with symbol errors fails where a lane's code or the CRC fails, and is as sent where its codes correct them.
The model's choices it rests on: log 34, 40, 85, 87, 97. -/
def Obligations.NoteAndReportSwells : Prop :=
  (∀ (q src : Fin 41) (cycs : List Nat) (s : State) (n : NoteMsg) (tile : Fin 256) (v : ActiveMove), src.val < 24 → src ≠ q → s.notes = [n] →
    n.src = src.val → n.dst = q.val → n.sent = 1 → n.reply = none → n.tile = tile.val → s.idle = false → s.listens q.val = true → s.tk = 1018 ∨ s.tk = 1019 →
    s.air = [slackSwell 5 src.val (slackWg src.val q.val) q.val src.val 1018 (noteMarks [n]) (noteBytes [n])] →
    let S := s.tile (src.val * 256 + tile.val)
    let S' := fun t : State => t.tile (src.val * 256 + tile.val)
    S.quiet = true → S.active = [v] → v.cmd.id = n.id →
    let ends := fun (code : Nat) (t : State) => t.notes = [] ∧ t.air = [] ∧ t.regs = s.regs ∧ (S' t).active = [] ∧
      ∀ c, S.now < c → ((S' t).settle c).rdK v.cmd.k = S.kNext v.cmd.k code
    let failed := s.raised ++ [⟨0x10, stnId q.val, 256 * src.val + (q.val + 40 - src.val) % 41, none, 0, 0⟩]
    (s.pathBad src.val (slackWg src.val q.val) q.val = false →
      (q.val < 24 → s.noteAccept q.val n.role n.epoch = true → n.poison = false →
        let key := q.val * 256 + n.dest % 256
        let addr := n.dest / 256 % 1048576 / 32 * 32
        let c0 := cycs.getD (n.dest % 256 / 64) (s.tile key).now
        let added := inEntries 10 (n.data.length / 128) addr n.data (.count (BitVec.ofNat 4 (n.dest / 2 ^ 28)) 0x00)
        (s.tile key).quiet = true → Yields (.noteSwell q src false cycs .good) s fun t => ends 0 t ∧ t.raised = s.raised ∧
          t.tile key = { (s.tile key).settle c0 with inq := (s.tile key).inq ++ added }) ∧
      (q.val < 24 → s.noteAccept q.val n.role n.epoch = false → Yields (.noteSwell q src false cycs .good) s fun t =>
        { t with notes := s.notes, air := s.air } = s ∧ t.air = [] ∧
        ∀ r, r = (s.die q.val).epoch + s.noteRank q.val n.role n.epoch * 65536 + s.rd TID_ROLE_ROLE q.val * 16777216 →
          t.notes = [{ n with src := q.val, dst := src.val, tries := 0, sent := 0, reply := some r }]) ∧
      (q.val = 40 → n.dest < 64 → n.dest ∉ s.fw.opened → Yields (.noteSwell q src false cycs .good) s fun t => ends 0x04 t ∧ t.raised = s.raised) ∧
      (q.val = 40 → n.dest < 64 → n.dest ∈ s.fw.opened → n.poison = false → (smGet (fun _ => []) s.fw.chans n.dest).length < 16 →
        Yields (.noteSwell q src false cycs .good) s fun t => ends 0 t ∧ t.raised = s.raised ∧
          ∃ slot, smGet (fun _ => []) t.fw.chans n.dest = smGet (fun _ => []) s.fw.chans n.dest ++ [slot] ∧ (slot.drop 16).take n.data.length = n.data)) ∧
    (n.tries < 3 → Yields (.noteSwell q src false cycs .fec) s fun t => { t with notes := s.notes, raised := s.raised, air := s.air } = s ∧
      t.raised = failed ∧ t.notes = [{ n with tries := n.tries + 1, sent := 5 }]) ∧
    (3 ≤ n.tries → Yields (.noteSwell q src false cycs .fec) s fun t => ends 0x08 t ∧ t.raised = failed)) ∧
  (∀ (q src : Fin 41) (s : State) (w port tick : Nat) (fs : List FailEnt), s.idle = false → s.listens q.val = true → tick ≤ s.tk →
    s.air = [slackSwell 4 src.val w q.val port tick [] (reportBytes fs)] →
    ((s.stn q.val).noReport = false → Yields (.reportSwell q src .fec) s fun t => (t.stn q.val).noReport = true ∧
      t.rd STN_HRN_NO_REPORT q.val = min (s.rd STN_HRN_NO_REPORT q.val + 1) 65535 ∧ RegsBut [(STN_HRN_NO_REPORT, q.val)] s t ∧ t.air = [] ∧
      t.raised = s.raised ++ [⟨0x10, stnId q.val, stnId src.val * 256 + w, none, 0, 0⟩, ⟨0x14, stnId q.val, 0, none, 0, 0⟩] ∧
      { t with regs := s.regs, stns := s.stns, raised := s.raised, air := s.air } = s) ∧
    (s.pathBad src.val w q.val = false → q.val ≠ 40 → Yields (.reportSwell q src .good) s fun t => t.air = [] ∧ { t with air := s.air } = s) ∧
    (∀ f fq, s.pathBad src.val w q.val = false → q.val = 40 → fs = [f] → stnQ f.sstn = some fq → f.swg < wgCount fq → Yields (.reportSwell q src .good) s fun t =>
      t.rd HRN_BERR_FAILED (wgBundle fq f.swg) = min (s.rd HRN_BERR_FAILED (wgBundle fq f.swg) + 1) 65535 ∧
      RegsBut [(HRN_BERR_FAILED, wgBundle fq f.swg)] s t ∧ t.air = [] ∧ { t with regs := s.regs, air := s.air } = s)) ∧
  (∀ (q src : Fin 41) (dport : Fin 60) (second : Bool) (cyc : Nat) (cycs : List Nat) (es : List (Fin 16 × Fin 76 × BitVec 8)) (s : State),
    let as := fun rx => exec (.dataSwell q dport cyc (.errors es)) s = exec (.dataSwell q dport cyc rx) s ∧
      exec (.nullSwell q dport (.errors es)) s = exec (.nullSwell q dport rx) s ∧ exec (.idleSwell q dport (.errors es)) s = exec (.idleSwell q dport rx) s ∧
      exec (.makeupSwell q dport cyc (.errors es)) s = exec (.makeupSwell q dport cyc rx) s ∧ exec (.reportSwell q src (.errors es)) s = exec (.reportSwell q src rx) s ∧
      exec (.noteSwell q src second cycs (.errors es)) s = exec (.noteSwell q src second cycs rx) s ∧ exec (.beacon q (.errors es)) s = exec (.beacon q rx) s
    (wireDiff s.calm es = none → as .fec) ∧
    (∀ d, wireDiff s.calm es = some d → (∀ b ∈ d.take 12, b = 0) → (∀ b ∈ d.drop 16, b = 0) → as .good))

/-- R200, R201, R222, R260, R293, R433, R439: loads of tide tables into inactive buffers and their check, the requests for swaps and module roles, and
the mode change of an idle cycle, in which a station takes the optical mode that its beacon named. A load that names no station ends with UNSUPPORTED
(the model's choice, log 22).
The model's choices it rests on: log 23, 57. -/
def Obligations.TideTablesAndRequests : Prop :=
  (∀ (station : BitVec 8) (buf : Bool) (addr : BitVec 41) (s : State) (q : Nat), s.rd TID_LOAD_BUSY = 0 → stnQ station.toNat = some q →
    let active := (s.stn q).hasActive = true ∧ (s.rd STN_TIDE_ACTIVE q = if buf then 1 else 0)
    let regs := [(TID_LOAD_STATION, 0), (TID_LOAD_BUF, 0), (TID_LOAD_ADDR_ADDR, 0)]
    (active ∨ s.swapNames q = true → Yields (.tideTableLoad station buf addr) s fun t => t.rd TID_LOAD_CODE = 0x05 ∧ t.rd TID_LOAD_BUSY = 0 ∧
      RegsBut ((TID_LOAD_CODE, 0) :: regs) s t ∧ { t with regs := s.regs } = s) ∧
    (¬active → s.swapNames q = false → paOk addr.toNat 0x100000 = true → addr.toNat % 4096 ≠ 0 → Yields (.tideTableLoad station buf addr) s fun t =>
      t.rd TID_LOAD_CODE = 0x04 ∧ RegsBut ((TID_LOAD_CODE, 0) :: regs) s t ∧ { t with regs := s.regs } = s) ∧
    (¬active → s.swapNames q = false → paOk addr.toNat 0x100000 = false → s.rd SHG_ERRLOG_VALID (paStack addr.toNat) = 0 →
      Yields (.tideTableLoad station buf addr) s fun t => t.rd TID_LOAD_CODE = 0x04 ∧ t.rd SHG_ERRLOG_VALID (paStack addr.toNat) = 1 ∧
        t.rd SHG_ERRLOG_CAUSE (paStack addr.toNat) = 0 ∧ t.rd SHG_ERRLOG_STATION (paStack addr.toNat) = 0x30 ∧ { t with regs := s.regs } = s) ∧
    (¬active → s.swapNames q = false → addr.toNat % 4096 = 0 → s.hbmReady addr.toNat 0x100000 →
      Yields (.tideTableLoad station buf addr) s fun t => t.rd TID_LOAD_BUSY = 1 ∧ t.tide.load = some (q, buf, false) ∧ t.hbm = s.hbm ∧
        t.rd (if buf then STN_TIDE_VALID_B else STN_TIDE_VALID_A) q = 0 ∧
        (∀ o, o < 0x100000 → memGet (if buf then (t.stn q).bufB else (t.stn q).bufA) o = memGet s.hbm (addr.toNat + o)) ∧
        (if buf then (t.stn q).bufA else (t.stn q).bufB) = (if buf then (s.stn q).bufA else (s.stn q).bufB))) ∧
  (∀ (station : BitVec 8) (buf : Bool) (addr : BitVec 41) (s : State), s.rd TID_LOAD_BUSY = 0 → stnQ station.toNat = none →
    Yields (.tideTableLoad station buf addr) s fun t => t.rd TID_LOAD_CODE = 0x09 ∧ t.rd TID_LOAD_BUSY = 0 ∧ { t with regs := s.regs } = s) ∧
  (∀ (s : State) (q : Nat) (b : Bool), q < 41 →
    let valid := if b then STN_TIDE_VALID_B else STN_TIDE_VALID_A
    let img := if b then (s.stn q).bufB else (s.stn q).bufA
    (s.tide.load = some (q, b, true) → Yields .tideTableCheck s fun t => t.rd TID_LOAD_BUSY = 0 ∧ t.rd TID_LOAD_CODE = 0x01 ∧ t.tide.load = none ∧
      RegsBut [(TID_LOAD_BUSY, 0), (TID_LOAD_CODE, 0)] s t) ∧
    (s.tide.load = some (q, b, false) → tableCheck q img = none → Yields .tideTableCheck s fun t => t.rd TID_LOAD_BUSY = 0 ∧ t.rd TID_LOAD_CODE = 0 ∧
      t.rd valid q = 1 ∧ t.tide.load = none ∧ RegsBut [(TID_LOAD_BUSY, 0), (TID_LOAD_CODE, 0), (valid, q)] s t) ∧
    (∀ u, u < 2 ^ 18 → s.tide.load = some (q, b, false) → tableCheck q img = some u → Yields .tideTableCheck s fun t => t.rd TID_LOAD_BUSY = 0 ∧
      t.rd TID_LOAD_CODE = 0x09 ∧ t.rd TID_LOAD_BAD_ENTRY = u ∧ RegsBut [(TID_LOAD_BUSY, 0), (TID_LOAD_CODE, 0), (TID_LOAD_BAD_ENTRY, 0)] s t)) ∧
  (∀ (hdl : BitVec 24) (shg : BitVec 16) (hrb turn : Bool) (s : State), Yields (.swapRequest hdl shg hrb turn) s fun t =>
    { t with regs := s.regs, tide := s.tide } = s ∧ (∃ r, t.tide.swapReqs = s.tide.swapReqs ++ [r] ∧ r.turn = turn ∧ r.modes = none ∧
      ∀ q, q ∈ r.stations ↔ (q < 24 ∧ hdl.getLsbD q = true) ∨ (24 ≤ q ∧ q < 40 ∧ shg.getLsbD (q - 24) = true) ∨ (q = 40 ∧ hrb = true)) ∧
    t.rd TID_SWAP_HDL = hdl.toNat ∧ t.rd TID_SWAP_SHG = shg.toNat ∧
    RegsBut [(TID_SWAP_HDL, 0), (TID_SWAP_SHG, 0), (TID_SWAP_HRB, 0), (TID_SWAP_TURN, 0)] s t) ∧
  (∀ (mrole : BitVec 3) (fwd : BitVec 8) (s : State), Yields (.moduleRoleRequest mrole fwd) s fun t =>
    { t with regs := s.regs, tide := s.tide } = s ∧ t.tide = { s.tide with mroleReq := some (mrole.toNat, fwd.toNat) } ∧
    t.rd TID_MROLE_NEXT_MROLE = mrole.toNat ∧ t.rd TID_MROLE_NEXT_FWD_RANK = fwd.toNat ∧
    RegsBut [(TID_MROLE_NEXT_MROLE, 0), (TID_MROLE_NEXT_FWD_RANK, 0)] s t) ∧
  (∀ s : State, (s.idle = false → Yields .idleCycle s (· = s)) ∧
    (s.idle = true → s.tide.pwrNext < 2 → s.tide.optNext < 2 → Yields .idleCycle s fun t => t.rd TID_STATUS_PWR_MODE = s.tide.pwrNext ∧
      t.rd TID_STATUS_OPT_MODE = s.tide.optNext ∧ (∀ q, q < 41 → t.stn q = { s.stn q with opt := (s.stn q).optTo }) ∧
      { t with regs := s.regs, stns := s.stns } = s ∧
      RegsBut [(TID_STATUS_PWR_MODE, 0), (TID_STATUS_OPT_MODE, 0), (GLB_MODULE_ID_OPT_MODE, 0)] s t ∧
      ((∀ h ∈ s.tide.swapLatched, h.req.modes = none) → t.rd GLB_MODULE_ID_OPT_MODE = s.rd GLB_MODULE_ID_OPT_MODE) ∧
      (∀ h m, s.tide.swapLatched = some h → h.req.modes = some m → t.rd GLB_MODULE_ID_OPT_MODE = s.tide.optNext)))

/-- R201, R209 to R212, R222, R225, R230, R272, R280 to R283, R445, R464: at 1,008 the oldest swap request is latched or refused and the throttle
level is the highest request; at 1,020 and 1,021 the beacon tells every station the next cycle and its optical mode; at 1,022 bands and refresh change
and a station that used neither copy counts; after 1,023, before an active cycle, a latched swap makes the named stations' other buffers active and a
turn gives the movers their new tenures.
The model's choices it rests on: log 48, 49, 87, 97. -/
def Obligations.SlackWater : Prop :=
  (∀ s : State, s.tide.started = true → s.wk = 1008 → s.twn.rewrite = [] →
    (s.idle = true ∨ ∀ q d, q < 41 → (s.rxAt q 1007 d).valid = true → (1007, d) ∈ (s.stn q).got) →
    Yields .settleTick s (fun t => t.tiles = s.tiles ∧ t.hbm = s.hbm ∧ t.pool = s.pool ∧
      t.rd PWR_THROTTLE_LEVEL = [t.rd PWR_THROTTLE_CUR_REQ, t.rd PWR_THROTTLE_HDL_REQ, t.rd PWR_THROTTLE_TPL_REQ, t.rd PWR_THROTTLE_SHG_REQ,
        t.rd PWR_THROTTLE_HRB_REQ, t.rd PWR_THROTTLE_FLT_REQ, t.rd PWR_CTRL_HOST_LEVEL].foldl max 0 ∧
      ∀ k, k < 16 → 48 + k ∈ s.pwr.blind → (t.shg k).bandNext = 2) ∧
    (∀ r rs, s.tide.swapReqs = r :: rs → s.tide.swapLatched = none → r.modes = none → s.abortsNow = [] →
      (r.turn = false → (∀ n, n < 24 → n ∈ r.stations → s.moves s.nextMap n = false) →
        (∀ q ∈ r.stations, s.inactiveModes q = some (s.tide.pwrNext + 2 * s.tide.optNext)) →
        Yields .settleTick s fun t => t.tide.swapReqs = rs ∧ t.tide.swapLatched = some ⟨r, s.nextMap⟩ ∧ t.rd TID_SWAP_PENDING = 1) ∧
      (∀ n, r.turn = true → n < 24 → s.moves s.nextMap n = true → (s.die n).running = true →
        (∀ m, m < n → ¬(s.moves s.nextMap m = true ∧ (s.die m).running = true)) →
        Yields .settleTick s fun t => t.tide.swapReqs = rs ∧ t.tide.swapLatched = none ∧ t.rd TID_SWAP_REFUSED = 1 ∧
          t.rd TID_TURN_CAUSE = 1 ∧ t.rd TID_TURN_RANK = n))) ∧
  (∀ s : State, s.tide.started = true → s.wk = 1020 ∨ s.wk = 1021 → s.listens 40 = true → (s.stn 40).told.testBit (s.wk - 1017) = false →
    let sent := fun (b : BeaconMsg) (t : State) => t.air = s.air ++
      ((List.range 40).filter fun d => s.wgLit 40 d).map (fun d => slackSwell 6 40 d d 0 s.wk [] b.bytes) ∧ (t.stn 40).told.testBit (s.wk - 1017) = true
    (∀ b, s.sentBeacon = some b → Yields .beaconTick s fun t => sent b t ∧ { t with stns := s.stns, air := s.air } = s) ∧
    (s.sentBeacon = none →
      Yields .beaconTick s fun t => t.rd TID_STATUS_THROTTLE = s.rd PWR_THROTTLE_LEVEL ∧ t.rd TID_STATUS_IDLE_NEXT = (if s.idleNext then 1 else 0) ∧
        RegsBut [(TID_STATUS_THROTTLE, 0), (TID_STATUS_IDLE_NEXT, 0), (STN_TIDE_SYNCED, 40)] s t ∧
        { t with regs := s.regs, stns := s.stns, tide := s.tide, air := s.air, regions := s.regions } = s ∧
        ∃ b, sent b t ∧ t.tide.beacon = some b ∧ (t.stn 40).beacon = some b ∧ (t.region hrbRegion).beacon = some b.tick0 ∧
          b.tick0 = (s.ticks / 1024 + 1) * 1024 ∧ b.wall0 = (s.wall / 1024 + 1) * 1024 ∧
          b.idleNext = s.idleNext ∧ b.pwr = s.tide.pwrNext ∧ b.opt = s.tide.optNext ∧ b.level = s.rd PWR_THROTTLE_LEVEL ∧
          ∀ h q, s.tide.swapLatched = some h → q < 41 → (b.swap.testBit (stnId q) = true ↔ q ∈ h.req.stations))) ∧
  (∀ b : BeaconMsg, b.tick0 < 2 ^ 64 → b.wall0 < 2 ^ 64 → b.swap < 2 ^ 64 → b.turn < 2 ^ 64 → b.pwr < 2 → b.opt < 2 → b.level < 8 →
    b.bytes.length = 40 ∧ beaconOf b.bytes = some b) ∧
  (∀ (q : Fin 41) (s : State) (b : BeaconMsg) (p : List Byte), q.val < 40 → s.tide.started = true → s.wk = 1020 ∨ s.wk = 1021 →
    s.listens q.val = true → s.air = [slackSwell 6 40 q.val q.val 0 s.wk [] p] → (s.stn q.val).beacon = none →
    let lost := fun t : State => (t.stn q.val).beacon = none ∧ t.air = [] ∧
      t.rd STN_HRN_BEACON_LOST q.val = min (s.rd STN_HRN_BEACON_LOST q.val + 1) 65535 ∧ RegsBut [(STN_HRN_BEACON_LOST, q.val)] s t
    let taken := fun t : State => t.air = [] ∧ t.stn q.val = { s.stn q.val with
      beacon := some b, optTo := b.opt, swapAnn := (s.stn q.val).swapAnn || b.swap.testBit (stnId q.val), turnAnn := (s.stn q.val).turnAnn || b.turn.testBit (stnId q.val) }
    (s.pathBad 40 q.val q.val = false → beaconOf p = some b →
      (q.val < 24 → (s.stn q.val).tx = [] → (s.stn q.val).rx = [] → Yields (.beacon q .good) s fun t => taken t ∧
        (∀ g, g < 4 → (t.region (4 * q.val + g)).beacon = some b.tick0) ∧ { t with stns := s.stns, regions := s.regions, air := s.air } = s) ∧
      (24 ≤ q.val → Yields (.beacon q .good) s fun t => taken t ∧ t.rd STN_TIDE_SYNCED q.val = 1 ∧
        RegsBut [(STN_TIDE_SYNCED, q.val)] s t ∧ { t with stns := s.stns, regs := s.regs, air := s.air } = s)) ∧
    ((s.stn q.val).badCopies = 0 → Yields (.beacon q .fec) s fun t => t.stn q.val = { s.stn q.val with badCopies := 1 } ∧ t.air = [] ∧
      { t with stns := s.stns, raised := s.raised, air := s.air } = s ∧ t.raised = s.raised ++ [⟨0x10, stnId q.val, 256 * stnId 40 + q.val, none, 0, 0⟩]) ∧
    ((s.stn q.val).badCopies = 1 → Yields (.beacon q .fec) s fun t => lost t ∧
      t.raised = s.raised ++ [⟨0x10, stnId q.val, 256 * stnId 40 + q.val, none, 0, 0⟩, ⟨0x13, stnId q.val, 0, none, 0, 0⟩])) ∧
  (∀ s : State, s.tide.started = true → s.wk = 1022 → s.light.raising = [] → (∀ k, k < 16 → (s.shg k).bandNext < 4) →
    s.idle = true ∨ (s.tide.assign = [] ∧ (∀ r ∈ s.mreqs, r.doomed = false) ∧ s.hrbDone = [] ∧ ∀ n ∈ s.notes, n.sent ≠ 1 ∧ n.sent ≠ 2) →
    Yields .quietTick s fun t => t.tiles = s.tiles ∧ t.hbm = s.hbm ∧ (∀ k, k < 16 → t.rd SHG_STATUS_REFRESH k = (s.shg k).bandNext) ∧
      (∀ q, q < 41 → smGet (fun _ => 0) t.light.band q = tapStep (smGet (fun _ => 0) s.light.band q) (smGet (fun _ => 0) s.light.bandTo q)) ∧
      t.air = s.air.filter (fun x => x.kind != 6) ∧
      ∀ q, q < 40 → s.listens q = true → (s.stn q).beacon = none → (s.stn q).badCopies < 2 →
        t.rd STN_HRN_BEACON_LOST q = min (s.rd STN_HRN_BEACON_LOST q + 1) 65535 ∧ (⟨0x13, stnId q, 0, none, 0, 0⟩ : FaultEvt) ∈ t.raised) ∧
  (∀ (s : State) (h : SwapHeld), s.tide.started = true → s.wk = 1023 → s.plans = [] → s.sec.handover = false → s.tide.swapLatched = some h →
    (s.rd TID_STATUS_IDLE_NEXT = 1 → Yields .quietTick s fun t => t.tide.swapLatched = some h) ∧
    (s.rd TID_STATUS_IDLE_NEXT = 0 → h.req.stations.Nodup → (∀ q ∈ h.req.stations, q < 41 ∧ (s.stn q).swapAnn = true) →
      Yields .quietTick s fun t => t.tide.swapLatched = none ∧ t.rd TID_SWAP_PENDING = 0 ∧ t.hbm = s.hbm ∧
        (∀ q, q < 41 → q ∈ h.req.stations → (t.stn q).hasActive = true ∧
          t.rd STN_TIDE_ACTIVE q = if (s.stn q).hasActive = true ∧ s.rd STN_TIDE_ACTIVE q = 0 then 1 else 0) ∧
        (∀ q, q < 41 → q ∉ h.req.stations → (t.stn q).hasActive = (s.stn q).hasActive ∧ t.rd STN_TIDE_ACTIVE q = s.rd STN_TIDE_ACTIVE q) ∧
        (h.req.turn = false → t.tiles = s.tiles ∧ t.rd TID_EPOCH_EPOCH = s.rd TID_EPOCH_EPOCH) ∧
        (h.req.turn = true → t.rd TID_EPOCH_EPOCH = (s.rd TID_EPOCH_EPOCH + 1) % 65536 ∧ ∀ n role slot restart, n < 24 →
          h.map.getD n (0, 31, false) = (role, slot, restart) → role < 8 → slot < 32 → (t.die n).epoch = t.rd TID_EPOCH_EPOCH ∧ (t.die n).role = t.rd TID_ROLE_ROLE n ∧
          (s.moves h.map n = false → t.rd TID_ROLE_ROLE n = s.rd TID_ROLE_ROLE n ∧ t.rd TID_ROLE_SINCE n = s.rd TID_ROLE_SINCE n) ∧
          (s.moves h.map n = true → t.rd TID_ROLE_ROLE n = role ∧ t.rd TID_ROLE_SLOT n = slot ∧ t.rd TID_ROLE_SINCE n = t.rd TID_EPOCH_EPOCH ∧
            t.rd TID_ROLE_PREV_ROLE n = s.rd TID_ROLE_ROLE n ∧ t.rd TID_ROLE_PREV_SLOT n = s.rd TID_ROLE_SLOT n ∧
            t.rd TID_ROLE_PREV_SINCE n = s.rd TID_ROLE_SINCE n))))

/-- R238 to R247, R253, R258: fades are averaged and cross their thresholds, spares warm, lock and go to the source that needs them first, a source that
fails leaves its position dark, a swap gives the spare the position, hours of light are counted, and a cartridge without light starts no source.
The model's choices it rests on: log 25, 63, 111. -/
def Obligations.LaserSources : Prop :=
  let brisk := [(HRN_OPTSEL_BRISK_OK, 0), (HRN_OPTSEL_CALM_WHY, 0)]
  let watched := fun s : State => ∀ m, m < 26 → (s.srcH m).alone = s.unserved m
  (∀ (n : Fin 26) (l : Int) (ls : List Int) (s : State), s.srcSt n.val = 5 →
    let low := ls.foldl min l
    let hist := (low :: (s.srcH n.val).hist).take 1000
    let fade := hist.foldl (· + ·) 0 / (hist.length : Int)
    let ev := fun (row cls : Nat) => (⟨0x20, 0x30, 8 * n.val + row, some cls, 0, 0⟩ : FaultEvt)
    let w1 := if s.rd HRN_SRC_WARN n.val = 0 then [ev 1 0] else []
    let after := fun P : State → Prop => Yields (.fadeSample n (l :: ls)) s fun t =>
      t.rd HRN_SRC_FADE n.val = (fade % 65536).toNat ∧ (t.srcH n.val).hist = hist ∧ { t with regs := s.regs, light := s.light, raised := s.raised } = s ∧ P t
    (low < -600 → s.rd HRN_SRC_POSITION n.val < 24 → Yields (.fadeSample n (l :: ls)) s fun t => t.srcSt n.val = 8 ∧
      t.light.darkPos = s.light.darkPos ++ [s.rd HRN_SRC_POSITION n.val] ∧ (watched s → t.raised = s.raised ++ [⟨0x21, 0x30, n.val, none, 0, 0⟩])) ∧
    (-600 ≤ low → -32768 ≤ fade → fade < 32768 → watched s →
      (-100 ≤ fade → s.rd HRN_SRC_WARN n.val = 0 → s.rd HRN_SRC_SWAP_DUE n.val = 0 → after fun t =>
        t.raised = s.raised ∧ RegsBut ((HRN_SRC_FADE, n.val) :: (HRN_SRC_LIT_HOURS, n.val) :: brisk) s t) ∧
      (fade < -100 → -200 ≤ fade → s.rd HRN_SRC_WARN n.val = 0 → s.rd HRN_SRC_SWAP_DUE n.val = 0 → after fun t =>
        t.rd HRN_SRC_WARN n.val = 1 ∧ t.raised = s.raised ++ [ev 1 0] ∧
        (s.rd HRN_LS_CTRL_PREHEAT_EN = 1 → s.srcSt 24 = 0 → s.dark = false → t.srcSt 24 = 1)) ∧
      (fade < -200 → -350 ≤ fade → s.rd HRN_SRC_SWAP_DUE n.val = 0 → s.sparesComing = true → after fun t =>
        t.rd HRN_SRC_SWAP_DUE n.val = 1 ∧ (t.srcH n.val).dueAt = s.wall ∧ t.raised = s.raised ++ w1 ++ [ev 2 0]) ∧
      (fade < -200 → -350 ≤ fade → s.rd HRN_SRC_SWAP_DUE n.val = 0 → s.sparesComing = false → s.unserved n.val = false → s.rd HRN_LS_CTRL_PREHEAT_EN = 0 →
        after fun t => t.rd HRN_SRC_SWAP_DUE n.val = 1 ∧ t.raised = s.raised ++ w1 ++ [ev 3 1] ∧ t.rd HRN_OPTSEL_BRISK_OK = 0) ∧
      (fade < -350 → s.rd HRN_SRC_WARN n.val = 1 → s.rd HRN_SRC_SWAP_DUE n.val = 1 → s.rd HRN_SRC_UNSPARED n.val = 0 → s.sparesComing = false →
        s.unserved n.val = true → s.rd HRN_LS_CTRL_PREHEAT_EN = 0 → after fun t => t.rd HRN_SRC_UNSPARED n.val = 1 ∧ t.raised = s.raised ++ [ev 4 1]) ∧
      (∀ sp, fade < -200 → s.rd HRN_SRC_SWAP_DUE n.val = 0 → s.rd HRN_LS_CTRL_SWAP_EN = 1 → (∀ x ∈ s.light.raising, x.2.1 ≠ n.val) →
        (∀ m, m < 26 → m ≠ n.val → s.wantsSpare m = false) → s.readyFor n.val = some sp → sp < 26 →
        after fun t => t.light.raising = s.light.raising ++ [(sp, n.val, s.wall + 100000)]))) ∧
  (∀ (s : State) (sp n : Nat), sp < 26 → n < 26 → (∀ m, m < 26 → (s.srcSt m = 1 ∨ s.srcSt m = 3 ∨ s.srcSt m = 4 ↔ m = sp)) →
    s.rd HRN_SRC_WARN n = 1 → s.srcSt n = 5 →
    (∀ m, m < 26 → m ≠ n → s.rd HRN_SRC_WARN m = 1 → s.srcSt m = 5 → fadeOf (s.rd HRN_SRC_FADE n) < fadeOf (s.rd HRN_SRC_FADE m)) →
    Yields .spareReservation s fun t => t.light.reserved = [(sp, n)] ∧ { t with regs := s.regs, light := s.light } = s ∧
      RegsBut ((List.range 26).map fun m => (HRN_SRC_LIT_HOURS, m)) s t ∧ ∀ m, m < 26 →
        let shone := (s.srcH m).litTicks + if s.srcSt m ∈ [4, 5, 6] then s.wall - (s.srcH m).litSince else 0
        t.rd HRN_SRC_LIT_HOURS m = min (s.rd HRN_SRC_LIT_HOURS m + shone / 360000000000) (2 ^ 24 - 1)) ∧
  (∀ (n : Fin 26) (s : State), watched s →
    let hours := (HRN_SRC_LIT_HOURS, n.val)
    (s.srcSt n.val = 1 → s.dark = false → Yields (.spareWarmed n) s fun t => t.srcSt n.val = 3 ∧ RegsBut [(HRN_SRC_STATE, n.val), hours] s t ∧
      { t with regs := s.regs, light := s.light } = s) ∧
    (s.srcSt n.val = 1 → s.dark = true → Yields (.spareWarmed n) s fun t => t.srcSt n.val = 2 ∧ RegsBut ((HRN_SRC_STATE, n.val) :: hours :: brisk) s t) ∧
    (s.srcSt n.val = 3 → s.dark = false → (∀ m, m < 26 → s.wantsSpare m = false) → Yields (.spareLocked n) s fun t =>
      t.srcSt n.val = 4 ∧ RegsBut ((HRN_SRC_STATE, n.val) :: hours :: brisk) s t ∧ { t with regs := s.regs, light := s.light } = s ∧
      t.light.raising = s.light.raising) ∧
    (s.srcSt n.val = 3 → s.dark = true → Yields (.spareLocked n) s (· = s)) ∧
    (∀ m, s.srcSt n.val = 3 → s.dark = false → m < 26 → (∀ j, j ≠ n.val → s.srcSt j ≠ 4) → (∀ x ∈ s.light.raising, x.1 ≠ n.val ∧ x.2.1 ≠ m) →
      let goes := Yields (.spareLocked n) s fun t => t.srcSt n.val = 4 ∧ t.light.raising = s.light.raising ++ [(n.val, m, s.wall + 100000)]
      (s.srcSt m = 8 → s.rd HRN_SRC_POSITION m ∈ s.light.darkPos → (∀ j, j < m → s.srcSt j = 8 → s.wantsSpare j = false) → goes) ∧
      (s.srcSt m = 5 → s.rd HRN_SRC_SWAP_DUE m = 1 → s.rd HRN_LS_CTRL_SWAP_EN = 1 → (∀ j, j < 26 → j ≠ m → s.wantsSpare j = true →
        s.srcSt j ≠ 8 ∧ ((s.srcH m).dueAt / 100000000 < (s.srcH j).dueAt / 100000000 ∨ (s.srcH m).dueAt / 100000000 = (s.srcH j).dueAt / 100000000 ∧
          (fadeOf (s.rd HRN_SRC_FADE m) < fadeOf (s.rd HRN_SRC_FADE j) ∨ fadeOf (s.rd HRN_SRC_FADE m) = fadeOf (s.rd HRN_SRC_FADE j) ∧ m < j))) → goes)) ∧
    (∀ m, s.srcSt n.val = 3 → n.val = 24 ∧ m = 25 ∨ n.val = 25 ∧ m = 24 → s.dark = false → Yields (.spareLockTimeout n) s fun t =>
      t.srcSt n.val = 8 ∧ t.srcSt m = (if s.srcSt m = 0 then 1 else s.srcSt m) ∧
      ∃ more, t.raised = s.raised ++ [⟨0x22, 0x30, n.val, none, 0, 0⟩] ++ more ∧ (s.srcSt m = 0 → more = [])) ∧
    (s.srcSt n.val = 5 ∨ s.srcSt n.val = 6 → s.rd HRN_SRC_POSITION n.val < 24 → Yields (.sourceFailed n) s fun t => t.srcSt n.val = 8 ∧
      t.light.darkPos = s.light.darkPos ++ [s.rd HRN_SRC_POSITION n.val] ∧ t.raised = s.raised ++ [⟨0x21, 0x30, n.val, none, 0, 0⟩] ∧
      (∀ sp, s.readyFor n.val = some sp → sp < 26 → (∀ x ∈ s.light.raising, x.2.1 ≠ n.val) →
        (∀ j, j < 26 → j ≠ n.val → s.srcSt j ≠ 8 ∧ (s.srcSt j = 5 → s.rd HRN_SRC_SWAP_DUE j = 0)) →
        t.light.raising = s.light.raising ++ [(sp, n.val, s.wall + 100000)]))) ∧
  (∀ s : State, watched s →
    let starts := fun (n : Nat) (t : State) => t.srcSt n = 1 ∧ RegsBut ((HRN_SRC_STATE, n) :: (HRN_SRC_LIT_HOURS, n) :: brisk) s t ∧
      { t with regs := s.regs, light := s.light } = s
    (s.dark = false → s.srcSt 24 = 0 → Yields .preheatNow s (starts 24)) ∧
    (s.dark = false → s.srcSt 24 ≠ 0 → s.srcSt 25 = 0 → Yields .preheatNow s (starts 25)) ∧
    (s.dark = true ∨ s.srcSt 24 ≠ 0 ∧ s.srcSt 25 ≠ 0 → Yields .preheatNow s fun t => RegsBut brisk s t ∧ { t with regs := s.regs } = s)) ∧
  (∀ (s : State) (sp n w : Nat), s.tide.started = true → s.wk = 1022 → s.light.raising = [(sp, n, w)] → w + 1022 ≤ s.wall →
    s.idle = true ∨ (s.tide.assign = [] ∧ (∀ r ∈ s.mreqs, r.doomed = false) ∧ s.hrbDone = [] ∧ ∀ n ∈ s.notes, n.sent ≠ 1 ∧ n.sent ≠ 2) →
    sp < 26 → n < 26 → sp ≠ n →
    Yields .quietTick s fun t => t.srcSt sp = 5 ∧ t.rd HRN_SRC_POSITION sp = s.rd HRN_SRC_POSITION n ∧ t.rd HRN_SRC_POSITION n = 31 ∧
      t.srcSt n = (if s.srcSt n = 8 then 8 else 7) ∧ t.light.raising = [] ∧ s.rd HRN_SRC_POSITION n ∉ t.light.darkPos) ∧
  (∀ (serial : BitVec 32) (rev : BitVec 8) (s : State), Yields (.cartridgeInsertion serial rev) s fun t => t.rd HRN_CART_PRESENT = 1 ∧
    t.rd HRN_CART_INTERLOCK = 1 ∧ t.rd HRN_CART_SERIAL = serial.toNat ∧ t.rd HRN_CART_CART_REV = rev.toNat ∧
    t.light = { s.light with noLight := s.light.noLight || s.rst.powered } ∧
    RegsBut [(HRN_CART_PRESENT, 0), (HRN_CART_INTERLOCK, 0), (HRN_CART_SERIAL, 0), (HRN_CART_CART_REV, 0)] s t ∧
    { t with regs := s.regs, light := s.light } = s)

/-- R220, R231 to R236, R249 to R252, R256: bundle maps are announced two cycles ahead, for a quarantined waveguide or a careen, and come into force with
EFFECT at the stations that got the write; a careened position returns after 16 cycles; decoders, ring locks, the rate detector and open fibre ports
are recorded, and a port that has light again trains its link.
The model's choices it rests on: log 106. -/
def Obligations.BundlesAndRings : Prop :=
  (∀ (b : Fin 131) (effect : Nat) (s : State), effect < 2 ^ 64 → effect % 1024 = 0 → s.ticks / 1024 + 2 ≤ effect / 1024 → (∀ m ∈ s.tide.maps, m.1 ≠ b.val) →
    let told := fun (t : State) (p use : Nat) => t.rd HRN_SWITCH_EFFECT = effect ∧ t.rd HRN_STATUS_SWITCH_PEND = 1 ∧
      t.tide.maps = s.tide.maps ++ [(b.val, p, use, effect)] ∧ t.tiles = s.tiles ∧ t.stns = s.stns
    let announced := RegsBut [(HRN_SWITCH_EFFECT, 0), (HRN_STATUS_SWITCH_PEND, 0)]
    let missing := fun (t : State) (q : Fin 41) => (q.val, b.val) ∈ t.light.missed ∧
      t.rd STN_HRN_MAP_MISS q.val = min (s.rd STN_HRN_MAP_MISS q.val + 1) 255 ∧ t.raised = s.raised ++ [⟨0x11, stnId q.val, b.val, none, 0, 0⟩]
    (∀ p, p < 15 → s.light.quar = [(b.val, p)] → Yields (.bundleMapWrite b effect []) s fun t => told t p 2 ∧ t.light.quar = [] ∧ t.raised = s.raised ∧ announced s t) ∧
    (∀ p, s.tide.maps = [] → s.light.quar = [] → s.light.careens = [] → s.light.todo = [(b.val, p)] → s.rd HRN_CTRL_CAREEN_EN = 1 →
      s.rd HRN_BMAP_SPARE_USE b.val < 2 → (s.rd HRN_BMAP_FAILED b.val).testBit 15 = false →
      let out := fun t : State => told t p 1 ∧ t.light.todo = [] ∧ t.light.careens = [⟨b.val, p, effect, false, false, false⟩]
      Yields (.bundleMapWrite b effect []) s (fun t => out t ∧ t.raised = s.raised ∧ announced s t) ∧
      ∀ q, Yields (.bundleMapWrite b effect [q]) s fun t => out t ∧ missing t q) ∧
    (∀ c, s.light.careens = [c] → c.bundle = b.val → c.applied = true → c.back = false → c.effect + 16384 ≤ s.ticks ∨ c.cut = true →
      let home := fun t : State => told t 15 0 ∧ t.light.careens = [{ c with back := true }]
      (∀ lock, lock = false ∨ c.cut = true → Yields (.careenReturn b effect ⟨lock, []⟩) s (fun t => home t ∧ t.raised = s.raised ∧ announced s t) ∧
        ∀ q, Yields (.careenReturn b effect ⟨lock, [q]⟩) s fun t => home t ∧ missing t q) ∧
      (c.cut = false → ∀ qs, Yields (.careenReturn b effect ⟨true, qs⟩) s fun t =>
        t.light.careens = [{ c with effect := s.ticks / 1024 * 1024 }] ∧ { t with light := s.light } = s)) ∧
    (∀ c how, s.light.careens = [c] → c.cut = false → s.ticks < c.effect + 16384 → Yields (.careenReturn b effect how) s (· = s))) ∧
  (∀ (b : Fin 131) (p use : Nat) (s : State), s.tide.started = true → s.wk = 1023 → s.plans = [] → s.sec.handover = false → s.tide.swapLatched = none →
    s.tide.mroleLatched = none → s.rd TID_STATUS_IDLE_NEXT = 0 → s.tide.maps = [(b.val, p, use, s.ticks + 1)] → p < 16 → use < 4 →
    Yields .quietTick s fun t => t.rd HRN_BMAP_SPARE_FOR b.val = p ∧ t.rd HRN_BMAP_SPARE_USE b.val = use ∧ t.tide.maps = [] ∧
      t.rd HRN_STATUS_SWITCH_PEND = 0 ∧ (∀ q, t.mapAt q b.val = if (q, b.val) ∈ s.light.missed then s.mapAt q b.val else (p, use)) ∧
      (use = 1 → s.light.careens = [⟨b.val, p, s.ticks + 1, false, false, false⟩] →
        t.light.careens = [⟨b.val, p, s.ticks + 1, true, false, false⟩] ∧ t.rd HRN_STATUS_CAREENING = 1 ∧
        (p < 15 → t.physWg b.val p = 15 ∧ ∀ o, o < 15 → o ≠ p → t.physWg b.val o = o)) ∧
      (use = 0 → ∀ c, s.light.careens = [c] → c.bundle = b.val → t.light.careens = [] ∧ t.rd HRN_STATUS_CAREENING = 0)) ∧
  (∀ (b : Fin 131) (corrected received : Nat) (s : State), Yields (.decoderTotals b corrected received) s fun t =>
    t.rd HRN_BERR_CORR b.val = min (s.rd HRN_BERR_CORR b.val + corrected) (2 ^ 24 - 1) ∧
    RegsBut [(HRN_BERR_CORR, b.val), (HRN_OPTSEL_BRISK_OK, 0), (HRN_OPTSEL_CALM_WHY, 0)] s t ∧ { t with regs := s.regs, light := s.light, raised := s.raised } = s ∧
    (s.calm = true → t.light.sym = s.light.sym) ∧
    (s.calm = false → smGet (fun _ => []) t.light.sym b.val = ((corrected, received) :: smGet (fun _ => []) s.light.sym b.val).take 10000)) ∧
  (∀ (q src : Fin 41) (w : Fin 60) (s : State),
    Yields (.ringLockLost q src w) s (fun t => t.light = { s.light with lost := s.light.lost ++ [(q.val, src.val, w.val)] } ∧
      t.rd HRN_RINGCAL_LOCK_LOST = min (s.rd HRN_RINGCAL_LOCK_LOST + 1) 65535 ∧ RegsBut [(HRN_RINGCAL_LOCK_LOST, 0)] s t ∧
      t.raised = s.raised ++ [⟨0x15, stnId q.val, w.val, none, 0, 0⟩]) ∧
    Yields (.ringLockReacquired q src w) s (fun t => { t with light := s.light } = s ∧
      ∀ x, x ∈ t.light.lost ↔ x ∈ s.light.lost ∧ x ≠ (q.val, src.val, w.val)) ∧
    Yields (.rateDetectorTrip q) s fun t => t.rd HRN_RINGCAL_RATE_TRIP = 1 ∧ t.rd THM_STN_FAST q.val = 1 ∧ t.light = { s.light with tripped := true } ∧
      smGet (fun _ => 0) t.pwr.fastTo q.val = s.wall + 10000000 ∧
      RegsBut [(HRN_RINGCAL_RATE_TRIP, 0), (THM_STN_FAST, q.val)] s t ∧ t.raised = s.raised ++ [⟨0x16, stnId q.val, 0, none, 0, 0⟩] ∧
      (q.val < 24 → (t.coupler q.val).calReq = true)) ∧
  (∀ s : State, s.rd HRN_RINGCAL_CAL_BUSY = 1 → s.light.todo = [] → s.light.careens = [] → Yields .hareneRecalDone s fun t =>
    t.rd HRN_RINGCAL_CAL_BUSY = 0 ∧ t.rd HRN_RINGCAL_RECALS = min (s.rd HRN_RINGCAL_RECALS + 1) 65535 ∧
    RegsBut [(HRN_RINGCAL_CAL_BUSY, 0), (HRN_RINGCAL_RECALS, 0)] s t ∧ { t with regs := s.regs, light := s.light } = s ∧
    (t.light.request = true ↔ ∃ q, q < 41 ∧ 40 < absDiff (s.ringT q) (smGet (fun _ => 0) s.light.ref q))) ∧
  (∀ (p : Fin 10) (s : State),
    let isOpen := fun (t : State) (v : Bool) => ∀ i, i < 10 → (t.rd HRN_PORTLIGHT_OPEN).testBit i = if i = p.val then v else (s.rd HRN_PORTLIGHT_OPEN).testBit i
    let opens := (⟨0x23, 0x30, p.val, none, 0, 0⟩ : FaultEvt)
    (8 ≤ p.val ∨ s.rd FAB_PLANE_STATE p.val = 3 → Yields (.fibrePortOpen p) s fun t => isOpen t true ∧ t.raised = s.raised ++ [opens] ∧
      RegsBut [(HRN_PORTLIGHT_OPEN, 0)] s t) ∧
    (p.val < 8 → s.rd FAB_PLANE_STATE p.val < 3 → Yields (.fibrePortOpen p) s fun t => isOpen t true ∧ t.rd FAB_PLANE_STATE p.val = 0 ∧
      t.rd FAB_PLANE_DOWN_CAUSE p.val = 2 ∧ p.val ∉ t.fab.link ∧
      ∃ more, t.raised = s.raised ++ [opens] ++ more ∧ (s.rd FAB_PLANE_STATE p.val ≠ 0 → ⟨0x51, 0x30, p.val, none, 0, 0⟩ ∈ more)) ∧
    ((s.rd HRN_PORTLIGHT_OPEN).testBit p.val = true → s.portLit p.val = true →
      (8 ≤ p.val ∨ s.rd FAB_PLANE_STATE p.val ≠ 0 → Yields (.fibrePortRestored p) s fun t => isOpen t false ∧
        RegsBut [(HRN_PORTLIGHT_OPEN, 0)] s t ∧ { t with regs := s.regs } = s) ∧
      (p.val < 8 → s.rd FAB_PLANE_STATE p.val = 0 → Yields (.fibrePortRestored p) s fun t => isOpen t false ∧
        t.rd FAB_PLANE_STATE p.val = (if s.rd FAB_PLANE_DISABLE p.val = 1 then 3 else 1) ∧
        RegsBut [(HRN_PORTLIGHT_OPEN, 0), (FAB_PLANE_STATE, p.val)] s t ∧ { t with regs := s.regs } = s)) ∧
    Yields (.probeBurst p) s fun t => { t with out := s.out } = s ∧
      t.out = s.out ++ (if (s.rd HRN_PORTLIGHT_OPEN).testBit p.val = true ∧ (s.rd HRN_PORTLIGHT_OFF).testBit p.val = false then [.probe p.val] else []))

/-- R457 to R464: an event is counted at its instance, raises its class past N and is recorded at its collector; a SEVERE fault aborts the jobs it
serves, a kind with a quarantine takes its unit out of use; windows close one class at a time; records move up to the record queue.
The model's choices it rests on: log 69, 89. -/
def Obligations.FaultCollection : Prop :=
  (∀ (k : BitVec 8) (st : Fin 41) (u : BitVec 16) (s : State), kindOk k.toNat = true → (k.toNat = 9 → st.val < 24 → (s.die st.val).running = false) →
    let q := if k.toNat = 0x0C ∨ k.toNat = 0x45 then 40 else st.val
    let mine := fun i : FltInst => i.kind = k.toNat ∧ i.station = stnId st.val ∧ i.unit = u.toNat
    let ends := s.wall + 100000 * min 600000 (max 1 (s.rd FLT_KIND_W_MS k.toNat))
    (s.rd FLT_KIND_BASE k.toNat = 0 → (∀ i ∈ s.flt.insts, ¬mine i) → s.flt.recs = [] → Yields (.faultEvent (.event k st u)) s fun t =>
      t.flt.insts = ⟨k.toNat, stnId st.val, u.toNat, 0, 0, 1, true, ends, false⟩ :: s.flt.insts ∧
      t.rd FLT_KIND_EVENTS k.toNat = min (s.rd FLT_KIND_EVENTS k.toNat + 1) 65535 ∧
      t.rd STN_FLT_NOTES q = min (s.rd STN_FLT_NOTES q + 1) 65535 ∧
      RegsBut [(FLT_KIND_TOP, k.toNat), (FLT_KIND_EVENTS, k.toNat), (STN_FLT_NOTES, q)] s t ∧ { t with regs := s.regs, flt := s.flt } = s ∧
      ∃ r, t.flt.recs = [r] ∧ r.station = stnId q ∧ r.level = kindLevel k.toNat (stnId st.val) ∧ r.data.length = 32 ∧
        r.data.take 12 = leBytes 8 s.wall ++ leBytes 1 k.toNat ++ leBytes 1 0 ++ leBytes 1 (stnId st.val) ++ leBytes 1 r.level) ∧
    (∀ i, s.rd FLT_KIND_BASE k.toNat = 0 → s.rd BWT_STATUS_SAFE = 0 → s.flt.insts = [i] → mine i → i.cls = 0 → i.quar = false → i.count = max 1 (s.rd FLT_KIND_N k.toNat) →
      Yields (.faultEvent (.event k st u)) s fun t => t.flt.insts = [⟨k.toNat, stnId st.val, u.toNat, 0, 1, 0, true, ends, false⟩] ∧
        t.rd FLT_KIND_TOP k.toNat = 1 ∧ t.rd STN_FLT_DEGRADED q = min (s.rd STN_FLT_DEGRADED q + 1) 65535 ∧
        t.twn.healthyFrom = s.wall ∧ t.tiles = s.tiles ∧ t.plans = s.plans) ∧
    (∀ es, s.raised = ⟨k.toNat, stnId st.val, u.toNat, none, 0, 0⟩ :: es →
      exec (.faultEvent .raised) s = exec (.faultEvent (.event k st u)) { s with raised := es })) ∧
  (∀ (k : BitVec 8) (st : Fin 41) (u : BitVec 16) (s : State) (j : Job), st.val < 24 →
    (k.toNat = 3 ∧ s.rd FLT_KIND_BASE 3 = 2) ∨ (k.toNat = 9 ∧ (s.die st.val).running = true) → s.rd BWT_STATUS_SAFE = 0 →
    (∀ i ∈ s.flt.insts, ¬(i.kind = k.toNat ∧ i.station = st.val ∧ i.unit = u.toNat)) → s.plans = [j] → j.phase = .running → st.val ∈ j.dies →
    Yields (.faultEvent (.event k st u)) s fun t => t.plans = [{ j with phase := .aborting (s.swapCovers j), since := s.wall }] ∧
      t.rd FLT_STATUS_ABORTING = 1 ∧ t.rd FLT_STATUS_ABORT_KIND = k.toNat ∧ t.rd STN_FLT_SEVERE st.val = min (s.rd STN_FLT_SEVERE st.val + 1) 65535 ∧
      ∀ d n, d ∈ j.dies → d < 24 → n < 256 → (t.tile (d * 256 + n)).queue = [] ∧ (t.tile (d * 256 + n)).issue ≠ .issuing) ∧
  (∀ (st : Fin 41) (u : BitVec 16) (s : State) (i : FltInst), st.val < 24 → s.rd FLT_KIND_BASE 0x31 ≤ 1 → s.rd BWT_STATUS_SAFE = 0 → s.flt.insts = [i] →
    i.kind = 0x31 → i.station = st.val → i.unit = u.toNat → i.cls = 1 → i.quar = false → i.count = max 1 (s.rd FLT_KIND_N 0x31) → u.toNat < 544 →
    u.toNat ∉ (s.coupler st.val).failUp → Yields (.faultEvent (.event 0x31 st u)) s fun t =>
      (t.coupler st.val).failUp = (s.coupler st.val).failUp ++ [u.toNat] ∧ (t.coupler st.val).rebuild = true ∧
      t.rd FLT_STATUS_QUARANTINES = min (s.rd FLT_STATUS_QUARANTINES + 1) 65535 ∧ t.flt.quarList = s.flt.quarList ++ [(0x31, st.val, u.toNat)] ∧
      t.tiles = s.tiles ∧ t.plans = s.plans) ∧
  (∀ (d : Fin 24) (n : Fin 256) (w : Fin 131072) (dbl : Bool) (s : State), Yields (.faultEvent (.tileUpset d n w dbl)) s fun t =>
    { t with tiles := s.tiles } = s ∧ (∀ k, k ≠ tileKey d n → t.tile k = s.tile k) ∧
    (∀ x, smGet (fun _ => 0) (t.tile (tileKey d n)).ecc x = if x = w.val then (if dbl then 2 else 1) else smGet (fun _ => 0) (s.tile (tileKey d n)).ecc x) ∧
    { t.tile (tileKey d n) with ecc := (s.tile (tileKey d n)).ecc } = s.tile (tileKey d n)) ∧
  (∀ (d : Fin 24) (n : Fin 256) (w : Fin 16384) (dbl : Bool) (s : State), Yields (.faultEvent (.ibufUpset d n w dbl)) s fun t =>
    { t with tiles := s.tiles } = s ∧ (∀ k, k ≠ tileKey d n → t.tile k = s.tile k) ∧
    (∀ x, smGet (fun _ => 0) (t.tile (tileKey d n)).ieccs x = if x = w.val then (if dbl then 2 else 1) else smGet (fun _ => 0) (s.tile (tileKey d n)).ieccs x) ∧
    { t.tile (tileKey d n) with ieccs := (s.tile (tileKey d n)).ieccs } = s.tile (tileKey d n)) ∧
  (∀ (b : Nat) (onDie : Bool) (syms : List (Fin 72 × BitVec 8)) (s : State), Yields (.faultEvent (.hbmUpset b onDie syms)) s fun t =>
    { t with undec := s.undec } = s ∧ (∀ x, x ≠ b → t.blkErr x = s.blkErr x) ∧ (t.blkErr b).onDie = ((s.blkErr b).onDie || onDie) ∧
    (∀ i v, s.blkErr b = BlkErr.none → v ≠ 0 → syms = [(i, v)] → (t.blkErr b).syms = [(i.val, v.toNat)])) ∧
  (∀ (d : Fin 24) (l : BitVec 32) (e : BitVec 2) (g : Fin 2048) (tries : Nat) (s : State),
    ((s.line d.val l.toNat).valid ≠ 0 → Yields (.faultEvent (.poolUpset d l e)) s fun t => { t with pool := s.pool } = s ∧
      t.line d.val l.toNat = { s.line d.val l.toNat with err := e.toNat }) ∧
    Yields (.faultEvent (.laneUpset d g tries)) s fun t => { t with couplers := s.couplers } = s ∧
      t.coupler d.val = { s.coupler d.val with upsets := (s.coupler d.val).upsets ++ [(g.val, tries)] }) ∧
  (∀ (k : BitVec 8) (st : Fin 41) (u : BitVec 16) (s : State) (i : FltInst), s.flt.insts = [i] → i.kind = k.toNat → i.station = stnId st.val → i.unit = u.toNat →
    i.window = true → i.close ≤ s.wall → (i.cls = i.base + 1 → i.quar = false → Yields (.faultWindowClose k st u) s fun t => t.flt.insts = [] ∧
      RegsBut [(FLT_KIND_TOP, k.toNat)] s t ∧ { t with regs := s.regs, flt := s.flt } = s) ∧
    (i.cls = i.base + 2 → i.cls ≤ 3 → Yields (.faultWindowClose k st u) s fun t => (∃ x, t.flt.insts = [x] ∧ x.cls = i.base + 1 ∧ x.count = 0 ∧
      x.window = true ∧ x.quar = i.quar) ∧ RegsBut [(FLT_KIND_TOP, k.toNat)] s t ∧ { t with regs := s.regs, flt := s.flt } = s)) ∧
  (∀ (level : Fin 5) (st : Fin 41) (child : Fin 256) (s : State) (r : FltRec), s.flt.recs = [r] → r.place = collector level.val (stnId st.val) child.val →
    r.level = level.val → (level.val < 4 → Yields (.recordForward level st child) s fun t => { t with flt := s.flt } = s ∧
      t.flt.recs = [{ r with level := level.val + 1 }]) ∧
    (level.val = 4 → s.rd FLT_QUEUE_FULL = 0 → Yields (.recordForward level st child) s fun t => t.flt.recs = [] ∧
      smGet (fun _ => []) t.flt.queue (s.rd FLT_QUEUE_TAIL) = r.data ∧ t.rd FLT_QUEUE_TAIL = (s.rd FLT_QUEUE_TAIL + 1) % 512 ∧
      t.rd FLT_QUEUE_FULL = (if (s.rd FLT_QUEUE_TAIL + 1) % 512 = s.rd FLT_QUEUE_HEAD then 1 else 0) ∧ t.out = s.out ++ [.alert] ∧
      RegsBut [(FLT_QUEUE_TAIL, 0), (FLT_QUEUE_FULL, 0)] s t) ∧
    (level.val = 4 → s.rd FLT_QUEUE_FULL = 1 → Yields (.recordForward level st child) s fun t => t.flt.recs = [] ∧ t.flt.queue = s.flt.queue ∧
      t.rd FLT_QUEUE_LOST = min (s.rd FLT_QUEUE_LOST + 1) 65535 ∧ RegsBut [(FLT_QUEUE_LOST, 0)] s t))

/-- R15, R253, R467 to R472: two votes on a value past its limit trip Breakwater into safe state, which records the trip, squelches every
transmitter and brings the lasers to STANDBY; a channel that disagrees twice in a second votes trip; limits only tighten, once; the owner acknowledges;
injection needs factory mode. Without power nothing trips.
The model's choices it rests on: log 68, 98, 100, 114, 115. -/
def Obligations.Breakwater : Prop :=
  let tripped := fun (s t : State) (cause votes station value : Nat) => t.rd BWT_TRIP_CAUSE = cause ∧ t.rd BWT_TRIP_VOTES = votes ∧
    t.rd BWT_TRIP_STATION = station ∧ t.rd BWT_TRIP_VALUE = value ∧ t.rd BWT_TRIP_HOURS = s.powerS / 3600 % 2 ^ 32 ∧ t.rd BWT_TRIP_PENDING = 1 ∧
    t.rd BWT_STATUS_SAFE = 1 ∧ t.rd HRN_PORTLIGHT_OFF = 1023 ∧ t.air = [] ∧ t.tiles = s.tiles ∧ t.hbm = s.hbm ∧ .alert ∈ t.out ∧ .aer 0 0 ∈ t.out ∧
    .aer 1 0 ∈ t.out ∧ (∀ q, q < 41 → (t.stn q).up = false) ∧ (∀ d, d < 24 → t.rd TPL_STATUS_STATE d = 4)
  let limits := fun (s : State) (cause v us : Nat) => (cause = 1 ∧ 6500 < v ∧ 10 ≤ us) ∨ (cause = 2 ∧ v < 4800 ∧ 100 ≤ us) ∨ (cause = 3 ∧ 100 * s.rd BWT_TIGHTEN_CUR_TRIP < v) ∨
    (cause = 4 ∧ 8000 < v ∧ 10 ≤ us) ∨ (cause = 5 ∧ s.rd BWT_TIGHTEN_HDL_TRIP < v) ∨ (cause = 6 ∧ s.rd BWT_TIGHTEN_HBM_TRIP < v) ∨
    (cause = 7 ∧ s.rd BWT_TIGHTEN_HRB_TRIP < v) ∨ (cause = 8 ∧ 80 < v) ∨ (cause = 9 ∧ 10 ≤ us) ∨ (cause = 10 ∧ s.rd HRN_CART_INTERLOCK = 0) ∨ cause = 11 ∨
    cause = 12 ∨ (cause = 13 ∧ 2 ≤ popN 3 (s.rd BWT_STATUS_CH_FAILED))
  (∀ (cause : BitVec 4) (votes : BitVec 3) (station : BitVec 8) (value : BitVec 16) (us : Nat) (s : State),
    let v := votes.toNat ||| s.rd BWT_STATUS_CH_FAILED
    (popN 3 v < 2 ∨ ¬limits s cause.toNat value.toNat us → Yields (.breakwaterTrip cause votes station value us) s (· = s)) ∧
    (2 ≤ popN 3 v → limits s cause.toNat value.toNat us → s.rst.powered = true → s.rd BWT_STATUS_SAFE = 0 →
      Yields (.breakwaterTrip cause votes station value us) s fun t =>
        tripped s t cause.toNat v station.toNat value.toNat ∧ ∀ n, n < 26 → t.srcSt n = if s.srcSt n = 5 then 6 else s.srcSt n)) ∧
  (∀ (value : BitVec 16) (s : State),
    (s.rst.powered = true → s.rd BWT_STATUS_SAFE = 0 → Yields (.cartridgeInterlockOpen value) s fun t =>
      tripped s t 10 7 0xFF value.toNat ∧ t.rd HRN_CART_INTERLOCK = 0 ∧ t.light.raising = [] ∧ ∀ n, n < 26 → t.srcSt n ∉ [3, 4, 5, 6]) ∧
    (s.rst.powered = false → Yields (.cartridgeInterlockOpen value) s fun t => t.rd HRN_CART_INTERLOCK = 0 ∧ t.out = s.out ∧
      t.rd BWT_STATUS_SAFE = s.rd BWT_STATUS_SAFE)) ∧
  (∀ (ch : Fin 3) (value : BitVec 16) (s : State),
    let failed := s.rd BWT_STATUS_CH_FAILED
    let log := smGet (fun _ => []) s.flt.disagree ch.val
    ((∀ w ∈ log, w + 100000000 ≤ s.wall) → Yields (.breakwaterDisagreement ch value) s fun t =>
      t.rd BWT_STATUS_DISAGREE = min (s.rd BWT_STATUS_DISAGREE + 1) 65535 ∧ RegsBut [(BWT_STATUS_DISAGREE, 0)] s t ∧
      smGet (fun _ => []) t.flt.disagree ch.val = [s.wall] ∧ { t with regs := s.regs, flt := s.flt } = s) ∧
    ((∃ w ∈ log, s.wall < w + 100000000) → failed = 0 → Yields (.breakwaterDisagreement ch value) s fun t =>
      t.rd BWT_STATUS_CH_FAILED = 2 ^ ch.val ∧ t.rd BWT_STATUS_SAFE = s.rd BWT_STATUS_SAFE ∧ t.raised = s.raised ++ [⟨0x78, 0x30, ch.val, none, 0, 0⟩]) ∧
    ((∃ w ∈ log, s.wall < w + 100000000) → failed ≠ 0 → failed.testBit ch.val = false → s.rst.powered = true → s.rd BWT_STATUS_SAFE = 0 →
      Yields (.breakwaterDisagreement ch value) s fun t => t.rd BWT_STATUS_CH_FAILED = failed + 2 ^ ch.val ∧
        tripped s t 13 (failed + 2 ^ ch.val) 0xFF value.toNat)) ∧
  (∀ (master : Master) (hdl hbm hrb cur : BitVec 8) (s : State),
    (s.mayConfigure master.val = true → s.rd BWT_TIGHTEN_LOCK = 1 → Yields (.bwtTighten master hdl hbm hrb cur) s (· = s)) ∧
    (s.mayConfigure master.val = true → s.rd BWT_TIGHTEN_LOCK = 0 → Yields (.bwtTighten master hdl hbm hrb cur) s fun t => t.rd BWT_TIGHTEN_LOCK = 1 ∧
      t.rd BWT_TIGHTEN_HDL_TRIP = min hdl.toNat (s.rd BWT_TIGHTEN_HDL_TRIP) ∧ t.rd BWT_TIGHTEN_HBM_TRIP = min hbm.toNat (s.rd BWT_TIGHTEN_HBM_TRIP) ∧
      t.rd BWT_TIGHTEN_HRB_TRIP = min hrb.toNat (s.rd BWT_TIGHTEN_HRB_TRIP) ∧ t.rd BWT_TIGHTEN_CUR_TRIP = min cur.toNat (s.rd BWT_TIGHTEN_CUR_TRIP) ∧
      RegsBut [(BWT_TIGHTEN_LOCK, 0), (BWT_TIGHTEN_HDL_TRIP, 0), (BWT_TIGHTEN_HBM_TRIP, 0), (BWT_TIGHTEN_HRB_TRIP, 0), (BWT_TIGHTEN_CUR_TRIP, 0)] s t ∧
      { t with regs := s.regs } = s) ∧
    (s.mayConfigure master.val = false → 2 < master.val → Yields (.bwtTighten master hdl hbm hrb cur) s (· = s))) ∧
  (∀ (master : Master) (s : State), master.val < 2 →
    (s.owns master.val = true → Yields (.tripAcknowledge master) s fun t => t.rd BWT_TRIP_PENDING = 0 ∧
      t.rd GLB_POST_HOLD = (if s.rd GLB_POST_HOLD = 1 then 0 else s.rd GLB_POST_HOLD) ∧ RegsBut [(BWT_TRIP_PENDING, 0), (GLB_POST_HOLD, 0)] s t ∧
      { t with regs := s.regs } = s) ∧
    (s.owns master.val = false → Yields (.tripAcknowledge master) s fun t => t.rd BWT_TRIP_PENDING = s.rd BWT_TRIP_PENDING ∧
      t.out = s.out ++ [.aer master.val 1])) ∧
  (∀ (master : Master) (k station : BitVec 8) (u : BitVec 16) (cls : BitVec 2) (ch : BitVec 3) (s : State),
    (∀ go, s.rd FLT_STATUS_FACTORY = 0 ∨ s.mayConfigure master.val = false → Yields (.faultInject master k station u cls ch go) s fun t => t.flt = s.flt ∧
      t.raised = s.raised ∧ t.rd BWT_STATUS_SAFE = s.rd BWT_STATUS_SAFE ∧ t.rd GLB_HOSTLOG_VALID = 1 ∧
      (s.rd GLB_HOSTLOG_VALID = 0 → t.rd GLB_HOSTLOG_CODE = 0x05)) ∧
    (s.rd FLT_STATUS_FACTORY = 1 → s.mayConfigure master.val = true → Yields (.faultInject master k station u cls ch false) s fun t =>
      t.rd FLT_INJ_KIND = k.toNat ∧ t.rd FLT_INJ_STATION = station.toNat ∧ t.rd FLT_INJ_UNIT = u.toNat ∧ t.rd FLT_INJ_CLASS = cls.toNat ∧
      t.rd FLT_INJ_BWT_CH = ch.toNat ∧ RegsBut [(FLT_INJ_KIND, 0), (FLT_INJ_STATION, 0), (FLT_INJ_UNIT, 0), (FLT_INJ_CLASS, 0), (FLT_INJ_BWT_CH, 0)] s t ∧
      { t with regs := s.regs } = s) ∧
    (s.rd FLT_STATUS_FACTORY = 1 → s.mayConfigure master.val = true → s.flt.insts = [] → s.plans = [] → cls.toNat ≤ 1 →
      (kindOk k.toNat = true → ch = 0 → Yields (.faultInject master k station u cls ch true) s fun t => ∃ i, t.flt.insts = [i] ∧ i.kind = k.toNat ∧
        i.station = station.toNat ∧ i.unit = u.toNat ∧ i.cls = cls.toNat ∧ i.count = 1) ∧
      (ch ≠ 0 → 2 ≤ popN 3 (ch.toNat ||| s.rd BWT_STATUS_CH_FAILED) → s.rst.powered = true → s.rd BWT_STATUS_SAFE = 0 →
        Yields (.faultInject master k station u cls ch true) s fun t => t.rd BWT_STATUS_SAFE = 1 ∧
          t.rd BWT_TRIP_VOTES = ch.toNat ||| s.rd BWT_STATUS_CH_FAILED)))

/-- R297, R307 to R318: the sampler. A slice record merges its candidates into its node's context; a tree record opens the step; a complete step
closes with the highest logit of each accepted node (TEMP 0), a stop token ending the stream; a step that misses its time closes with TIMEOUT. -/
def Says.SamplerSteps : Prop :=
  (∀ (s : State) (r : SRec) (rest : List SRec), s.intake = r :: rest → r.stream < 64 →
    let n := r.stream
    let fits := s.rd SMP_STATE_STATE n = 1 ∧ s.rd SMP_STATE_STEP n % 65536 = r.step ∧ r.sstn < 24
    let only := fun (f : Fld) (t : State) => t.rd f 0 = min (s.rd f 0 + 1) 65535 ∧ RegsBut [(f, 0)] s t ∧
      { t with regs := s.regs } = { s with intake := rest }
    (r.kind = 1 → (r.sstn < 24 → s.rd TID_ROLE_ROLE r.sstn ≠ 2) → Yields .slice s (only SMP_STAT_BADSRC)) ∧
    (r.kind = 1 → r.sstn < 24 → s.rd TID_ROLE_ROLE r.sstn = 2 → ¬(s.rd SMP_STATE_STATE n = 1 ∧ s.rd SMP_STATE_STEP n % 65536 = r.step) →
      Yields .slice s (only SMP_STAT_STALE)) ∧
    (r.kind = 2 → (r.sstn < 24 → s.rd TID_ROLE_ROLE r.sstn ≠ 2 ∧ s.rd TID_ROLE_ROLE r.sstn ≠ 3) → Yields .tree s (only SMP_STAT_BADSRC)) ∧
    (r.kind = 2 → r.sstn < 24 → s.rd TID_ROLE_ROLE r.sstn = 2 ∨ s.rd TID_ROLE_ROLE r.sstn = 3 →
      ¬(s.rd SMP_STATE_STATE n = 1 ∧ s.rd SMP_STATE_STEP n % 65536 = r.step ∧ s.rd SMP_STATE_OPEN n = 0) → Yields .tree s (only SMP_STAT_STALE)) ∧
    (∀ tok x, r.kind = 1 → fits → s.rd TID_ROLE_ROLE r.sstn = 2 → r.node < 64 → r.slice < r.nslice → r.nslice ≤ 24 → r.part < 16 → tok < 2 ^ 32 → x < 2 ^ 32 →
      r.body = leBytes 4 tok ++ leBytes 4 x → 1 ≤ s.rd SMP_CFG_TOPK n →
      ((∀ c ∈ (s.smp n).ctxs, c.node ≠ r.node) → s.rd SMP_CTX_USED 0 < 1024 → Yields .slice s fun t =>
        t.smp n = { s.smp n with ctxs := (s.smp n).ctxs ++ [⟨r.node, r.nslice, [(r.slice, r.part, r.last)], [(tok, x)], [tok], r.poison⟩] } ∧
        (∀ m, m ≠ n → t.smp m = s.smp m) ∧ RegsBut [(SMP_CTX_USED, 0), (SMP_STAT_DUP, 0)] s t ∧
        { t with regs := s.regs, smps := s.smps } = { s with intake := rest }) ∧
      ((∀ c ∈ (s.smp n).ctxs, c.node ≠ r.node) → 1024 ≤ s.rd SMP_CTX_USED 0 → Yields .slice s fun t =>
        t.smp n = { s.smp n with short := true } ∧ t.rd SMP_CTX_FULL 0 = min (s.rd SMP_CTX_FULL 0 + 1) 65535 ∧ RegsBut [(SMP_CTX_FULL, 0)] s t) ∧
      (∀ c, (s.smp n).ctxs = [c] → c.node = r.node → c.nslice = r.nslice → (r.slice, r.part) ∉ c.parts.map (fun p => (p.1, p.2.1)) → tok ∈ c.seen →
        Yields .slice s fun t => t.rd SMP_STAT_DUP 0 = min (s.rd SMP_STAT_DUP 0 + 1) 65535 ∧ RegsBut [(SMP_STAT_DUP, 0)] s t ∧
          ∀ y, c.cands = [(tok, y)] → (t.smp n).ctxs = [⟨c.node, c.nslice, c.parts ++ [(r.slice, r.part, r.last)],
            [(tok, if logitKey y < logitKey x then x else y)], c.seen, c.poison || r.poison⟩])) ∧
    (r.kind = 2 → fits → s.rd SMP_STATE_OPEN n = 0 → s.rd TID_ROLE_ROLE r.sstn = 2 ∨ s.rd TID_ROLE_ROLE r.sstn = 3 →
      ((treeNodes r.node r.body).2 = false → Yields .tree s (only SMP_STAT_BADREC)) ∧
      (∀ a b, r.node = 2 → a < 2 ^ 32 → b < 2 ^ 32 → r.body = leBytes 4 a ++ leBytes 4 255 ++ (leBytes 4 b ++ leBytes 4 0) → Yields .tree s fun t =>
        t.rd SMP_STATE_OPEN n = 1 ∧ t.smp n = { s.smp n with tree := [(a, 255), (b, 0)], treePoison := r.poison, cycles := 0 } ∧
        (∀ m, m ≠ n → t.smp m = s.smp m) ∧ RegsBut [(SMP_STATE_OPEN, n)] s t ∧
        { t with regs := s.regs, smps := s.smps } = { s with intake := rest }))) ∧
  (∀ (n : Fin 64) (s : State) (a b : Nat) (c0 c1 : NodeCtx) (v0 x0 v1 x1 : Nat) (r0 r1 : List (Nat × Nat)), (s.smp n.val).tree = [(a, 255), (b, 0)] →
    (s.smp n.val).ctxs = [c0, c1] → c0.node = 0 → c1.node = 1 → c0.complete = true → c1.complete = true → c0.cands = (v0, x0) :: r0 →
    c1.cands = (v1, x1) :: r1 → c0.poison = false → c1.poison = false → v0 < 2 ^ 32 → v1 < 2 ^ 32 →
    (s.smp n.val).short = false → s.rd SMP_STATE_OPEN n.val = 1 → s.rd SMP_STATE_RING_STALL n.val = 0 → s.rd SMP_TEMP_TEMP n.val = 0 →
    s.rd SMP_CFG_PEN_EN n.val = 0 → s.rd SMP_CFG_MAX_TOKENS n.val = 0 → s.rd BWT_STATUS_SAFE = 0 → s.rd TWN_STATUS_STATE = 0 → s.twn.stale = [] →
    let pos := s.rd SMP_POS_POS n.val
    let seq := s.rd SMP_SEQ_SEQ n.val
    let step := s.rd SMP_STATE_STEP n.val
    let stop := fun v => v = s.rd SMP_STOP_STOP0 n.val ∨ v = s.rd SMP_STOP_STOP1 n.val
    let closed := fun (path : List Nat) (toks : List Nat) (e flags : Nat) (t : State) => t.rd SMP_STATE_OPEN n.val = 0 ∧ t.rd SMP_STATE_CODE n.val = 0 ∧
      t.rd SMP_STATE_STEP n.val = (step + 1) % 2 ^ 32 ∧ t.rd SMP_POS_POS n.val = (pos + path.length) % 2 ^ 64 ∧
      t.rd SMP_SEQ_SEQ n.val = (seq + e) % 2 ^ 64 ∧ (∀ i, i < path.length → t.histTok n.val (pos + 1 + i) = toks.getD i 0) ∧
      (t.smp n.val).tree = [] ∧ (t.smp n.val).ctxs = [] ∧ (t.smp n.val).cycles = 0 ∧
      (t.smp n.val).waiting = (s.smp n.val).waiting ++ [leBytes 8 seq ++ leBytes 1 n.val ++ leBytes 1 e ++ leBytes 1 (4 + flags) ++ leBytes 1 0 ++
        leBytes 4 step ++ (toks.take e).flatMap (leBytes 4) ++ leBytes (48 - 4 * e) 0] ∧ (∀ m, m ≠ n.val → t.smp m = s.smp m) ∧
      { t with regs := s.regs, smps := s.smps } = s
    (∀ i : Instr, i = .samplerStepClose n ∨ i = .samplerStepTimeout n ∧ max 1 (s.rd SMP_CTRL_TIMEOUT_CYC 0) ≤ (s.smp n.val).cycles →
      ((s.smp n.val).treePoison = false → ¬stop v0 → ¬stop v1 → v0 = b → Yields i s fun t => closed [0, 1] [v0, v1] 2 0 t ∧ t.rd SMP_STATE_STATE n.val = s.rd SMP_STATE_STATE n.val) ∧
      ((s.smp n.val).treePoison = false → ¬stop v0 → v0 ≠ b → Yields i s fun t => closed [0] [v0] 1 0 t ∧ t.rd SMP_STATE_STATE n.val = s.rd SMP_STATE_STATE n.val) ∧
      ((s.smp n.val).treePoison = false → stop v0 → v0 ≠ b → Yields i s fun t => closed [0] [v0] 1 1 t ∧ t.rd SMP_STATE_STATE n.val = 2) ∧
      ((s.smp n.val).treePoison = true → Yields i s fun t => t.rd SMP_STATE_OPEN n.val = 0 ∧ t.rd SMP_STATE_CODE n.val = 1 ∧ t.rd SMP_POS_POS n.val = pos ∧
        t.rd SMP_SEQ_SEQ n.val = seq ∧ t.rd SMP_STATE_STEP n.val = (step + 1) % 2 ^ 32 ∧ (t.smp n.val).waiting = (s.smp n.val).waiting))) ∧
  (∀ (n : Fin 64) (s : State), max 1 (s.rd SMP_CTRL_TIMEOUT_CYC 0) ≤ (s.smp n.val).cycles → s.rd BWT_STATUS_SAFE = 0 → s.rd TWN_STATUS_STATE = 0 → s.twn.stale = [] →
    (s.rd SMP_STATE_OPEN n.val = 1 → (s.smp n.val).treePoison = false → (s.smp n.val).ctxs = [] → (s.smp n.val).tree ≠ [] → (s.smp n.val).short = false → s.rd SMP_STATE_RING_STALL n.val = 0 →
      Yields (.samplerStepTimeout n) s fun t => t.rd SMP_STATE_OPEN n.val = 0 ∧ t.rd SMP_STATE_CODE n.val = 8 ∧
        t.rd SMP_STATE_STEP n.val = (s.rd SMP_STATE_STEP n.val + 1) % 2 ^ 32 ∧ t.rd SMP_POS_POS n.val = s.rd SMP_POS_POS n.val ∧
        t.rd SMP_SEQ_SEQ n.val = s.rd SMP_SEQ_SEQ n.val ∧ (t.smp n.val).tree = [] ∧ (t.smp n.val).waiting = (s.smp n.val).waiting) ∧
    (s.rd SMP_STATE_OPEN n.val = 0 → Yields (.samplerStepTimeout n) s fun t =>
      t.smp n.val = { s.smp n.val with ctxs := [], short := false, cycles := 0 } ∧
      t.rd SMP_STAT_STALE 0 = min (s.rd SMP_STAT_STALE 0 + ((s.smp n.val).ctxs.map fun c => c.parts.length).sum) 65535 ∧
      RegsBut [(SMP_STAT_STALE, 0), (SMP_CTX_USED, 0)] s t))

/-- R316 to R318: ENABLE checks a stream's parameters and starts it; ENABLE = 0 discards its open step; its oldest token record is written at CQ_TAIL
of its token ring, unless the ring is full, which sets CQ_STALL. -/
def Says.SamplerStreams : Prop :=
  ∀ (n : Fin 64) (s : State),
    (∀ m : Master, m.val < 2 → s.owns m.val = false → ∀ i : Instr, i = .streamEnable m n ∨ i = .streamDisable m n → Yields i s fun t =>
      t.rd GLB_HOSTLOG_VALID = 1 ∧ (∀ k, t.smp k = s.smp k) ∧ (∀ k, t.rd SMP_CFG_ENABLE k = s.rd SMP_CFG_ENABLE k ∧ t.rd SMP_STATE_STATE k = s.rd SMP_STATE_STATE k) ∧
      t.out = s.out ++ [.aer m.val 1]) ∧
    (∀ m : Master, 2 ≤ m.val ∨ s.owns m.val = true → s.rd TWN_STATUS_STATE = 0 → s.twn.stale = [] →
      (s.rd SMP_CFG_ENABLE n.val = 0 → s.smpValid n.val = true → Yields (.streamEnable m n) s fun t => t.rd SMP_CFG_ENABLE n.val = 1 ∧
        t.rd SMP_STATE_STATE n.val = 1 ∧ RegsBut [(SMP_CFG_ENABLE, n.val), (SMP_STATE_STATE, n.val)] s t ∧ t.smp n.val = { s.smp n.val with result := [] } ∧
        { t with regs := s.regs, smps := s.smps } = s) ∧
      (s.rd SMP_CFG_ENABLE n.val = 0 → (s.rd SMP_CFG_TOPK n.val = 0 ∨ 256 < s.rd SMP_CFG_TOPK n.val ∨ 1024 < s.rd SMP_CFG_PEN_WIN n.val) →
        Yields (.streamEnable m n) s fun t => t.rd SMP_STATE_STATE n.val = 3 ∧ t.rd SMP_STATE_CODE n.val = 9 ∧
          RegsBut [(SMP_STATE_CODE, n.val), (SMP_STATE_STATE, n.val)] s t ∧ { t with regs := s.regs } = s) ∧
      Yields (.streamDisable m n) s fun t => t.rd SMP_CFG_ENABLE n.val = 0 ∧ t.rd SMP_STATE_STATE n.val = 0 ∧ t.rd SMP_STATE_OPEN n.val = 0 ∧
        RegsBut [(SMP_CFG_ENABLE, n.val), (SMP_STATE_STATE, n.val), (SMP_STATE_OPEN, n.val), (SMP_CTX_USED, 0)] s t ∧
        t.smp n.val = { s.smp n.val with tree := [], treePoison := false, ctxs := [], short := false, cycles := 0 } ∧
        (∀ k, k ≠ n.val → t.smp k = s.smp k) ∧ { t with regs := s.regs, smps := s.smps } = s) ∧
    (∀ r rs, (s.smp n.val).waiting = r :: rs → r.length = 64 → s.rd BWT_STATUS_SAFE = 0 → s.rd TWN_STATUS_STATE ≠ 6 →
      let i := s.tokenRing n.val
      let tail := s.rd RNG_IDX_CQ_TAIL i
      s.rd RNG_STAT_STATE i ≠ 0 → s.rd RNG_CFG_MODE i = 1 →
      (idxSub tail (s.rd RNG_IDX_CQ_HEAD i) = s.cqSize i → Yields (.tokenRecordWrite n) s fun t => t.rd RNG_STAT_CQ_STALL i = 1 ∧
        RegsBut [(RNG_STAT_CQ_STALL, i)] s t ∧ { t with regs := s.regs } = s) ∧
      (idxSub tail (s.rd RNG_IDX_CQ_HEAD i) ≠ s.cqSize i → s.hbmReady (s.cqAddr i tail) 64 → s.rd RNG_CFG_IRQ_EN i = 0 → Yields (.tokenRecordWrite n) s fun t =>
        HbmPut (s.cqAddr i tail) r s t ∧ t.rd RNG_IDX_CQ_TAIL i = (tail + 1) % 65536 ∧
        (t.rd RNG_STAT_CQ_STALL i = 1 ↔ idxSub (tail + 1) (s.rd RNG_IDX_CQ_HEAD i) = s.cqSize i) ∧
        (t.smp n.val).waiting = rs ∧ (t.rd SMP_STATE_RING_STALL n.val = 1 ↔ 64 ≤ rs.length) ∧
        RegsBut [(RNG_IDX_CQ_TAIL, i), (RNG_STAT_CQ_STALL, i), (SMP_STATE_RING_STALL, n.val)] s t))

/-- The parts above, together.
The model's choices it rests on: log 3, 13, 26, 113. -/
def Obligations.SamplerOperation : Prop := Says.SamplerSteps ∧ Says.SamplerStreams

/-- R393 to R398, R402, R403, R405 to R408: ring pairs. ENABLE checks the region and clears the indices; a doorbell moves SQ_TAIL and CQ_HEAD within bounds;
firmware takes entries at SQ_HEAD and posts completions at CQ_TAIL; a heartbeat that stops orphans the ring, which is reclaimed or discarded.
The model's choices it rests on: log 31, 71, 112. -/
def Obligations.RingPairs : Prop :=
  (∀ (h : Fin 2) (n : Fin 64) (s : State), s.rd PWR_STATE_STATE = 0 →
    let i := h.val * 64 + n.val
    let base := s.rd RNG_BASE_BASE i
    (s.rd RNG_CFG_ENABLE i = 0 → base % 4096 = 0 → s.rd RNG_CFG_SQ_LOG2N i ≤ 12 → s.rd RNG_CFG_CQ_LOG2N i ≤ 12 →
      (paOk base (0x1000 + 64 * s.sqSize i + 64 * s.cqSize i) = true → Yields (.ringEnable h n) s fun t => t.rd RNG_STAT_STATE i = 1 ∧ t.rd RNG_CFG_ENABLE i = 1 ∧
        t.rd RNG_IDX_SQ_TAIL i = 0 ∧ t.rd RNG_IDX_SQ_HEAD i = 0 ∧ t.rd RNG_IDX_CQ_TAIL i = 0 ∧ t.rd RNG_IDX_CQ_HEAD i = 0 ∧ t.rd RNG_STAT_HB_AGE i = 0 ∧ t.rd RNG_STAT_CQ_STALL i = 0 ∧
        (t.ring i).taken = [] ∧ (∀ k, k ≠ i → t.ring k = s.ring k) ∧ { t with regs := s.regs, rings := s.rings } = s ∧
        RegsBut [(RNG_IDX_SQ_TAIL, i), (RNG_IDX_SQ_HEAD, i), (RNG_IDX_CQ_TAIL, i), (RNG_IDX_CQ_HEAD, i), (RNG_STAT_HB_AGE, i), (RNG_STAT_STATE, i), (RNG_CFG_ENABLE, i), (RNG_STAT_CQ_STALL, i)] s t) ∧
      (paOk base (0x1000 + 64 * s.sqSize i + 64 * s.cqSize i) = false → Yields (.ringEnable h n) s fun t => t.rd RNG_STAT_CODE i = 4 ∧ t.rd RNG_CFG_ENABLE i = 0 ∧
        t.rd RNG_STAT_STATE i = s.rd RNG_STAT_STATE i ∧ t.rings = s.rings ∧ t.rd GLB_HOSTLOG_VALID = 1 ∧ t.out = s.out ++ [.aer h.val 1])) ∧
    (s.rd RNG_CFG_ENABLE i = 0 → base % 4096 = 0 → paOk base (0x1000 + 64 * s.sqSize i + 64 * s.cqSize i) = true →
      12 < s.rd RNG_CFG_SQ_LOG2N i ∨ 12 < s.rd RNG_CFG_CQ_LOG2N i → Yields (.ringEnable h n) s fun t => t.rd RNG_STAT_CODE i = 9 ∧
        RegsBut [(RNG_STAT_CODE, i)] s t ∧ { t with regs := s.regs } = s) ∧
    (s.rd RNG_STAT_STATE i = 1 → s.rd RNG_STAT_RUNNING i = 0 → Yields (.ringDisable h n) s fun t => t.rd RNG_STAT_STATE i = 0 ∧ t.rd RNG_CFG_ENABLE i = 0 ∧
      RegsBut [(RNG_STAT_STATE, i), (RNG_CFG_ENABLE, i)] s t ∧ { t with regs := s.regs, calmSince := s.calmSince } = s) ∧
    (¬(s.rd RNG_STAT_STATE i = 1 ∧ s.rd RNG_STAT_RUNNING i = 0) → Yields (.ringDisable h n) s (· = s)) ∧
    (∀ (d : W64), let tail := d.toNat % 65536
      let head := d.toNat / 65536 % 65536
      Yields (.ringDoorbell h n false d) s (fun t => (t.rd GLB_HOSTLOG_VALID = 1) ∧ t.out = s.out ++ [.aer h.val 1] ∧ ∀ k, t.rd RNG_IDX_SQ_TAIL k = s.rd RNG_IDX_SQ_TAIL k ∧ t.rd RNG_IDX_CQ_HEAD k = s.rd RNG_IDX_CQ_HEAD k) ∧
      (d.getLsbD 32 = true → d.getLsbD 33 = false → s.rd RNG_CFG_MODE i = 0 →
        (idxSub tail (s.rd RNG_IDX_SQ_HEAD i) ≤ s.sqSize i → Yields (.ringDoorbell h n true d) s fun t => t.rd RNG_IDX_SQ_TAIL i = tail ∧
          RegsBut [(RNG_IDX_SQ_TAIL, i)] s t ∧ { t with regs := s.regs } = s) ∧
        (s.sqSize i < idxSub tail (s.rd RNG_IDX_SQ_HEAD i) → Yields (.ringDoorbell h n true d) s fun t => t.rd RNG_IDX_SQ_TAIL i = s.rd RNG_IDX_SQ_TAIL i ∧
          t.rd RNG_STAT_ERR_IDX i = min (s.rd RNG_STAT_ERR_IDX i + 1) 65535 ∧ t.out = s.out ++ [.aer h.val 1])) ∧
      (d.getLsbD 32 = false → d.getLsbD 33 = true → idxSub (s.rd RNG_IDX_CQ_TAIL i) head ≤ s.cqSize i → Yields (.ringDoorbell h n true d) s fun t =>
        t.rd RNG_IDX_CQ_HEAD i = head ∧ (idxSub (s.rd RNG_IDX_CQ_TAIL i) head < s.cqSize i → t.rd RNG_STAT_CQ_STALL i = 0) ∧
        RegsBut [(RNG_IDX_CQ_HEAD, i), (RNG_STAT_CQ_STALL, i)] s t ∧ { t with regs := s.regs } = s))) ∧
  (∀ (r : Fin 128) (s : State),
    let i := r.val
    let head := s.rd RNG_IDX_SQ_HEAD i
    let tail := s.rd RNG_IDX_CQ_TAIL i
    let run := s.rd RNG_STAT_RUNNING i
    let others := fun t : State => ∀ k, k ≠ i → t.ring k = s.ring k
    (s.rd RNG_STAT_STATE i = 1 → s.rd RNG_CFG_MODE i = 0 → s.workerUp i = true → s.rd BWT_STATUS_SAFE = 0 → head ≠ s.rd RNG_IDX_SQ_TAIL i →
      s.hbmReady (s.sqAddr i head) 64 → Yields (.submissionTake r) s fun t =>
        let bs := memBytes s.hbm (s.sqAddr i head) 64
        let bad := badEntry bs
        let code := if bs.getD 0 0 = 2 ∧ s.owns (i / 64) = false then 5 else 9
        t.rd RNG_IDX_SQ_HEAD i = (head + 1) % 65536 ∧ t.rd RNG_STAT_RUNNING i = min (run + 1) 65535 ∧ others t ∧
        (t.ring i).taken = (s.ring i).taken ++ [⟨head, leNat (bs.take 1), leNat ((bs.drop 8).take 8), leNat ((bs.drop 16).take 8),
          leNat ((bs.drop 24).take 1), bad, if bad then some (code, 0) else none⟩] ∧
        RegsBut [(RNG_IDX_SQ_HEAD, i), (RNG_STAT_RUNNING, i)] s t ∧ { t with regs := s.regs, rings := s.rings } = s) ∧
    (∀ e, (s.ring i).taken = [e] → e.started = false → e.done = none →
      let ended := fun (code : Nat) (t : State) => (t.ring i).taken = [{ e with started := true, done := some (code, 0) }] ∧ others t
      (e.opcode = 1 → Yields (.ringNop r) s fun t => ended 0 t ∧ { t with rings := s.rings } = s) ∧
      (e.opcode = 3 → s.hbmReady e.param 56 → e.stream < 64 → s.rd SMP_CFG_ENABLE e.stream = 0 →
        let w := fun k => BitVec.ofNat 64 (memNat s.hbm (e.param + 8 * k) 8)
        ((w 0).toNat / 2 ^ 28 % 2 ≠ i / 64 → Yields (.streamStart r) s fun t => ended 5 t ∧ { t with rings := s.rings } = s) ∧
        ((w 0).toNat / 2 ^ 28 % 2 = i / 64 →
          (∀ u : State, rfWord u.regs SMP_CFG e.stream = ((w 0) &&& 0xFFFFFFFF1FFFFFFE) → rfWord u.regs SMP_TEMP e.stream = w 1 → rfWord u.regs SMP_TRUNC e.stream = w 2 →
            u.smpValid e.stream = true) → Yields (.streamStart r) s fun t =>
          (t.ring i).taken = [{ e with started := true, done := some (0, 0) }] ∧ (t.ring i).streams = (s.ring i).streams.filter (· != e.stream) ++ [e.stream] ∧
          (∀ k, k < 128 → k ≠ i → e.stream ∉ (t.ring k).streams) ∧
          rfWord t.regs SMP_CFG e.stream = ((w 0) &&& 0xFFFFFFFF1FFFFFFE ||| 1) ∧ rfWord t.regs SMP_TEMP e.stream = w 1 ∧
          rfWord t.regs SMP_TRUNC e.stream = w 2 ∧ rfWord t.regs SMP_SEED e.stream = w 3 ∧ rfWord t.regs SMP_STOP e.stream = w 4 ∧
          rfWord t.regs SMP_POS e.stream = w 5 ∧ rfWord t.regs SMP_SEQ e.stream = w 6 ∧ t.rd SMP_STATE_STATE e.stream = 1)) ∧
      (e.opcode = 3 → s.hbmReady e.param 56 → e.stream < 64 → s.rd SMP_CFG_ENABLE e.stream = 1 → memNat s.hbm e.param 8 / 2 ^ 28 % 2 = i / 64 →
        Yields (.streamStart r) s fun t => (t.ring i).taken = [{ e with started := true, done := some (0, 0) }] ∧
          (t.ring i).streams = (s.ring i).streams.filter (· != e.stream) ++ [e.stream] ∧ { t with rings := s.rings } = s) ∧
      (e.opcode = 4 → e.stream < 64 → (s.rd SMP_CFG_OUT_HOST e.stream = i / 64 → Yields (.streamStop r) s fun t => ended 0 t ∧ t.rd SMP_CFG_ENABLE e.stream = 0 ∧
          t.rd SMP_STATE_STATE e.stream = 0 ∧ t.rd SMP_STATE_OPEN e.stream = 0) ∧
        (s.rd SMP_CFG_OUT_HOST e.stream ≠ i / 64 → Yields (.streamStop r) s fun t => ended 5 t ∧ { t with rings := s.rings } = s))) ∧
    (∀ e code detail, (s.ring i).taken = [e] → e.done = some (code, detail) → s.rd RNG_STAT_STATE i ≠ 0 → s.rd RNG_CFG_MODE i = 0 → s.workerUp i = true →
      s.rd BWT_STATUS_SAFE = 0 →
      (idxSub tail (s.rd RNG_IDX_CQ_HEAD i) = s.cqSize i → Yields (.completionPost r) s fun t => t.rd RNG_STAT_CQ_STALL i = 1 ∧ RegsBut [(RNG_STAT_CQ_STALL, i)] s t ∧
        { t with regs := s.regs } = s) ∧
      (idxSub tail (s.rd RNG_IDX_CQ_HEAD i) ≠ s.cqSize i → s.hbmReady (s.cqAddr i tail) 64 → s.rd RNG_CFG_IRQ_EN i = 0 → Yields (.completionPost r) s fun t =>
        HbmPut (s.cqAddr i tail) (leBytes 8 e.tag ++ leBytes 2 e.idx ++ leBytes 1 e.opcode ++ leBytes 1 code ++ leBytes 8 s.wall ++
          leBytes 8 (if e.opcode = 2 then detail else 0) ++ leBytes 36 0) s t ∧
        t.rd RNG_IDX_CQ_TAIL i = (tail + 1) % 65536 ∧ (t.rd RNG_STAT_CQ_STALL i = 1 ↔ idxSub (tail + 1) (s.rd RNG_IDX_CQ_HEAD i) = s.cqSize i) ∧
        t.rd RNG_STAT_RUNNING i = run - 1 ∧ (t.ring i).taken = [] ∧ others t ∧
        RegsBut [(RNG_IDX_CQ_TAIL, i), (RNG_STAT_CQ_STALL, i), (RNG_STAT_RUNNING, i)] s t)) ∧
    (s.rd RNG_STAT_STATE i ≠ 0 → (s.ring i).snap ≠ (head, tail, run) → s.hbmReady (s.rd RNG_BASE_BASE i + 8) 6 → Yields (.snapshotWrite r) s fun t =>
      HbmPut (s.rd RNG_BASE_BASE i + 8) (leBytes 2 head ++ leBytes 2 tail ++ leBytes 2 run) s t ∧ (t.ring i).snap = (head, tail, run) ∧ others t ∧ RegsBut [] s t) ∧
    (s.rd RNG_STAT_STATE i = 1 → s.workerUp i = true → s.hbmReady (s.rd RNG_BASE_BASE i) 8 →
      let v := memNat s.hbm (s.rd RNG_BASE_BASE i) 8
      let age := s.rd RNG_STAT_HB_AGE i
      let limit := 10 * min 600 (max 1 (s.rd RNG_CFG_HB_TIMEOUT i))
      (v ≠ (s.ring i).lastHb → Yields (.heartbeatRead r) s fun t => t.rd RNG_STAT_HB_AGE i = 0 ∧ (t.ring i).lastHb = v ∧ RegsBut [(RNG_STAT_HB_AGE, i)] s t ∧
        { t with regs := s.regs, rings := s.rings } = s) ∧
      (v = (s.ring i).lastHb → age + 1 < limit → Yields (.heartbeatRead r) s fun t => t.rd RNG_STAT_HB_AGE i = age + 1 ∧ RegsBut [(RNG_STAT_HB_AGE, i)] s t ∧
        { t with regs := s.regs } = s) ∧
      (v = (s.ring i).lastHb → limit ≤ age + 1 → Yields (.heartbeatRead r) s fun t => t.rd RNG_STAT_STATE i = 2 ∧ (t.rd RNG_ORPHAN_ORPHAN (i / 64)).testBit (i % 64) = true ∧
        t.calmSince = s.wall ∧ t.hbm = s.hbm ∧ t.rings = s.rings ∧ RegsBut [(RNG_STAT_HB_AGE, i), (RNG_STAT_STATE, i), (RNG_ORPHAN_ORPHAN, i / 64)] s t)) ∧
    (s.rd RNG_STAT_STATE i = 2 → s.rd PWR_STATE_STATE = 0 →
      (Yields (.reclaim r) s fun t => t.rd RNG_STAT_STATE i = 1 ∧ t.rd RNG_STAT_HB_AGE i = 0 ∧ (t.rd RNG_ORPHAN_ORPHAN (i / 64)).testBit (i % 64) = false ∧
        RegsBut [(RNG_STAT_STATE, i), (RNG_STAT_HB_AGE, i), (RNG_ORPHAN_ORPHAN, i / 64)] s t ∧ { t with regs := s.regs } = s) ∧
      (s.plans = [] → (s.ring i).streams = [] → Yields (.discard r) s fun t => t.rd RNG_STAT_STATE i = 0 ∧ t.rd RNG_CFG_ENABLE i = 0 ∧ t.rd RNG_STAT_RUNNING i = 0 ∧
        (t.rd RNG_ORPHAN_ORPHAN (i / 64)).testBit (i % 64) = false ∧ (t.ring i).taken = [] ∧ others t ∧ t.hbm = s.hbm ∧ t.calmSince = s.wall ∧
        RegsBut [(RNG_STAT_STATE, i), (RNG_CFG_ENABLE, i), (RNG_STAT_RUNNING, i), (RNG_ORPHAN_ORPHAN, i / 64)] s t))) ∧
  (∀ s : State, s.rd PWR_STATE_STATE = 0 → s.rd TWN_STATUS_ARMED = 0 → (∀ i, i < 128 → s.rd RNG_STAT_STATE i ≠ 1) → s.plans = [] → (∃ e ∈ s.rings, e.2.used = true) →
    s.calmSince + 6000000000 ≤ s.wall → Yields .doldrumsAutoEntry s fun t => t.rd PWR_STATE_STATE = 1 ∧ RegsBut [(PWR_STATE_STATE, 0)] s t ∧ { t with regs := s.regs } = s)

/-- R399 to R401, R403: a LAUNCH whose image fails a check completes its entry with the code and the image's plan; one that passes loads the
program into its tile, clears the die's tiles, requests the swap and starts a job, which ends with OK once its dies have stopped.
The model's choices it rests on: log 56, 67, 74, 102. -/
def Obligations.Launches : Prop :=
  (∀ (r : Fin 128) (s : State) (e : Taken), (s.ring r.val).taken = [e] → e.opcode = 2 → e.started = false → s.supUp = true → s.rd BWT_STATUS_SAFE = 0 →
    s.rd SEC_STATUS_WIPE_PENDING = 0 →
    let pa := e.param
    let plan := memNat s.hbm (pa + 4) 8
    let m : Mem := smRun (fun _ => 0) pa (memBytes s.hbm pa (max 64 (memNat s.hbm (pa + 24) 8)))
    let ended := fun (code detail : Nat) (t : State) => (t.ring r.val).taken = [{ e with started := true, done := some (code, detail) }] ∧ t.plans = s.plans ∧ t.stns = s.stns ∧
      t.tiles = s.tiles ∧ t.hbm = s.hbm ∧ ∀ k, k ≠ r.val → t.ring k = s.ring k
    (s.owns (r.val / 64) = false ∨ s.rd GLB_POST_HOLD = 1 ∨ s.rd BWT_TRIP_PENDING = 1 ∨ s.armedLee = true →
      (pa % 4096 ≠ 0 → Yields (.launch r) s fun t => ended 5 0 t ∧ { t with rings := s.rings } = s) ∧
      (pa % 4096 = 0 → s.hbmReady pa 64 → Yields (.launch r) s fun t => ended 5 plan t ∧ { t with rings := s.rings } = s)) ∧
    (s.owns (r.val / 64) = true → s.rd GLB_POST_HOLD ≠ 1 → s.rd BWT_TRIP_PENDING = 0 → s.armedLee = false →
      (pa % 4096 ≠ 0 → Yields (.launch r) s fun t => ended 4 0 t ∧ { t with rings := s.rings } = s) ∧
      (pa % 4096 = 0 → s.hbmReady pa (max 64 (memNat s.hbm (pa + 24) 8)) →
        (∀ code, s.launchCode m (r.val / 64) pa false = code → code ≠ 0 → Yields (.launch r) s (ended code plan)) ∧
        (∀ (d : Fin 24) (k : Fin 256) (x : Sect), s.launchCode m (r.val / 64) pa false = 0 → sectsOf m pa = [x] → x.typ = 2 → x.station = d.val → x.tile = k.val →
          Yields (.launch r) s fun t => (t.ring r.val).taken = [{ e with started := true }] ∧
            t.plans = s.plans ++ [⟨some (r.val, e.idx), plan, [], [], .requested, 0⟩] ∧
            t.tide.swapReqs = s.tide.swapReqs ++ [⟨[], true, some (memNat s.hbm (pa + 12) 1)⟩] ∧ t.rd TID_SWAP_TURN = 1 ∧ t.rd GLB_POST_HARBOUR = 0 ∧
            (∀ w, w < x.dlen / 32 → smGet (fun _ => 0) (t.tile (tileKey d k)).ibuf w = BitVec.ofNat 256 (memNat s.hbm (pa + x.off + 32 * w) 32)) ∧
            (∀ c : Fin 256, (t.tile (tileKey d c)).store = [] ∧ (t.tile (tileKey d c)).pc = 0 ∧ (c ≠ k → (t.tile (tileKey d c)).ibuf = [(0, 9)]) ∧
              ∀ a, (t.tile (tileKey d c)).rdS a = 0) ∧
            (∀ e c, e ≠ d → t.tile (tileKey e c) = s.tile (tileKey e c)) ∧ (∀ b, b < 64 → t.rd HDL_BARSET_MEMBERS (d.val * 64 + b) = 0) ∧
            t.stns = s.stns ∧ t.hbm = s.hbm)))) ∧
  (∀ (s : State) (j : Job), s.plans = [j] → j.phase = .running → (∀ d ∈ j.dies, (s.die d).running = false) →
    (j.ring = none → Yields (.jobComplete 0) s fun t => t.plans = [] ∧ t.rd FAB_CTRL_LOCK = 0 ∧ RegsBut [(FAB_CTRL_LOCK, 0)] s t ∧
      { t with regs := s.regs, plans := s.plans, calmSince := s.calmSince } = s) ∧
    (∀ i e, j.ring = some (i, e.idx) → (s.ring i).taken = [e] → Yields (.jobComplete 0) s fun t => t.plans = [] ∧ t.rd FAB_CTRL_LOCK = 0 ∧
      (t.ring i).taken = [{ e with started := true, done := some (0, j.plan) }] ∧ RegsBut [(FAB_CTRL_LOCK, 0)] s t ∧ t.tiles = s.tiles ∧ t.hbm = s.hbm))

/-- R409 to R412, R414, R378: a mailbox channel takes one message at a time from a master that may send on it, refuses a second with CAPACITY and another
master with PERM, both logged; TAKE empties it; the supervisor's LOCK fixes which hosts are attached. -/
def Obligations.Mailboxes : Prop :=
  (∀ (c : Fin 64) (m : Master) (d : W64) (s : State), 2 ≤ m.val ∨ s.rd PWR_STATE_STATE = 0 →
    let log := fun (code : Nat) (t : State) => t.rd MBX_LOG_VALID = 1 ∧ t.rd MBX_LOG_COUNT = min (s.rd MBX_LOG_COUNT + 1) 65535 ∧
      (s.rd MBX_LOG_VALID = 0 → t.rd MBX_LOG_CHANNEL = c.val ∧ t.rd MBX_LOG_MASTER = m.val ∧ t.rd MBX_LOG_CODE = code) ∧
      (s.rd MBX_LOG_VALID = 1 → t.rd MBX_LOG_MULTI = 1 ∧ t.rd MBX_LOG_CHANNEL = s.rd MBX_LOG_CHANNEL ∧ t.rd MBX_LOG_CODE = s.rd MBX_LOG_CODE) ∧
      rfWord t.regs MBX_STAT c.val = rfWord s.regs MBX_STAT c.val ∧ rfWord t.regs MBX_DATA c.val = rfWord s.regs MBX_DATA c.val ∧ { t with regs := s.regs } = s
    (s.mbxOk c.val m.val true = true → s.rd MBX_STAT_FULL c.val = 0 → Yields (.mailboxSend c m true d) s fun t => rfWord t.regs MBX_DATA c.val = d ∧
      t.rd MBX_STAT_FULL c.val = 1 ∧ t.rd MBX_STAT_STAMP c.val = m.val ∧ t.rd MBX_STAT_CODE c.val = 0 ∧
      t.rd MBX_STAT_SENDS c.val = (s.rd MBX_STAT_SENDS c.val + 1) % 256 ∧ { t with regs := s.regs } = s ∧
      RegsBut [(⟨MBX_DATA, 0, 64⟩, c.val), (MBX_STAT_FULL, c.val), (MBX_STAT_STAMP, c.val), (MBX_STAT_CODE, c.val), (MBX_STAT_SENDS, c.val)] s t) ∧
    (s.mbxOk c.val m.val true = true → s.rd MBX_STAT_FULL c.val = 1 → Yields (.mailboxSend c m true d) s (log 0x0B)) ∧
    (s.mbxOk c.val m.val true = false → Yields (.mailboxSend c m true d) s (log 0x05)) ∧
    (s.mbxOk c.val m.val false = false → Yields (.mailboxTake c m true) s (log 0x05)) ∧
    (s.mbxOk c.val m.val false = true → Yields (.mailboxTake c m true) s fun t => t.rd MBX_STAT_FULL c.val = 0 ∧ RegsBut [(MBX_STAT_FULL, c.val)] s t ∧
      { t with regs := s.regs } = s) ∧
    (∀ i : Instr, i = .mailboxSend c m false d ∨ i = .mailboxTake c m false → Yields i s fun t =>
      t.out = s.out ++ (if m.val < 2 then [.aer m.val 1] else []) ∧ t.rd GLB_HOSTLOG_VALID = 1 ∧ rfWord t.regs MBX_STAT c.val = rfWord s.regs MBX_STAT c.val)) ∧
  (∀ s : State, s.rd MBX_CTRL_LOCK = 0 → Yields (.mailboxLock 2) s fun t => t.rd MBX_CTRL_LOCK = 1 ∧
    t.rd GLB_HOSTCFG_DUAL = (if s.rd GLB_PORT_LINK_UP 0 = 1 ∧ s.rd GLB_PORT_LINK_UP 1 = 1 then 1 else 0) ∧
    t.rd MBX_CTRL_LATE = (if s.rd GLB_PORT_LINK_UP 0 = 1 ∧ s.rd GLB_PORT_LINK_UP 1 = 1 then 0 else
      (if s.rd GLB_PORT_LINK_UP 0 = 1 then 0 else 1) + (if s.rd GLB_PORT_LINK_UP 1 = 1 then 0 else 2)) ∧
    RegsBut [(MBX_CTRL_LOCK, 0), (GLB_HOSTCFG_DUAL, 0), (MBX_CTRL_LATE, 0)] s t ∧ { t with regs := s.regs } = s) ∧
  (∀ (m : Master) (s : State), m.val < 2 → Yields (.mailboxLock m) s fun t => t.rd MBX_CTRL_LOCK = s.rd MBX_CTRL_LOCK ∧ t.rd GLB_HOSTLOG_VALID = 1 ∧
    t.out = s.out ++ [.aer m.val 1])

/-- R261, R369 to R379, R406, R444, R482, Table 16-3, Table 16-5: the host ports. BAR2 reaches HBM through its window and the Harbour station's
memory channel, answers with what comes back, and logs a hole; an unmasked vector sends
what was pended; ownership is claimed, released and taken over; a port reset orphans its host's rings and stops its Ferry transfers.
The model's choices it rests on: log 21, 29, 72, 73. -/
def Obligations.HostPorts : Prop :=
  ∀ (port : Fin 2) (s : State),
    let p := port.val
    (∀ (off : BitVec 41) (pa : Nat), s.bar2Pa p off.toNat = some pa → s.rd BWT_STATUS_SAFE = 0 →
      (∀ len, 0 < len → s.bar2Up = true → paOk pa len = true → (s.shg (paStack pa)).lost = false → s.portClear 40 →
        Yields (.bar2Read port off len) s fun t => t.out = s.out ∧
          s.asks t (.hrb (.bar2Read p pa len)) 40 ⟨1, 0, 0, pa / 32 * 32, (pa % 32 + len + 31) / 32, 0, 0, 0, [], []⟩) ∧
      (∀ len, 0 < len → s.bar2Up = true → paOk pa len = true → (s.shg (paStack pa)).lost = true →
        Yields (.bar2Read port off len) s (· = { s with out := s.out ++ [.replyError 8, .aer p 2] })) ∧
      (∀ len, s.bar2Up = true → paOk pa len = false → Yields (.bar2Read port off len) s fun t => t.out = s.out ++ [.aer p 1, .replyError 4] ∧
        t.rd GLB_HOSTLOG_VALID = 1 ∧ (s.rd GLB_HOSTLOG_VALID = 0 → t.rd GLB_HOSTLOG_PORT = p ∧ t.rd GLB_HOSTLOG_BAR = 1 ∧ t.rd GLB_HOSTLOG_CODE = 4 ∧
          t.rd GLB_HOSTLOG_OFFSET = off.toNat) ∧ { t with regs := s.regs, out := s.out } = s) ∧
      (∀ len, s.hbmOpen = true → s.rd PWR_STATE_STATE = 2 → Yields (.bar2Read port off len) s fun t => t.rd PWR_STATE_STATE = 5 ∧ t.rd PWR_STATE_WAKE_CAUSE = 4 ∧
        t.out = s.out ++ [.aer p 2, .replyError 8] ∧ t.hbm = s.hbm) ∧
      (∀ data, data ≠ [] → s.bar2Up = true → paOk pa data.length = true → (s.shg (paStack pa)).lost = false → s.portClear 40 →
        let u := (pa % 32 + data.length + 31) / 32
        Yields (.bar2Write port off data false) s fun t => t.out = s.out ∧
          s.asks t (.hrb (.bar2Write p)) 40 ⟨2, 0, 0, pa / 32 * 32, u, 0, 0, 0, leBytes (pa % 32) 0 ++ data ++ leBytes (32 * u - pa % 32 - data.length) 0, []⟩
            (some (pa % 32, data.length))) ∧
      (∀ data, s.bar2Up = true → paOk pa data.length = false → Yields (.bar2Write port off data false) s fun t => t.hbm = s.hbm ∧ t.out = s.out ++ [.aer p 1] ∧
        t.rd GLB_HOSTLOG_VALID = 1)) ∧
    (∀ (k : Fin 16) (r : MemReq) (rs : List MemReq) (pa len : Nat), s.mreqs = r :: rs → (∀ x ∈ rs, x.uid ≠ r.uid) → r.q = 40 → r.k = k.val →
      r.dest = .hrb (.bar2Read p pa len) → r.kind = 1 → s.hrbDone = [] → (∀ x ∈ s.mwait, x.1.q ≠ 40) →
      (∀ m rest, s.inbox = (40, 24 + k.val, m) :: rest → r.rid = m.rid → m.typ = 3 → r.code = 0 → m.code = 0 → (∀ b ∈ m.bad, b = false) → m.off = 0 →
        m.data.length = 32 * r.len → r.data.length = 32 * r.len → r.seen = [] → Yields (.rdata 40) s fun t => t.inbox = rest ∧ t.mreqs = rs ∧
          t.out = s.out ++ [.reply ((m.data.drop (pa % 32)).take len) false]) ∧
      (∀ rid : BitVec 12, r.rid = rid.toNat → r.wall + 32768 ≤ s.wall → Yields (.memoryRequestTimeout 40 k rid) s fun t => t.mreqs = rs ∧
        t.out = s.out ++ [.replyError 8, .aer p 2])) ∧
    (∀ v : BitVec 8, (s.port p).enable = true → (s.port p).busMaster = true → (s.port p).funcMask = false → s.rd GLB_PORT_LINK_UP p = 1 →
      (∀ w, w < 256 → (s.port p).pend.getLsbD w = true → (s.port p).mask.getLsbD w = true) →
      Yields (.msixUnmask port (some v)) s fun t => (∀ w, w < 256 → (t.port p).mask.getLsbD w = ((s.port p).mask.getLsbD w && w != v.toNat)) ∧
        (∀ w, w < 256 → (t.port p).pend.getLsbD w = ((s.port p).pend.getLsbD w && w != v.toNat)) ∧
        t.out = s.out ++ (if (s.port p).pend.getLsbD v.toNat then [.msix p v.toNat] else []) ∧ { t with ports := s.ports, out := s.out } = s) ∧
    (∀ i : Instr, i = .msixUnmask port none → (s.port p).pend = 0 → Yields i s fun t => t.port p = { s.port p with funcMask := false } ∧ { t with ports := s.ports } = s) ∧
    (s.rd GLB_HOSTCFG_OWNER_VALID = 0 → Yields (.claim port) s fun t => t.rd GLB_HOSTCFG_OWNER_VALID = 1 ∧ t.rd GLB_HOSTCFG_OWNER = p ∧ t.rd GLB_DRVVER_VERSION = 0 ∧
      t.rd GLB_FWSTAT_MISMATCH = 0 ∧
      RegsBut [(GLB_HOSTCFG_OWNER_VALID, 0), (GLB_HOSTCFG_OWNER, 0), (GLB_DRVVER_VERSION, 0), (GLB_FWSTAT_MISMATCH, 0)] s t ∧ { t with regs := s.regs } = s) ∧
    (s.rd GLB_HOSTCFG_OWNER_VALID = 1 → Yields (.claim port) s (· = s)) ∧
    (s.owns p = true → Yields (.release port) s fun t => t.rd GLB_HOSTCFG_OWNER_VALID = 0 ∧ t.rd GLB_DRVVER_VERSION = 0 ∧
      RegsBut [(GLB_HOSTCFG_OWNER_VALID, 0), (GLB_DRVVER_VERSION, 0), (GLB_FWSTAT_MISMATCH, 0)] s t ∧ { t with regs := s.regs } = s) ∧
    (s.owns p = false → Yields (.release port) s fun t => t.rd GLB_HOSTCFG_OWNER_VALID = s.rd GLB_HOSTCFG_OWNER_VALID ∧ t.rd GLB_HOSTCFG_OWNER = s.rd GLB_HOSTCFG_OWNER ∧
      t.out = s.out ++ [.aer p 1] ∧ t.rd GLB_HOSTLOG_VALID = 1) ∧
    (s.rd GLB_HOSTCFG_OWNER_VALID = 1 → s.rd GLB_HOSTCFG_OWNER = 1 - p →
      let lost := s.rd GLB_PORT_LINK_UP (1 - p) = 0 ∧ (s.port (1 - p)).downAt + 100000000 ≤ s.wall ∨
        (∃ n, n < 64 ∧ s.rd RNG_STAT_STATE ((1 - p) * 64 + n) ≠ 0) ∧ ∀ n, n < 64 → s.rd RNG_STAT_STATE ((1 - p) * 64 + n) = 0 ∨ s.rd RNG_STAT_STATE ((1 - p) * 64 + n) = 2
      (lost → Yields (.takeover port) s fun t => t.rd GLB_HOSTCFG_OWNER = p ∧ t.rd GLB_HOSTCFG_OWNER_VALID = 1 ∧ t.rd GLB_DRVVER_VERSION = 0 ∧
        RegsBut [(GLB_HOSTCFG_OWNER, 0), (GLB_DRVVER_VERSION, 0), (GLB_FWSTAT_MISMATCH, 0)] s t ∧ { t with regs := s.regs } = s) ∧
      (¬lost → Yields (.takeover port) s (· = s))) ∧
    (∀ down, Yields (.portReset port down) s fun t => (t.port p).enable = false ∧ (t.port p).busMaster = false ∧ (t.port p).pend = 0 ∧
      t.rd GLB_BAR2WIN_WIN_BASE p = 0 ∧ t.rd GLB_PORT_RESETS p = min (s.rd GLB_PORT_RESETS p + 1) 65535 ∧
      (down = true → t.rd GLB_PORT_LINK_UP p = 0 ∧ t.rd GLB_PORT_SPEED p = 0 ∧ t.rd GLB_PORT_WIDTH p = 0) ∧
      (∀ n, n < 64 → t.rd RNG_STAT_STATE (p * 64 + n) = (if s.rd RNG_STAT_STATE (p * 64 + n) = 1 then 2 else s.rd RNG_STAT_STATE (p * 64 + n)) ∧
        t.rd RNG_STAT_STATE ((1 - p) * 64 + n) = s.rd RNG_STAT_STATE ((1 - p) * 64 + n)) ∧
      (∀ c d, c < 32 → (s.fry c).cur = some d → (d.ss = p + 1 ∨ d.ds = p + 1) → ∃ e, (t.fry c).cur = some e ∧ e.stop = true ∧
        e.bursts = d.bursts.filter (·.writing) ∧ e.code = worstCode d.code 7) ∧
      (∀ c d, c < 32 → (s.fry c).cur = some d → d.ss ≠ p + 1 → d.ds ≠ p + 1 → (t.fry c).cur = some d) ∧
      t.hbm = s.hbm ∧ t.tiles = s.tiles ∧ t.rings = s.rings ∧ t.port (1 - p) = s.port (1 - p) ∧ (s.owns p = true → t.rd GLB_DRVVER_VERSION = 0)) ∧
    (∀ speed width flit, Yields (.portLinkUp port speed width flit) s fun t => t.rd GLB_PORT_LINK_UP p = 1 ∧ t.rd GLB_PORT_SPEED p = speed.toNat ∧
      t.rd GLB_PORT_WIDTH p = width.toNat ∧ t.rd GLB_PORT_FLIT p = (if flit then 1 else 0) ∧ { t with regs := s.regs } = s ∧
      RegsBut [(GLB_PORT_LINK_UP, p), (GLB_PORT_SPEED, p), (GLB_PORT_WIDTH, p), (GLB_PORT_FLIT, p)] s t)

/-- R380 to R385, R390: a Ferry channel is enabled with a sound configuration and cleared indices, disabled with its descriptor ABORTED, owned while
disabled, started by doorbell or timer, and fetches and checks the descriptor at HEAD.
The model's choices it rests on: log 31. -/
def Obligations.FerryChannels : Prop :=
  (∀ (ch : Fin 32) (m : Master) (s : State),
    let c := ch.val
    (s.fryMay c m.val = true → s.rd FRY_CFG_ENABLE c = 0 →
      (s.rd FRY_RING_LOG2N c ≤ 12 → s.rd FRY_CQ_LOG2N c ≤ 12 → s.rd FRY_CFG_TRIG c = 0 → s.rd FRY_CQ_SIDE c = 0 → Yields (.ferryEnable ch m) s fun t =>
        t.rd FRY_CFG_ENABLE c = 1 ∧ t.rd FRY_STAT_STATE c = 0 ∧ t.rd FRY_STAT_CREDITS c = 0 ∧ rfWord t.regs FRY_IDX c = 0 ∧ t.fry c = { s.fry c with phase := true } ∧
        RegsBut [(⟨FRY_IDX, 0, 64⟩, c), (FRY_STAT_CREDITS, c), (FRY_STAT_STATE, c), (FRY_CFG_ENABLE, c)] s t ∧ (∀ k, k ≠ c → t.fry k = s.fry k) ∧
        { t with regs := s.regs, frys := s.frys } = s) ∧
      ((12 < s.rd FRY_RING_LOG2N c ∨ 12 < s.rd FRY_CQ_LOG2N c ∨ s.rd FRY_CFG_TRIG c = 3 ∨ (s.rd FRY_CFG_TRIG c = 1 ∧ s.rd FRY_CFG_SRC_CH c = c)) →
        Yields (.ferryEnable ch m) s fun t => t.rd FRY_STAT_STATE c = 3 ∧ t.rd FRY_STAT_CODE c = 9 ∧ RegsBut [(FRY_STAT_STATE, c), (FRY_STAT_CODE, c)] s t ∧
          { t with regs := s.regs } = s)) ∧
    (s.fryMay c m.val = false → ∀ i : Instr, i = .ferryEnable ch m ∨ i = .ferryDisable ch m ∨ (∃ tl, i = .ferryDoorbell ch m false tl) → Yields i s fun t =>
      (2 ≤ m.val → t = s) ∧ (m.val < 2 → t.out = s.out ++ [.aer m.val 1] ∧ t.rd GLB_HOSTLOG_VALID = 1 ∧ t.frys = s.frys ∧
        rfWord t.regs FRY_CFG c = rfWord s.regs FRY_CFG c ∧ rfWord t.regs FRY_IDX c = rfWord s.regs FRY_IDX c)) ∧
    (s.fryMay c m.val = true → (s.fry c).cur = none → Yields (.ferryDisable ch m) s fun t => t.rd FRY_CFG_ENABLE c = 0 ∧ t.rd FRY_STAT_STATE c = 0 ∧
      RegsBut [(FRY_CFG_ENABLE, c), (FRY_STAT_STATE, c)] s t ∧ { t with regs := s.regs } = s) ∧
    (∀ d, s.fryMay c m.val = true → (s.fry c).cur = some d → Yields (.ferryDisable ch m) s fun t => t.rd FRY_CFG_ENABLE c = 0 ∧
      RegsBut [(FRY_CFG_ENABLE, c)] s t ∧ ∃ e, (t.fry c).cur = some e ∧ e.stop = true ∧ e.code = worstCode d.code 7 ∧ e.bursts = d.bursts) ∧
    (∀ o : BitVec 6, s.mayConfigure m.val = true →
      (s.rd FRY_CFG_ENABLE c = 0 → Yields (.ferryOwnerWrite ch m o) s fun t => t.rd FRY_CFG_OWNER c = o.toNat ∧ RegsBut [(FRY_CFG_OWNER, c)] s t ∧
        { t with regs := s.regs } = s) ∧
      (s.rd FRY_CFG_ENABLE c = 1 → Yields (.ferryOwnerWrite ch m o) s (· = s))) ∧
    (∀ tail : BitVec 16, s.fryMay c m.val = true →
      (idxSub tail.toNat (s.rd FRY_IDX_HEAD c) ≤ 2 ^ s.rd FRY_RING_LOG2N c → Yields (.ferryDoorbell ch m false tail) s fun t => t.rd FRY_IDX_TAIL c = tail.toNat ∧
        RegsBut [(FRY_IDX_TAIL, c)] s t ∧ { t with regs := s.regs } = s) ∧
      (s.rd FRY_CFG_ENABLE c = 1 → s.rd FRY_CFG_TRIG c = 0 → 2 ^ s.rd FRY_RING_LOG2N c < idxSub tail.toNat (s.rd FRY_IDX_HEAD c) →
        Yields (.ferryDoorbell ch m false tail) s fun t => t.rd FRY_IDX_TAIL c = tail.toNat ∧ t.rd FRY_STAT_STATE c = 3 ∧ t.rd FRY_STAT_CODE c = 9 ∧
          RegsBut [(FRY_IDX_TAIL, c), (FRY_STAT_STATE, c), (FRY_STAT_CODE, c)] s t ∧ { t with regs := s.regs } = s))) ∧
  (∀ (ch : Fin 32) (s : State),
    let c := ch.val
    let head := s.rd FRY_IDX_HEAD c
    (s.rd FRY_CFG_ENABLE c = 1 → s.rd FRY_CFG_TRIG c = 2 → s.rd TID_STATUS_IDLE_NOW = 0 → s.rd FRY_TIMER_NEXT c ≤ s.ticks →
      Yields (.ferryTimer ch) s fun t => t.rd FRY_STAT_CREDITS c = min (s.rd FRY_STAT_CREDITS c + 1) 255 ∧
        t.rd FRY_STAT_OVER c = min (s.rd FRY_STAT_OVER c + (if s.rd FRY_STAT_CREDITS c = 255 then 1 else 0)) 65535 ∧
        t.rd FRY_TIMER_NEXT c = (s.rd FRY_TIMER_NEXT c + max 1024 (s.rd FRY_PERIOD_PERIOD c)) % 2 ^ 64 ∧
        RegsBut [(FRY_STAT_CREDITS, c), (FRY_STAT_OVER, c), (FRY_TIMER_NEXT, c)] s t ∧ { t with regs := s.regs } = s) ∧
    (s.rd FRY_CFG_ENABLE c = 1 → s.rd FRY_STAT_STATE c ≠ 3 → (s.fry c).cur = none → (s.fry c).held = none → s.rd PWR_STATE_STATE = 0 → s.rd BWT_STATUS_SAFE = 0 →
      s.rd FRY_CFG_TRIG c = 0 → head ≠ s.rd FRY_IDX_TAIL c →
      let a := s.rd FRY_RING_BASE c / 64 * 64 + head % 2 ^ s.rd FRY_RING_LOG2N c * 64
      s.hbmReady a 64 → Yields (.descriptorStart ch) s fun t => t.rd FRY_IDX_HEAD c = (head + 1) % 65536 ∧ t.rd FRY_STAT_STATE c = 1 ∧
        (∀ k, k ≠ c → t.fry k = s.fry k) ∧ t.hbm = s.hbm ∧ ∃ d, (t.fry c).cur = some d ∧ d.index = head ∧
        (∀ src dst len tag irq, src < 2 ^ 41 → dst < 2 ^ 41 → len < 2 ^ 32 → tag < 2 ^ 32 →
          memBytes s.hbm a 64 = leBytes 8 src ++ leBytes 8 dst ++ leBytes 4 len ++ leBytes 2 0 ++ leBytes 1 (if irq then 3 else 1) ++ leBytes 1 0 ++ leBytes 4 tag ++ leBytes 36 0 →
          (0 < len → len % 32 = 0 → src % 32 = 0 → dst % 32 = 0 → paOk src len = true → paOk dst len = true → s.hbmOpen = true →
            d = ⟨src, dst, len, 0, false, 0, 0, false, 0, irq, tag, head, 0, [], 0, 0, 0, false⟩ ∧ RegsBut [(FRY_IDX_HEAD, c), (FRY_STAT_STATE, c)] s t) ∧
          (0 < len → len % 32 = 0 → src % 32 = 0 → dst % 32 = 0 → paOk src len = false → paOk dst len = true → d.code = 4 ∧ d.stop = true ∧
            t.rd SHG_ERRLOG_VALID (paStack src) = 1) ∧
          (len = 0 ∨ len % 32 ≠ 0 → src % 32 = 0 → dst % 32 = 0 → paOk src len = true → paOk dst len = true → d.code = 9 ∧ d.stop = true))))

/-- R386 to R389: the engine starts a burst of at most 4,096 B that crosses no 4,096 B line; a burst writes what it read; when the last has landed the
channel's record is written at CQ_TAIL, or held while the queue is full; a chained channel gains a credit; an unanswered host read ends with TIMEOUT.
The model's choices it rests on: log 32. -/
def Obligations.FerryTransfers : Prop :=
  ∀ (ch : Fin 32) (s : State) (d : FryDesc), s.rd BWT_STATUS_SAFE = 0 →
    let c := ch.val
    let tail := s.rd FRY_IDX_CQ_TAIL c
    let slot := s.rd FRY_CQ_ADDR c * 64 + tail % 2 ^ s.rd FRY_CQ_LOG2N c * 32
    let tag := c + if (s.fry c).phase then 128 else 0
    let full := idxSub tail (s.rd FRY_IDX_CQ_HEAD c) = 2 ^ s.rd FRY_CQ_LOG2N c
    let posted := fun t : State => t.rd FRY_IDX_CQ_TAIL c = (tail + 1) % 65536 ∧ t.rd FRY_STAT_CQ_STALL c = 0 ∧
      ((t.fry c).phase = if (tail + 1) % 2 ^ s.rd FRY_CQ_LOG2N c = 0 then !(s.fry c).phase else (s.fry c).phase) ∧ (t.fry c).held = none ∧ ∀ k, k ≠ c → t.fry k = s.fry k
    let credited := fun t : State => ∀ k, k < 32 → t.rd FRY_STAT_CREDITS k = if s.rd FRY_CFG_ENABLE k = 1 ∧ s.rd FRY_CFG_TRIG k = 1 ∧ s.rd FRY_CFG_SRC_CH k = c
      then min (s.rd FRY_STAT_CREDITS k + 1) 255 else s.rd FRY_STAT_CREDITS k
    (s.rd PWR_STATE_STATE = 0 → (s.fry c).cur = some d → (∀ k, k < 32 → k ≠ c → (s.fry k).cur = none) → d.stop = false → d.next < d.len → d.bursts.length < 2 →
      s.rd FRY_STAT_STATE c = 1 → d.sfix = false → d.dfix = false →
      let n := min (min (d.len - d.next) 4096) (min (4096 - (d.src + d.next) % 4096) (4096 - (d.dst + d.next) % 4096))
      let started := fun t : State => (t.fry c).cur = some { d with next := d.next + n, bursts := d.bursts ++ [⟨d.next, n, none, false⟩] } ∧ ∀ k, k ≠ c → t.fry k = s.fry k
      (d.ss = 0 → d.ds = 0 → (s.shg (paStack (d.src + d.next))).lost = false → s.portClear 40 → Yields .burstStart s fun t => started t ∧
        s.asks t (.hrb (.fryRead c d.next)) 40 ⟨1, 0, 0, (d.src + d.next) / 32 * 32, ((d.src + d.next) % 32 + n + 31) / 32, 0, 0, 0, [], []⟩) ∧
      (∀ p, p < 2 → d.ss = p + 1 → d.ds = 0 → (s.port p).busMaster = true → s.rd GLB_PORT_LINK_UP p = 1 → Yields .burstStart s fun t => started t ∧
        t.regs = s.regs ∧ t.hbm = s.hbm ∧ t.mreqs = s.mreqs) ∧
      (∀ p, p < 2 → d.ss = p + 1 → d.ds = 0 → (s.port p).busMaster = false → Yields .burstStart s fun t => t.regs = s.regs ∧
        ∃ e, (t.fry c).cur = some e ∧ e.stop = true ∧ e.bursts = d.bursts ∧ e.code = worstCode d.code 5)) ∧
    (∀ b : FryBurst, (s.fry c).cur = some d → d.bursts = [b] → b.len % 32 = 0 → b.writing = false → d.sfix = false → d.dfix = false →
      let moved := some { d with bursts := [], written := d.written + b.len }
      let writes := fun (data : List Byte) (bad : List Bool) (t : State) => (t.fry c).cur = some { d with bursts := [{ b with data := some (data, bad), writing := true }] } ∧
        s.asks t (.hrb (.fryWrite c b.off)) 40 ⟨2, 0, 0, d.dst + b.off, b.len / 32, 0, 0, 0, data, bad⟩ (some (0, b.len))
      (∀ data bad, data.length = b.len → (d.dst + b.off) % 32 = 0 →
        (d.ss = 0 ∧ b.data = some (data, bad) → d.ds = 0 → (s.shg (paStack (d.dst + b.off))).lost = false → s.portClear 40 →
          Yields (.burstDone ch false [] false) s (writes data bad)) ∧
        (d.ss = 1 ∨ d.ss = 2 → d.ds = 0 → (s.shg (paStack (d.dst + b.off))).lost = false → s.portClear 40 →
          Yields (.burstDone ch false data false) s (writes data [])) ∧
        (∀ p, p < 2 → d.ss = 0 ∧ b.data = some (data, bad) → d.ds = p + 1 → Yields (.burstDone ch false [] false) s fun t => t.hbm = s.hbm ∧
          t.out = s.out ++ [.hostWrite p (d.dst + b.off) data (bad.any id)] ∧ (t.fry c).cur = moved)) ∧
      (d.ss = 0 → b.data = none → Yields (.burstDone ch false [] false) s (· = s)) ∧
      (∀ p, p < 2 → d.ss = p + 1 → Yields (.ferryReadTimeout ch false) s fun t => t.out = s.out ++ [.aer p 4] ∧ t.regs = s.regs ∧
        ∃ e, (t.fry c).cur = some e ∧ e.stop = true ∧ e.bursts = [] ∧ e.code = worstCode d.code 8)) ∧
    (∀ (k : Fin 16) (b : FryBurst) (r : MemReq) (rs : List MemReq) (m : MMsg) (rest : List (Nat × Nat × MMsg)), (s.fry c).cur = some d → d.bursts = [b] →
      s.mreqs = r :: rs → (∀ x ∈ rs, x.uid ≠ r.uid) → r.q = 40 → r.k = k.val → s.hrbDone = [] → (∀ x ∈ s.mwait, x.1.q ≠ 40) →
      s.inbox = (40, 24 + k.val, m) :: rest → r.rid = m.rid → r.code = 0 → m.code = 0 →
      (r.dest = .hrb (.fryRead c b.off) → r.kind = 1 → m.typ = 3 → (∀ b ∈ m.bad, b = false) → m.off = 0 → m.data.length = 32 * r.len → r.data.length = 32 * r.len →
        r.seen = [] → Yields (.rdata 40) s fun t => t.mreqs = rs ∧ (t.fry c).cur = some { d with bursts := [{ b with data := some (m.data, []) }] }) ∧
      (r.dest = .hrb (.fryWrite c b.off) → r.kind = 2 → m.typ = 4 → Yields (.wack 40) s fun t => t.mreqs = rs ∧
        (t.fry c).cur = some { d with bursts := [], written := d.written + b.len })) ∧
    ((s.fry c).cur = some d → d.bursts = [] → d.len ≤ d.next → d.code < 256 → s.rd FRY_CFG_ENABLE c = 1 → s.rd PWR_STATE_STATE = 0 →
      let rec_ := leBytes 4 d.tag ++ leBytes 1 d.code ++ leBytes 1 tag ++ leBytes 2 d.index ++ leBytes 8 d.written ++ leBytes 8 s.wall ++
        leBytes 8 (if d.code = 0 then 0 else d.fault)
      let ends := if d.code = 0 ∨ d.code = 1 then 0 else 3
      (¬full → s.rd FRY_CQ_SIDE c = 0 → s.hbmReady slot 32 → d.irq = false → Yields (.descriptorComplete ch) s fun t => HbmPut slot rec_ s t ∧ posted t ∧ (t.fry c).cur = none ∧
        t.rd FRY_STAT_CODE c = d.code ∧ t.rd FRY_STAT_STATE c = ends ∧ (d.code ≤ 1 → credited t) ∧ t.out = s.out) ∧
      (∀ p, p < 2 → ¬full → s.rd FRY_CQ_SIDE c = p + 1 → (s.port p).busMaster = false → Yields (.descriptorComplete ch) s fun t => (t.fry c).cur = none ∧
        t.rd FRY_STAT_CQ_LOST c = 1 ∧ t.rd FRY_STAT_STATE c = 3 ∧ t.rd FRY_STAT_CODE c = d.code ∧ t.hbm = s.hbm ∧ t.out = s.out) ∧
      (full → Yields (.descriptorComplete ch) s fun t => (t.fry c).cur = none ∧ (∃ r, (t.fry c).held = some (r, d.irq)) ∧ t.rd FRY_STAT_CQ_STALL c = 1 ∧
        t.rd FRY_STAT_CODE c = d.code ∧ t.rd FRY_STAT_STATE c = (if ends = 0 then 2 else 3) ∧ t.hbm = s.hbm ∧
        RegsBut [(FRY_STAT_CQ_STALL, c), (FRY_STAT_CODE, c), (FRY_STAT_STATE, c)] s t)) ∧
    (∀ r : List Byte, s.rd PWR_STATE_STATE = 0 → (s.fry c).held = some (r, false) → r.length = 32 → ¬full → s.rd FRY_CQ_SIDE c = 0 → s.hbmReady slot 32 → Yields (.ferryRecordRelease ch) s fun t =>
      HbmPut slot (r.take 5 ++ leBytes 1 tag ++ (r.drop 6).take 10 ++ leBytes 8 s.wall ++ r.drop 24) s t ∧ posted t ∧
      t.rd FRY_STAT_STATE c = if s.rd FRY_STAT_STATE c = 2 then 0 else s.rd FRY_STAT_STATE c)

/-- R13, R18, R438, R440, R447 to R452, Table 19-2, Table 19-5: bus samples are averaged into PWR_IN; current past 80 A, or on average past its limit, and an
excursion past 65.0 V or under 48.0 V trip Breakwater, as a Headland's estimate past its limit does; a smaller excursion is a fault; a Headland's hottest sensor governs its throttle request, 95, 98, 101 and 104 °C asking for levels 1, 2, 4 and 7. -/
def Says.PowerAndTemperature : Prop :=
  (∀ (v a : BitVec 16) (s : State),
    let xs := ((s.wall, v.toNat, a.toNat) :: s.pwr.samples).take 100
    let amps := (xs.map (·.2.2)).sum / xs.length % 65536
    let sampled := fun t : State => t.pwr.samples = xs ∧ t.rd PWR_IN_VOLTS = (xs.map (·.2.1)).sum / xs.length % 65536 ∧
      t.rd PWR_IN_AMPS = amps ∧ t.rd PWR_IN_WATTS = (xs.map fun x => x.2.1 * x.2.2).sum / (xs.length * 10000) % 65536 ∧
      t.stl.energy = s.stl.energy + v.toNat * a.toNat
    let trips := fun (cause value : Nat) (t : State) => t.rd BWT_STATUS_SAFE = 1 ∧ t.rd BWT_TRIP_CAUSE = cause ∧ t.rd BWT_TRIP_VALUE = value ∧ t.rd BWT_TRIP_VOTES = 7
    (s.rst.held = true → Yields (.powerSample v a) s (· = s)) ∧
    (s.rst.held = false → a.toNat ≤ 8000 → xs.length < 100 ∨ amps ≤ 100 * s.rd BWT_TIGHTEN_CUR_TRIP → Yields (.powerSample v a) s fun t => sampled t ∧
      RegsBut [(PWR_IN_VOLTS, 0), (PWR_IN_AMPS, 0), (PWR_IN_WATTS, 0)] s t ∧ { t with regs := s.regs, pwr := s.pwr, stl := s.stl } = s) ∧
    (s.rst.held = false → s.rst.powered = true → s.rd BWT_STATUS_SAFE = 0 →
      (8000 < a.toNat → Yields (.powerSample v a) s fun t => sampled t ∧ trips 4 a.toNat t) ∧
      (a.toNat ≤ 8000 → xs.length = 100 → 100 * s.rd BWT_TIGHTEN_CUR_TRIP < amps → Yields (.powerSample v a) s fun t => sampled t ∧ trips 3 amps t))) ∧
  (∀ (v : BitVec 16) (us : Nat) (s : State),
    (s.rst.powered = false → Yields (.busVoltageExcursion v us) s (· = s)) ∧
    (s.rst.powered = true →
      ((v.toNat < 4800 ∧ 100 ≤ us) ∨ (6500 < v.toNat ∧ 10 ≤ us) → s.rd BWT_STATUS_SAFE = 0 → Yields (.busVoltageExcursion v us) s fun t => t.rd BWT_STATUS_SAFE = 1 ∧ t.rd BWT_TRIP_PENDING = 1 ∧
        t.rd BWT_TRIP_CAUSE = (if 6500 < v.toNat then 1 else 2) ∧ t.rd BWT_TRIP_VALUE = v.toNat ∧ t.rd BWT_TRIP_STATION = 0xFF ∧
        t.rd BWT_TRIP_HOURS = s.powerS / 3600 % 2 ^ 32 ∧ t.air = [] ∧ t.rd HRN_PORTLIGHT_OFF = 1023 ∧ (∀ n, n < 26 → s.srcSt n = 5 → t.srcSt n = 6) ∧ .alert ∈ t.out) ∧
      ((4800 ≤ v.toNat ∧ v.toNat < 5400) ∨ (6300 < v.toNat ∧ v.toNat ≤ 6500) → Yields (.busVoltageExcursion v us) s
        (· = { s with raised := s.raised ++ [⟨0x72, 0x30, 0, none, 0, 0⟩] })) ∧
      ((5400 ≤ v.toNat ∧ v.toNat ≤ 6300) ∨ (v.toNat < 4800 ∧ us < 100) ∨ (6500 < v.toNat ∧ us < 10) → Yields (.busVoltageExcursion v us) s (· = s)))) ∧
  (∀ (die : Fin 66) (n T ring : Nat) (s : State), s.rst.held = false → 8 ≤ n → smGet (fun _ => 0) s.pwr.excl die.val = 0 →
    let d := die.val
    let c := min 255 (T / 10)
    (d < 24 → s.rd THM_STN_SUSPECT d = 0 → ring ≤ T + 80 → (∀ u, s.pwr.own.lookup (24 + d) = some u → u ≤ T + 20 ∧ u + 60 ≤ 10 * s.rd BWT_TIGHTEN_HDL_TRIP) →
      ring ≤ 10 * s.rd BWT_TIGHTEN_HDL_TRIP → Yields (.sensorSample die (List.replicate n T) ring) s fun t =>
      t.govT d = T ∧ t.ringT d = ring ∧ t.rd THM_STN_GOV d = c ∧ t.rd THM_STN_OWN d = c ∧ t.rd THM_STN_RING d = min 255 (ring / 10) ∧ t.rd THM_STN_SUSPECT d = 0 ∧
      t.rd TPL_THERM_HDL_TEMP d = c ∧ t.rd TPL_THERM_TAP_BAND d = min 11 (T / 100) ∧ t.raised = s.raised ∧
      (s.rd THM_STN_THR_REQ d = 0 → t.rd THM_STN_THR_REQ d = if 1040 ≤ T then 7 else if 1010 ≤ T then 4 else if 980 ≤ T then 2 else if 950 ≤ T then 1 else 0) ∧
      (s.rd THM_STN_THR_REQ d = 7 → 1020 < T → t.rd THM_STN_THR_REQ d = 7) ∧ (s.rd THM_STN_THR_REQ d = 1 → T ≤ 930 → t.rd THM_STN_THR_REQ d = 0) ∧
      (∀ e, e < 24 → e ≠ d → t.rd THM_STN_THR_REQ e = s.rd THM_STN_THR_REQ e) ∧
      (∀ e, e < 24 → t.rd THM_STN_THR_REQ e ≤ t.rd PWR_THROTTLE_HDL_REQ) ∧ t.tiles = s.tiles ∧ t.hbm = s.hbm) ∧
    (d < 24 → s.pwr.blind = [] → s.pwr.own.lookup (24 + d) = none → 10 * s.rd BWT_TIGHTEN_HDL_TRIP < ring → s.rst.powered = true → s.rd BWT_STATUS_SAFE = 0 →
      Yields (.sensorSample die (List.replicate n T) ring) s fun t => t.rd BWT_STATUS_SAFE = 1 ∧ t.rd BWT_TRIP_CAUSE = 5 ∧ t.rd BWT_TRIP_STATION = d ∧
        t.rd BWT_TRIP_VALUE = min 255 (ring / 10)) ∧
    (∀ k, k < 24 → d = 24 + k → Yields (.sensorSample die (List.replicate n T) ring) s fun t => t.rd TPL_THERM_TPL_TEMP k = c ∧ t.govT k = s.govT k ∧
      smGet (fun _ => 0) t.pwr.own d = T ∧ t.raised = s.raised) ∧
    (∀ k, k < 16 → d = 48 + k → s.pwr.blind = [] → Yields (.sensorSample die (List.replicate n T) ring) s fun t => t.rd SHG_STATUS_TEMP k = c ∧ t.rd THM_STN_GOV (24 + k) = c ∧
      t.govT (24 + k) = T ∧ t.raised = s.raised ∧
      (s.rd THM_STN_THR_REQ (24 + k) = 0 → t.rd THM_STN_THR_REQ (24 + k) = if 1010 ≤ T then 4 else if 980 ≤ T then 2 else if 950 ≤ T then 1 else 0) ∧
      t.rd SHG_STATUS_THR_REQ k = t.rd THM_STN_THR_REQ (24 + k)) ∧
    (d = 64 → s.pwr.blind = [] → s.rd THM_STN_THR_REQ 40 = 0 → Yields (.sensorSample die (List.replicate n T) ring) s fun t => t.rd THM_STN_GOV 40 = c ∧ t.govT 40 = T ∧
      t.rd THM_STN_THR_REQ 40 = (if 1040 ≤ T then 2 else if 1000 ≤ T then 1 else 0) ∧ t.rd PWR_THROTTLE_HRB_REQ = t.rd THM_STN_THR_REQ 40) ∧
    (d = 65 → smGet (fun _ => 0) s.pwr.own 65 < 700 → Yields (.sensorSample die (List.replicate n T) ring) s fun t => smGet (fun _ => 0) t.pwr.own 65 = T ∧ t.regs = s.regs ∧
      t.raised = s.raised ++ (if 700 ≤ T then [⟨0x23, 0x30, 16, none, 0, 0⟩] else [])))

/-- R442 to R445: the owner's request of Doldrums or Becalmed is refused with PERM while work runs; the entry puts stacks in self-refresh and loses tile state but
keeps HBM; the exit resumes; WAKE starts one. -/
def Says.LowPowerStates : Prop :=
  (∀ (m : Master) (s : State), s.mayConfigure m.val = true →
    (∀ i : Instr, i = .doldrumsRequest m ∨ i = .becalmedRequest m → s.busy = true ∨ s.armedLee = true → Yields i s fun t => t.rd PWR_CTRL_CODE = 5 ∧
      RegsBut [(PWR_CTRL_CODE, 0)] s t ∧ { t with regs := s.regs } = s) ∧
    (s.busy = false → s.armedLee = false →
      (s.rd PWR_STATE_STATE = 0 → Yields (.doldrumsRequest m) s fun t => t.rd PWR_CTRL_CODE = 0 ∧ t.rd PWR_STATE_STATE = 1 ∧ t.pwr.becalmed = false ∧
        RegsBut [(PWR_CTRL_CODE, 0), (PWR_STATE_STATE, 0)] s t ∧ { t with regs := s.regs, pwr := s.pwr } = s) ∧
      (s.rd PWR_STATE_STATE = 0 ∨ s.rd PWR_STATE_STATE = 2 → Yields (.becalmedRequest m) s fun t => t.rd PWR_CTRL_CODE = 0 ∧ t.rd PWR_STATE_STATE = 3 ∧ t.pwr.becalmed = true ∧
        RegsBut [(PWR_CTRL_CODE, 0), (PWR_STATE_STATE, 0)] s t ∧ { t with regs := s.regs, pwr := s.pwr } = s)) ∧
    (Yields (.wakeRequest m) s fun t => t.rd PWR_CTRL_CODE = 0 ∧ RegsBut [(PWR_CTRL_CODE, 0), (PWR_STATE_STATE, 0), (PWR_STATE_WAKE_CAUSE, 0)] s t ∧ { t with regs := s.regs } = s ∧
      (1 ≤ s.rd PWR_STATE_STATE → s.rd PWR_STATE_STATE ≤ 4 → t.rd PWR_STATE_STATE = 5 ∧ t.rd PWR_STATE_WAKE_CAUSE = 1) ∧
      (s.rd PWR_STATE_STATE = 0 ∨ 4 < s.rd PWR_STATE_STATE → t.rd PWR_STATE_STATE = s.rd PWR_STATE_STATE))) ∧
  (∀ (m : Master) (s : State), s.mayConfigure m.val = false → ∀ i : Instr, i = .doldrumsRequest m ∨ i = .becalmedRequest m ∨ i = .wakeRequest m →
    Yields i s fun t => t.rd PWR_STATE_STATE = s.rd PWR_STATE_STATE ∧ t.rd PWR_CTRL_CODE = s.rd PWR_CTRL_CODE ∧ (2 ≤ m.val → t = s) ∧
      (m.val < 2 → t.out = s.out ++ [.aer m.val 1] ∧ t.rd GLB_HOSTLOG_VALID = 1)) ∧
  (∀ s : State, (∀ d, d < 24 → s.rd TPL_MAINT_BUSY d = 0) → s.notes = [] → s.rd FAB_SQUALL_CTRL_EN = 0 →
    (∀ c d, c < 32 → (s.fry c).cur = some d → d.bursts = []) →
    let down := fun t : State => t.hbm = s.hbm ∧ t.pwr.asleep = true ∧ t.links = [] ∧ t.tide.swapReqs = [] ∧ t.tide.swapLatched = none ∧ (∀ k, k < 16 → t.rd SHG_STATUS_STATE k = if s.rd SHG_STATUS_STATE k = 3 then 4 else s.rd SHG_STATUS_STATE k) ∧
      (∀ (d : Fin 24) (n : Fin 256), (t.tile (tileKey d n)).store = [] ∧ (t.tile (tileKey d n)).ibuf = [] ∧ ∀ r, (t.tile (tileKey d n)).rdS r = 0) ∧
      (∀ q, q < 41 → (t.stn q).hasActive = false ∧ (t.stn q).bufA = [] ∧ t.rd STN_TIDE_VALID_A q = 0)
    (s.rd PWR_STATE_STATE = 1 → (∀ l ∈ s.links, l.die < 24) → Yields .lowPowerEntry s fun t => t.rd PWR_STATE_STATE = 2 ∧ down t ∧ t.pool = s.pool ∧
      (∀ d, d < 24 → t.rd TPL_STATUS_STATE d = 4) ∧ ∀ n, n < 26 → t.srcSt n = if s.srcSt n = 5 then 6 else s.srcSt n) ∧
    (s.rd PWR_STATE_STATE = 3 → (∀ l ∈ s.links, l.die < 24) → Yields .lowPowerEntry s fun t => t.rd PWR_STATE_STATE = 4 ∧ down t ∧ t.pool = [] ∧ (∀ d, d < 24 → t.rd TPL_STATUS_STATE d = 0) ∧
      t.rd HRN_PORTLIGHT_OPEN = 1023 ∧ (∀ p, p < 8 → t.rd FAB_PLANE_STATE p = if s.rd FAB_PLANE_STATE p = 3 then 3 else 0) ∧
      ∀ n, n < 26 → t.srcSt n = if s.srcSt n = 5 ∨ s.srcSt n = 6 ∨ s.srcSt n = 3 ∨ s.srcSt n = 4 then 2 else s.srcSt n)) ∧
  (∀ s : State, s.rd PWR_STATE_STATE = 5 →
    (s.pwr.asleep = false → Yields .lowPowerExit s fun t => t.rd PWR_STATE_STATE = 0 ∧ t.calmSince = s.wall ∧ RegsBut [(PWR_STATE_STATE, 0)] s t ∧
      { t with regs := s.regs, calmSince := s.calmSince } = s) ∧
    (s.pwr.asleep = true → s.pwr.becalmed = false → smWf regDefault s.regs = true → Yields .lowPowerExit s fun t => t.rd PWR_STATE_STATE = 0 ∧ t.pwr.asleep = false ∧ t.hbm = s.hbm ∧ t.tiles = s.tiles ∧
      t.regions = [] ∧ (∀ k, k < 16 → s.rd SHG_STATUS_STATE k = 4 → s.inReset (24 + k) = false → t.rd SHG_STATUS_STATE k = 3) ∧ (∀ n, n < 26 → s.srcSt n = 6 → t.srcSt n = 5) ∧
      (∀ d, d < 24 → s.inReset d = false → t.rd TPL_STATUS_STATE d = 3 ∨ t.rd TPL_STATUS_STATE d = 5)))

/-- The parts above, together.
The model's choices it rests on: log 42, 53, 54, 100, 108, 115. -/
def Obligations.PowerTemperatureAndLowPower : Prop := Says.PowerAndTemperature ∧ Says.LowPowerStates

/-- R15, R453, R528, Table 19-8, Table 23-9: an SMBus read returns its value, its byte count before a block and the packet error code after it when clocked; held in
reset, the values last measured; WAKE starts an exit; the entry pointer moves over the record.
The model's choices it rests on: log 52. -/
def Obligations.SmbusReads : Prop :=
  (∀ (pec : Bool) (s : State), s.rst.powered = true →
    let a := if s.rst.addrSel then 0xB2 else 0xB0
    let answers := fun (code : Nat) (body : List Byte) (t : State) =>
      t = { s with out := s.out ++ [.reply (body ++ if pec then leBytes 1 (pecOf (leBytes 1 a ++ leBytes 1 code ++ leBytes 1 (a + 1) ++ body)) else []) false] }
    let block := fun (bs : List Byte) => leBytes 1 bs.length ++ bs
    (s.rst.held = false →
      Yields (.statusWord pec) s (answers 0x00 (leBytes 2 (s.rd BWT_STATUS_SAFE + 2 * s.rd BWT_TRIP_PENDING + 4 * s.rd GLB_POST_HARBOUR + 8 * s.rd PWR_STATE_STATE +
        64 * s.rd PWR_THROTTLE_LEVEL + 512 * s.rd TID_STATUS_PWR_MODE))) ∧
      Yields (.busVoltageRead pec) s (answers 0x01 (leBytes 2 (s.rd PWR_IN_VOLTS))) ∧ Yields (.inputCurrentRead pec) s (answers 0x02 (leBytes 2 (s.rd PWR_IN_AMPS))) ∧
      Yields (.inputPowerRead pec) s (answers 0x03 (leBytes 2 (s.rd PWR_IN_WATTS))) ∧
      (∀ d, d < 24 → (∀ e, e < 24 → s.rd THM_STN_GOV e ≤ s.rd THM_STN_GOV d) → Yields (.headlandTemperatureRead pec) s (answers 0x04 (leBytes 2 (s.rd THM_STN_GOV d)))) ∧
      (∀ k, k < 16 → (∀ e, e < 16 → s.rd THM_STN_GOV (24 + e) ≤ s.rd THM_STN_GOV (24 + k)) → Yields (.stackTemperatureRead pec) s (answers 0x05 (leBytes 2 (s.rd THM_STN_GOV (24 + k))))) ∧
      Yields (.harbourTemperatureRead pec) s (answers 0x06 (leBytes 2 (s.rd THM_STN_GOV 40))) ∧
      Yields (.laserTemperatureRead pec) s (answers 0x07 (leBytes 2 (smGet (fun _ => 0) s.pwr.own 65 / 10))) ∧
      Yields (.stationTemperaturesRead pec) s (answers 0x10 (block ((List.range 41).map fun q => BitVec.ofNat 8 (s.rd THM_STN_GOV q)))) ∧
      Yields (.throttleRead pec) s (answers 0x11 (block (leBytes 8 (rfWord s.regs PWR_THROTTLE 0).toNat)))) ∧
    Yields (.moduleIdRead pec) s (answers 0x20 (block (leBytes 8 (rfWord s.regs GLB_MODULE_ID 0).toNat))) ∧
    (∀ bs, s.rst.held = true → smGet (fun _ => [0, 0]) s.rst.smbus 0x01 = bs → Yields (.busVoltageRead pec) s (answers 0x01 bs)) ∧
    Yields (.strandlineSummary pec) s (fun t => ∃ rest, rest.length = 30 ∧
      answers 0x80 (leBytes 1 32 ++ leBytes 1 (s.rd GLB_MODULE_ID_GRADE) ++ leBytes 1 (s.rd GLB_MODULE_ID_GRADE_PENDING) ++ rest) t) ∧
    (∀ seq : BitVec 32, Yields (.entryPointer seq) s (· = { s with stl := { s.stl with ptr := seq.toNat, sigPtr := 0 } })) ∧
    (∀ e, smGet (fun _ => []) s.stl.entries s.stl.ptr = e → e.length = 64 → Yields (.entryRead pec) s fun t => answers 0x82 (leBytes 1 64 ++ e) { t with stl := s.stl } ∧
      t.stl = { s.stl with ptr := s.stl.ptr + 1 }) ∧
    (∀ d, (s.stl.cur.drop (32 * s.stl.sigPtr)).take 32 = d → d.length = 32 → Yields (.signatureRead pec) s fun t => answers 0x83 (leBytes 1 32 ++ d) { t with stl := s.stl } ∧
      t.stl = { s.stl with sigPtr := s.stl.sigPtr + 1 })) ∧
  (∀ s : State, s.rst.powered = true → s.rst.held = false → 1 ≤ s.rd PWR_STATE_STATE → s.rd PWR_STATE_STATE ≤ 4 → Yields .smbusWake s fun t =>
    t.rd PWR_STATE_STATE = 5 ∧ t.rd PWR_STATE_WAKE_CAUSE = 6 ∧ RegsBut [(PWR_STATE_STATE, 0), (PWR_STATE_WAKE_CAUSE, 0)] s t ∧ { t with regs := s.regs } = s)

/-- R275, R276, R475 to R478, R483 to R485: a DIE reset of a Headland die loses its tile state and tables and keeps HBM; of a Shingle die puts its stack in
self-refresh; both are reported and marked; a die leaves reset 1 µs later at the earliest, unless held; a fuse mismatch keeps it in reset. When the reset cuts short a Tidepool
write, a note, a memory request or a KV update, what is undone is the meanings' own (the first clause is stated without them).
The model's choices it rests on: log 58. -/
def Obligations.DieResets : Prop :=
  (∀ (m : Master) (hold : Bool) (s : State), s.mayConfigure m.val = true →
    (∀ st : BitVec 8, stnQ st.toNat = none ∨ stnQ st.toNat = some 40 → Yields (.dieRequest m st hold []) s fun t => t.rd GLB_RESET_CODE = 9 ∧
      t.rd GLB_RESET_STATION = st.toNat ∧ RegsBut [(GLB_RESET_CODE, 0), (GLB_RESET_STATION, 0), (GLB_RESET_HOLD, 0)] s t ∧ { t with regs := s.regs } = s) ∧
    (∀ (st : BitVec 8) (q : Nat), stnQ st.toNat = some q → q < 40 →
      (s.rd PWR_STATE_STATE ≠ 0 → Yields (.dieRequest m st hold []) s fun t => t.rd GLB_RESET_CODE = 5 ∧
        RegsBut [(GLB_RESET_CODE, 0), (GLB_RESET_STATION, 0), (GLB_RESET_HOLD, 0)] s t ∧ { t with regs := s.regs } = s) ∧
      (s.rd PWR_STATE_STATE = 0 → s.inReset q = false → s.notes = [] → s.mreqs = [] → s.mwait = [] → s.hrbDone = [] → s.kvUndo = [] → (s.coupler q).undo = [] →
        Yields (.dieRequest m st hold []) s fun t => t.rd GLB_RESET_CODE = 0 ∧ t.inReset q = true ∧ (t.stn q).up = false ∧ (t.stn q).hasActive = false ∧
          smGet (fun _ => (0, false)) t.rst.dies q = (s.wall, hold) ∧ t.hbm = s.hbm ∧ t.pool = s.pool ∧
          t.raised = s.raised ++ [⟨if q < 24 then 0x0C else 0x45, stnId q, 0, none, 0, 0⟩] ∧
          (∀ p, p < 40 → p ≠ q → t.inReset p = s.inReset p) ∧ (∀ p, p < 41 → p ≠ q → t.stn p = s.stn p) ∧
          (∀ d : Fin 24, ∀ n : Fin 256, d.val = q → (t.tile (tileKey d n)).store = [] ∧ ∀ r, (t.tile (tileKey d n)).rdS r = 0) ∧
          (∀ d : Fin 24, ∀ n : Fin 256, d.val ≠ q → t.tile (tileKey d n) = s.tile (tileKey d n)) ∧
          (q < 24 → t.rd TPL_STATUS_STATE q = 4 ∧ t.rd TPL_STATUS_WIDTH q = 0 ∧ t.die q = Die.reset) ∧
          (24 ≤ q → t.rd SHG_STATUS_STATE (q - 24) = (if s.rd SHG_STATUS_STATE (q - 24) = 5 then 5 else 4) ∧ t.rd SHG_STATUS_SERVICE (q - 24) = 1 ∧ (t.shg (q - 24)).lost = true)) ∧
      (s.rd PWR_STATE_STATE = 0 → s.inReset q = true → Yields (.dieRequest m st hold []) s fun t => t.rd GLB_RESET_CODE = 0 ∧ t.tiles = s.tiles ∧ t.raised = s.raised ∧
        (smGet (fun _ => (0, false)) t.rst.dies q).2 = ((smGet (fun _ => (0, false)) s.rst.dies q).2 || hold))) ∧
    (Yields (.dieHoldClear m) s fun t => t.rd GLB_RESET_HOLD = 0 ∧ RegsBut [(GLB_RESET_HOLD, 0)] s t ∧ { t with regs := s.regs } = s)) ∧
  (∀ (m : Master) (s : State), 2 ≤ m.val → s.mayConfigure m.val = false → ∀ i : Instr, i = .dieHoldClear m ∨ (∃ st h, i = .dieRequest m st h []) ∨ (∃ k, i = .modRequest m k) → Yields i s (· = s)) ∧
  (∀ (q w : Nat) (h : Bool) (s : State), s.inReset q = true → smGet (fun _ => (0, false)) s.rst.dies q = (w, h) →
    let ready := w + 100 ≤ s.wall ∧ (h = false ∨ s.rd GLB_RESET_HOLD = 0) ∧ q ∉ s.pwr.coreOut ∧ q ∉ s.rst.bad
    let others := fun t : State => ∀ no inst, inst < 2 ^ 20 → dieReg q no inst = false → no ≠ GLB_DIERST → rfWord t.regs no inst = rfWord s.regs no inst
    (∀ (d : Fin 24) (fuses : Bool), d.val = q →
      (¬ready → Yields (.headlandDieRelease d fuses) s (· = s)) ∧
      (ready → fuses = true → Yields (.headlandDieRelease d fuses) s fun t => t.inReset q = false ∧ t.rd TPL_STATUS_STATE q = 1 ∧
        (t.die q).epoch = s.rd TID_EPOCH_EPOCH ∧ (t.die q).role = s.rd TID_ROLE_ROLE q ∧ (t.die q).slot = s.rd TID_ROLE_SLOT q ∧
        (q ∉ s.pwr.serOut → q ∉ s.pwr.hbmOut → (t.stn q).up = true) ∧ (t.stn q).opt = s.rd TID_STATUS_OPT_MODE ∧ others t ∧ t.tiles = s.tiles ∧ t.hbm = s.hbm) ∧
      (ready → fuses = false → Yields (.headlandDieRelease d fuses) s fun t => t.inReset q = true ∧ q ∈ t.rst.bad ∧ t.regs = s.regs ∧
        t.raised = s.raised ++ [⟨0x0C, q, 0, none, 0, 0⟩])) ∧
    (∀ k : Fin 16, 24 + k.val = q →
      (¬ready → Yields (.shingleDieRelease k) s (· = s)) ∧
      (ready → Yields (.shingleDieRelease k) s fun t => t.inReset q = false ∧ t.rd SHG_STATUS_STATE k.val = (if s.rd SHG_STATUS_STATE k.val = 5 then 5 else 3) ∧
        t.rd SHG_STATUS_SERVICE k.val = 1 ∧ t.shgs = s.shgs ∧ t.hbm = s.hbm ∧ others t)))

/-- R433, R476, R479 to R481, Table 21-4: a module reset latches its cause and loses everything but HBM, keys and flash; a power loss loses HBM too; power returns with
SMBus at the selected address; a PLL out of lock silences its station, a core PLL resets its die.
The model's choices it rests on: log 59, 100. -/
def Obligations.ModuleResets : Prop :=
  (∀ s : State, s.rst.powered = true → s.rst.held = false → smWf regDefault s.regs = true → smWf (fun _ => Shg.reset) s.shgs = true →
    let reset := fun (cause : Nat) (t : State) => t.rst.held = true ∧ t.rst.por = false ∧ t.rst.powered = true ∧ t.rd GLB_RESET_LAST_CAUSE = cause ∧ t.hbm = s.hbm ∧ t.hbmPoison = s.hbmPoison ∧
      t.tiles = [] ∧ t.pool = [] ∧ t.stns = [] ∧ t.notes = [] ∧ t.rings = [] ∧ t.frys = [] ∧ t.plans = [] ∧ t.smps = [] ∧ t.raised = [] ∧ t.stl.entries = s.stl.entries ∧
      (∀ k, k < 16 → (t.shg k).key = (s.shg k).key) ∧ t.rd GLB_POST_STATE = 0 ∧ t.rd GLB_DIERST_HDL = 0 ∧ (∀ i, i < 128 → t.rd RNG_STAT_STATE i = 0) ∧
      smGet (fun _ => [0, 0]) t.rst.smbus 0x01 = leBytes 2 (s.rd PWR_IN_VOLTS)
    Yields .moduleReset s (reset 1) ∧
    (∀ m : Master, s.mayConfigure m.val = true → Yields (.modRequest m 0x5A) s (reset (if m.val < 2 then 2 else 3)) ∧
      ∀ k, k ≠ 0x5A → Yields (.modRequest m k) s (· = s)) ∧
    (∀ q : Fin 41, q.val = 40 → Yields (.corePllUnlock q []) s (reset 4))) ∧
  (∀ s : State, s.rst.held = true → Yields .moduleReset s (· = s)) ∧
  (∀ s : State, s.rst.powered = true → Yields (.powerLoss false) s fun t => t.rst.powered = false ∧ t.rst.held = true ∧ t.rst.por = true ∧ t.hbm = [] ∧ t.hbmPoison = [] ∧
    t.tiles = [] ∧ t.shgs = [] ∧ t.rings = [] ∧ t.rst.smbus = [] ∧ (s.rd BWT_STATUS_SAFE = 1 → t.stl.entries = s.stl.entries) ∧
    (s.rd BWT_STATUS_SAFE = 0 → smWf regDefault s.regs = true → t.rd BWT_TRIP_CAUSE = 2 ∧ t.rd BWT_TRIP_PENDING = 1 ∧ t.rd BWT_TRIP_VALUE < 4800 ∧ t.stl.trips = s.stl.trips + 1)) ∧
  (∀ n (s : State), s.rst.powered = true → s.rd BWT_STATUS_SAFE = 1 → s.rd STL_STATUS_NEXT_SEQ = n + 1 → Yields (.powerLoss true) s fun t => t.rst.powered = false ∧ t.hbm = [] ∧
    (∀ e, e ≠ n → smGet (fun _ => []) t.stl.entries e = smGet (fun _ => []) s.stl.entries e) ∧ n ∈ t.stl.torn) ∧
  (∀ (sel : Bool) (s : State), (s.rst.powered = true → Yields (.powerOn sel) s (· = s)) ∧
    (s.rst.powered = false → Yields (.powerOn sel) s fun t => t.rst = { s.rst with powered := true, addrSel := sel } ∧ t.rd GLB_RESET_LAST_CAUSE = 0 ∧
      RegsBut [(GLB_RESET_LAST_CAUSE, 0)] s t ∧ { t with regs := s.regs, rst := s.rst } = s)) ∧
  (∀ (q : Fin 41) (s : State),
    (q.val < 40 → s.inReset q.val = true → q.val ∉ s.pwr.coreOut → Yields (.corePllUnlock q []) s fun t => q.val ∈ t.pwr.coreOut ∧ t.rd PWR_CLK_CORE_LOCK = 0 ∧
      t.rd PWR_CLK_UNLOCKS = min (s.rd PWR_CLK_UNLOCKS + 1) 65535 ∧ t.raised = s.raised ∧ t.tiles = s.tiles) ∧
    (q.val < 24 → s.inReset q.val = false → s.notes = [] → (s.coupler q.val).undo = [] → Yields (.corePllUnlock q []) s fun t => q.val ∈ t.pwr.coreOut ∧ t.rd PWR_CLK_CORE_LOCK = 0 ∧ t.inReset q.val = true ∧
      t.raised = s.raised ++ [⟨0x0C, q.val, 0, none, 0, 0⟩]) ∧
    (∀ hbm, Yields (.serializerPllUnlock q hbm) s fun t => (t.stn q.val).up = false ∧ (if hbm then t.rd PWR_CLK_HBM_LOCK else t.rd PWR_CLK_SER_LOCK) = 0 ∧
      t.rd PWR_CLK_UNLOCKS = min (s.rd PWR_CLK_UNLOCKS + 1) 65535 ∧ t.raised = s.raised ++ [⟨0x17, stnId q.val, if hbm then 1 else 0, none, 0, 0⟩] ∧
      RegsBut [(PWR_CLK_UNLOCKS, 0), (PWR_CLK_CORE_LOCK, 0), (PWR_CLK_SER_LOCK, 0), (PWR_CLK_HBM_LOCK, 0)] s t) ∧
    Yields (.pllRelock q) s fun t => q.val ∉ t.pwr.coreOut ∧ q.val ∉ t.pwr.serOut ∧ q.val ∉ t.pwr.hbmOut ∧
      ((∀ x ∈ s.pwr.coreOut, x = q.val) → t.rd PWR_CLK_CORE_LOCK = 1) ∧ ((∀ x ∈ s.pwr.serOut, x = q.val) → t.rd PWR_CLK_SER_LOCK = 1) ∧
      (s.inReset q.val = false → s.rd BWT_STATUS_SAFE = 0 → (t.stn q.val).up = true) ∧
      (s.inReset q.val = true → (t.stn q.val).up = (s.stn q.val).up) ∧ RegsBut [(PWR_CLK_CORE_LOCK, 0), (PWR_CLK_SER_LOCK, 0), (PWR_CLK_HBM_LOCK, 0)] s t)

/-- R418, R479, R487 to R493: at the release of a module reset the Boot ROM starts the supervisor of the first slot that verifies, self-test runs and ends in Harbour
mode, Neap, with HBM ready; in POR form HBM is zero under new keys; a stack that fails fails self-test; with no good slot the supervisor is dead.
The model's choices it rests on: log 50. -/
def Obligations.BootAndSelfTest : Prop :=
  ∀ (post : Post) (s : State), s.sec.wipe = none → s.sec.card = none →
    let booted := fun (x : Bool) (t : State) => t.rd GLB_FWSTAT_BOOT_SLOT = (if x then 1 else 0) ∧ t.rd GLB_FWSTAT_ACTIVE_SUP = 0 ∧ t.rd GLB_FWCORE_STATE 0 = 2 ∧
      t.rd GLB_FWCORE_STATE 1 = 1 ∧ t.rd GLB_SUPVER_VERSION = (s.slot x).version % 2 ^ 64 ∧
      (∀ b, b < (s.slot x).image.length → memGet t.fw.sram b = (s.slot x).image.getD b 0) ∧
      t.rd GLB_POST_HARBOUR = 1 ∧ t.rd GLB_POST_HBM_READY = 1 ∧ t.rd TID_STATUS_PWR_MODE = 1 ∧ (t.rd GLB_POST_STATE = 2 ∨ t.rd GLB_POST_STATE = 3) ∧
      (∀ k ∈ post.badStacks, t.rd SHG_STATUS_STATE k.val = 5 ∧ t.rd GLB_POST_STATE = 3 ∧ t.rd GLB_POST_ERR ≠ 0 ∧ t.rd GLB_POST_HOLD = 2) ∧
      (∀ k : Fin 16, k ∉ post.badStacks → t.rd SHG_STATUS_STATE k.val = 3) ∧
      ((∀ n, n < 66 → rfWord s.regs GLB_FUSE n = regDefault (regKey GLB_FUSE n)) → t.rd GLB_CAPS_ENABLED % 32 = 31)
    (s.rst.held = true → s.rst.powered = true → post.s0Bad = false →
      (∀ x, s.fw.bootSlot = x → (s.slot x).st ≠ 0 → ∀ b, Yields (.moduleResetRelease (!x || b) (x || b) post) s fun t => booted x t ∧ t.rst.held = false ∧ t.rd PWR_CLK_REF_OK = 1 ∧
        t.rd GLB_POST_FORM = (if s.rst.por then 0 else 1) ∧ (s.rst.por = false → t.hbm = s.hbm) ∧
        (s.rst.por = true → (∀ a, a < 2 ^ 41 → memGet t.hbm a = 0) ∧ ∀ k, k < 16 → (t.shg k).key = (s.shg k).key + 1)) ∧
      (∀ x, s.fw.bootSlot = !x → (s.slot x).st ≠ 0 → Yields (.moduleResetRelease (!x) x post) s fun t => booted x t ∧
        (if x then t.rd GLB_FWSTAT_A_BAD else t.rd GLB_FWSTAT_B_BAD) = 1) ∧
      (Yields (.moduleResetRelease false false post) s fun t => t.rst.held = false ∧ t.rd GLB_FWSTAT_A_BAD = 1 ∧ t.rd GLB_FWSTAT_B_BAD = 1 ∧ t.rd GLB_FWSTAT_SUP_DEAD = 1 ∧
        t.rd GLB_POST_ERR = 5 ∧ t.rd GLB_POST_STATE = 0 ∧ t.fw.phase = 4 ∧ t.hbm = s.hbm)) ∧
    (s.rst.held = false → s.fw.phase = 2 → ∀ x, s.fw.bootSlot = x → (s.slot x).st ≠ 0 → ∀ b,
      (s.rd GLB_POST_STATE ≠ 0 → Yields (.bootRom (!x || b) (x || b) post) s fun t => t.fw.phase = 3 ∧ t.rd GLB_FWSTAT_BOOT_SLOT = (if x then 1 else 0) ∧
        t.rd GLB_SUPVER_VERSION = (s.slot x).version % 2 ^ 64 ∧ t.hbm = s.hbm ∧ t.tiles = s.tiles ∧ t.plans = s.plans) ∧
      (s.rd GLB_POST_STATE = 0 → s.fw.s0Bad = false → Yields (.bootRom (!x || b) (x || b) post) s fun t => t.fw.phase = 0 ∧ booted x t))

/-- R419 to R429, Table 18-7: a core that stops is restarted; a runtime image that verifies is installed and starts the workers, one that does not is refused; a
supervisor that fails three times is dead; 500 ms into a restart running jobs are parked.
The model's choices it rests on: log 55. -/
def Obligations.FirmwareCores : Prop :=
  (∀ (c : Fin 8) (s : State),
    (c.val < 2 → c.val = s.supCore → s.fw.phase = 0 → s.rd GLB_RTLOAD_BUSY = 0 → s.rd SEC_UPD_STAGE ≠ 5 → ∀ x ∈ ([(.coreFatalStop c true, 2), (.coreFatalStop c false, 3)] : List (Instr × Nat)),
      Yields x.1 s fun t => t.rd GLB_FWCORE_STATE c.val = 3 ∧ t.rd GLB_FWCORE_LAST_CAUSE c.val = x.2 ∧ t.fw.phase = 1 ∧ smGet (fun _ => 0) t.fw.since c.val = s.wall ∧
        RegsBut [(GLB_FWCORE_STATE, c.val), (GLB_FWCORE_LAST_CAUSE, c.val)] s t ∧ t.hbm = s.hbm ∧ t.tiles = s.tiles) ∧
    (2 ≤ c.val → s.rd GLB_FWCORE_STATE c.val = 2 → ∀ x ∈ ([(.watchdogFire c, 1), (.coreFatalStop c true, 2), (.coreFatalStop c false, 3)] : List (Instr × Nat)),
      (x.2 = 1 → s.rd PWR_STATE_STATE ≠ 2 ∧ s.rd PWR_STATE_STATE ≠ 4) → Yields x.1 s fun t => t.rd GLB_FWCORE_STATE c.val = (if s.fw.phase = 0 then 3 else 5) ∧
        t.rd GLB_FWCORE_LAST_CAUSE c.val = x.2 ∧ smGet (fun _ => []) t.fw.stops c.val = s.wall :: smGet (fun _ => []) s.fw.stops c.val ∧
        RegsBut [(GLB_FWCORE_STATE, c.val), (GLB_FWCORE_LAST_CAUSE, c.val)] s t ∧ { t with regs := s.regs, fw := s.fw } = s) ∧
    (s.rd PWR_STATE_STATE = 4 → Yields (.watchdogFire c) s (· = s))) ∧
  (∀ (m : Master) (s : State), s.mayConfigure m.val = true →
    (s.rd GLB_RTLOAD_BUSY = 1 → Yields (.runtimeLoad m) s (· = s)) ∧
    (s.rd GLB_RTLOAD_BUSY = 0 → Yields (.runtimeLoad m) s fun t => t.rd GLB_RTLOAD_BUSY = 1 ∧ t.fw = { s.fw with rtAddr := s.rd GLB_RTLOAD_ADDR_ADDR } ∧
      RegsBut [(GLB_RTLOAD_BUSY, 0)] s t ∧ { t with regs := s.regs, fw := s.fw } = s)) ∧
  (∀ (c : Crypto) (s : State), s.rd GLB_RTLOAD_BUSY = 1 → s.supUp = true →
    let pa := s.fw.rtAddr
    let h := memBytes s.hbm pa 128
    (pa % 4096 ≠ 0 → Yields (.runtimeLoadComplete c) s fun t => t.rd GLB_RTLOAD_BUSY = 0 ∧ t.rd GLB_RTLOAD_CODE = 4 ∧ t.fw = s.fw) ∧
    (pa % 4096 = 0 → s.hbmReady pa 128 → s.hbmReady pa (contSize h) → fieldAt h 0 4 = 1 → contLen h ≤ 0x100000 →
      (∀ k, s.contCheck h c 2 = k → k ≠ 0 → k ≠ 3 → Yields (.runtimeLoadComplete c) s fun t => t.rd GLB_RTLOAD_BUSY = 0 ∧ t.rd GLB_RTLOAD_CODE = 9 ∧ t.rd SEC_UPD_CHECK = k ∧ t.fw = s.fw) ∧
      (s.contCheck h c 2 = 0 → s.rd GLB_FWSTAT_RT_LOADED = 0 → s.workHeld = true → Yields (.runtimeLoadComplete c) s fun t => t.rd GLB_RTLOAD_CODE = 5 ∧ t.fw = s.fw) ∧
      (s.contCheck h c 2 = 0 → s.rd GLB_FWSTAT_RT_LOADED = 0 → s.workHeld = false → Yields (.runtimeLoadComplete c) s fun t => t.rd GLB_RTLOAD_BUSY = 0 ∧ t.rd GLB_RTLOAD_CODE = 0 ∧
        t.rd SEC_UPD_CHECK = 0 ∧ t.rd GLB_FWSTAT_RT_LOADED = 1 ∧ t.rd GLB_RTLOAD_SAME = 0 ∧ t.rd GLB_RTVER_VERSION = contVersion h ∧ t.fw.rtPlain = contPlain h ∧
        (∀ n, 2 ≤ n → n < 8 → t.rd GLB_FWCORE_STATE n = 2 ∧ t.rd GLB_FWCORE_WDT_MS n = 1000) ∧
        (∀ b, memGet t.fw.sram b = if 0x100000 ≤ b ∧ b < 0x100000 + c.plain.length then c.plain.getD (b - 0x100000) 0 else memGet s.fw.sram b) ∧ t.hbm = s.hbm))) ∧
  (∀ (c : Nat) (s : State), 2 ≤ c → c < 8 → s.supUp = true → s.rd GLB_FWCORE_STATE c = 3 → (∀ d, 2 ≤ d → d < c → s.rd GLB_FWCORE_STATE d ≠ 3) →
    (Yields (.workerRestart false) s fun t => t.rd GLB_FWCORE_STATE c = 4 ∧ t.raised = s.raised ++ [⟨0x61, 0x30, c, none, 0, 0⟩]) ∧
    (smGet (fun _ => []) s.fw.stops c = [] → Yields (.workerRestart true) s fun t => t.rd GLB_FWCORE_STATE c = 2 ∧ t.rd GLB_FWCORE_WDT_MS c = 1000 ∧
      t.rd GLB_FWCORE_RESTARTS c = min (s.rd GLB_FWCORE_RESTARTS c + 1) 65535 ∧ t.rd GLB_FWCORE_LAST_MS c = min 65535 ((s.wall - smGet (fun _ => 0) s.fw.since c) / 100000) ∧
      t.raised = s.raised ++ [⟨0x60, 0x30, c, none, 0, 0⟩] ∧ ∀ k, k < 8 → 16 + 8 * (c - 2) + k ∈ t.fw.opened)) ∧
  (∀ (w : Fin 6) (i : Fin 128) (s : State), s.rd GLB_FWCORE_STATE (2 + w.val) = 2 → workerOf i.val = 2 + w.val → (∀ k, k < 128 → (s.ring k).taken = []) →
    (∀ k, k < 128 → k ≠ i.val → s.rd RNG_IDX_SQ_TAIL k = s.rd RNG_IDX_SQ_HEAD k) → s.rd RNG_IDX_SQ_TAIL i.val = s.rd RNG_IDX_SQ_HEAD i.val + 1 →
    Yields (.workerCatchUp w) s fun t => exec (.submissionTake i) s = .next t) ∧
  (∀ s : State,
    (s.fw.phase = 1 → (s.fw.supFails.filter fun w => decide (s.wall < w + 1000000000)).length < 3 → Yields .supervisorRestart s fun t => t.fw.phase = 2 ∧
      t.raised = s.raised ++ [⟨0x62, 0x30, s.supCore, none, 0, 0⟩] ∧ t.rd GLB_FWSTAT_SUP_DEAD = s.rd GLB_FWSTAT_SUP_DEAD) ∧
    (s.fw.phase = 1 → 3 ≤ (s.fw.supFails.filter fun w => decide (s.wall < w + 1000000000)).length → Yields .supervisorRestart s fun t => t.fw.phase = 4 ∧
      t.rd GLB_FWSTAT_SUP_DEAD = 1 ∧ t.rd GLB_POST_ERR = 5 ∧ t.rd GLB_FWCORE_STATE s.supCore = 4) ∧
    (s.fw.phase = 3 → s.plans = [] → s.rd TWN_STATUS_STATE ≠ 6 → s.stl.waiting = [] → Yields .supervisorRestartComplete s fun t => t.fw.phase = 0 ∧ t.fw.supFails = [] ∧
      t.rd GLB_FWCORE_STATE s.supCore = 2 ∧ t.rd GLB_FWCORE_RESTARTS s.supCore = min (s.rd GLB_FWCORE_RESTARTS s.supCore + 1) 65535 ∧ t.rd GLB_FWSTAT_PARKED = 0 ∧
      t.tide.parked = false ∧ (∀ n, 2 ≤ n → n < 8 → t.rd GLB_FWCORE_STATE n = if s.rd GLB_FWCORE_STATE n = 5 then 3 else s.rd GLB_FWCORE_STATE n)) ∧
    (s.fw.phase ≠ 0 → s.rd GLB_FWSTAT_PARKED = 0 → s.plans ≠ [] → smGet (fun _ => 0) s.fw.since s.supCore + 50000000 ≤ s.wall → Yields .jobPark s fun t =>
      t.rd GLB_FWSTAT_PARKED = 1 ∧ t.tide.parked = true ∧ t.raised = s.raised ++ [⟨0x63, 0x30, 0, none, 0, 0⟩] ∧ RegsBut [(GLB_FWSTAT_PARKED, 0)] s t ∧ t.plans = s.plans))

/-- R512, R515, R517, R518, R522 to R527, R529 to R531: a report is signed over the nonce at its address and written there; seals chain the Strandline record;
an update stages a verified image in the inactive slot, is confirmed or rolled back; a handover wipe puts every stack under a new key and zero, then resets.
The model's choices it rests on: log 6, 78, 110. -/
def Obligations.SecurityServices : Prop :=
  (∀ (m : Master) (s : State), s.mayConfigure m.val = true →
    (∀ addr : BitVec 41, (s.rd SEC_ATTEST_BUSY = 1 → Yields (.attestRequest m addr) s (· = s)) ∧
      (s.rd SEC_ATTEST_BUSY = 0 → reportAt addr.toNat = false → Yields (.attestRequest m addr) s fun t => t.rd SEC_ATTEST_CODE = 4 ∧ t.rd SEC_ATTEST_ADDR = addr.toNat ∧
        RegsBut [(SEC_ATTEST_CODE, 0), (SEC_ATTEST_ADDR, 0)] s t ∧ { t with regs := s.regs } = s) ∧
      (s.rd SEC_ATTEST_BUSY = 0 → reportAt addr.toNat = true → s.hbmReady addr.toNat 32 → Yields (.attestRequest m addr) s fun t => t.rd SEC_ATTEST_BUSY = 1 ∧
        t.sec = { s.sec with engine := s.sec.engine ++ [.report (memBytes s.hbm addr.toNat 32) addr.toNat false] } ∧
        RegsBut [(SEC_ATTEST_BUSY, 0), (SEC_ATTEST_ADDR, 0)] s t ∧ { t with regs := s.regs, sec := s.sec } = s)) ∧
    (s.supUp = true → 0 < s.stl.seals → s.powerS < s.stl.lastSeal + 60 → Yields (.stlSeal m) s fun t => t.rd STL_SEAL_CODE = 5 ∧ RegsBut [(STL_SEAL_CODE, 0)] s t ∧
      { t with regs := s.regs } = s) ∧
    (∀ c : Crypto, s.updateBusy = true → Yields (.updateRequest m c) s fun t => t.rd SEC_UPD_CODE = 5 ∧ RegsBut [(SEC_UPD_CODE, 0)] s t ∧ { t with regs := s.regs } = s) ∧
    (∀ c : Crypto, s.updateBusy = false → s.rd GLB_FWSTAT_SUP_DEAD = 0 → s.supUp = true →
      let pa := s.rd SEC_UPD_ADDR_ADDR
      let h := memBytes s.hbm pa 128
      let b := !s.fw.bootSlot
      pa % 4096 = 0 → s.hbmReady pa 128 → s.hbmReady pa (contSize h) → fieldAt h 0 4 = 1 → contLen h ≤ 0x100000 →
      (s.contCheck h c 1 = 0 → Yields (.updateRequest m c) s fun t => t.rd SEC_UPD_STAGE = 3 ∧ t.rd SEC_UPD_BUSY = 1 ∧ t.rd SEC_UPD_CODE = 0 ∧ t.rd SEC_UPD_CHECK = 0 ∧
        t.rd SEC_UPD_SLOT = (if b then 1 else 0) ∧ t.rd SEC_UPD_SOURCE = 0 ∧ t.slot b = ⟨2, contVersion h, contSvn h, contPlain h, c.plain⟩ ∧ t.slot (!b) = s.slot (!b) ∧
        (∀ a, memGet t.fw.sram a = if 0x200000 ≤ a ∧ a < 0x200000 + c.plain.length then c.plain.getD (a - 0x200000) 0 else memGet s.fw.sram a) ∧ t.hbm = s.hbm) ∧
      (∀ k, s.contCheck h c 1 = k → k ≠ 0 → Yields (.updateRequest m c) s fun t => t.rd SEC_UPD_STAGE = 0 ∧ t.rd SEC_UPD_BUSY = 0 ∧ t.rd SEC_UPD_CODE = 9 ∧ t.rd SEC_UPD_CHECK = k ∧
        t.sec = s.sec ∧ t.fw = s.fw)) ∧
    (∀ k : BitVec 8, k ≠ 0xA5 ∨ s.rd SEC_WIPE_BUSY = 1 → Yields (.wipeRequest m k) s (· = s)) ∧
    (s.rd SEC_WIPE_BUSY = 0 → s.wipeRefused = true → Yields (.wipeRequest m 0xA5) s fun t => t.rd SEC_WIPE_CODE = 5 ∧ RegsBut [(SEC_WIPE_CODE, 0)] s t ∧
      { t with regs := s.regs } = s) ∧
    (s.rd SEC_WIPE_BUSY = 0 → s.wipeRefused = false → reportAt (s.rd SEC_WIPE_ADDR_ADDR) = true → s.hbmReady (s.rd SEC_WIPE_ADDR_ADDR) 32 →
      Yields (.wipeRequest m 0xA5) s fun t => t.rd SEC_STATUS_WIPING = 1 ∧ t.rd SEC_STATUS_WIPE_PENDING = 1 ∧ t.rd SEC_WIPE_BUSY = 1 ∧ t.rd SEC_WIPE_CODE = 0 ∧
        t.sec.wipe = some (memBytes s.hbm (s.rd SEC_WIPE_ADDR_ADDR) 32, s.rd SEC_WIPE_ADDR_ADDR, false) ∧ t.sec.wiped = false ∧ t.hbm = s.hbm ∧
        RegsBut [(SEC_STATUS_WIPING, 0), (SEC_STATUS_WIPE_PENDING, 0), (SEC_WIPE_BUSY, 0), (SEC_WIPE_CODE, 0)] s t)) ∧
  (∀ (m : Master) (s : State), 2 < m.val → ∀ i : Instr, (∃ a, i = .attestRequest m a) ∨ i = .stlSeal m ∨ (∃ c, i = .updateRequest m c) ∨ (∃ k, i = .wipeRequest m k) → Yields i s (· = s)) ∧
  (∀ s : State, s.supUp = true →
    let sealed := fun t : State => t.stl.seals = s.stl.seals + 1 ∧ t.stl.lastSeal = s.powerS ∧ t.stl.next = t.rd STL_STATUS_NEXT_SEQ ∧ s.rd STL_STATUS_NEXT_SEQ + 2 ≤ t.stl.next ∧
        ((smGet (fun _ => []) t.stl.entries (t.stl.next - 1)).drop 16).take 1 = leBytes 1 1 ∧ t.rd STL_STATUS_SEALING = 1 ∧
        t.sec = { s.sec with engine := s.sec.engine ++ [.seal (t.stl.next - 1) t.stl.chain] } ∧ t.hbm = s.hbm ∧
        (∀ q, q < s.rd STL_STATUS_NEXT_SEQ → smGet (fun _ => []) t.stl.entries q = smGet (fun _ => []) s.stl.entries q)
    (∀ nonce pa rest, s.sec.engine = .report nonce pa false :: rest → s.hbmReady pa (s.report nonce).length → Yields .attestComplete s fun t => HbmPut pa (s.report nonce) s t ∧
      t.sec = { s.sec with engine := rest } ∧ t.rd SEC_ATTEST_BUSY = 0 ∧ t.rd SEC_ATTEST_CODE = 0 ∧ RegsBut [(SEC_ATTEST_BUSY, 0), (SEC_ATTEST_CODE, 0)] s t) ∧
    (∀ nonce pa rest c, s.sec.engine = .report nonce pa true :: rest → s.sec.card = some c → Yields .attestComplete s fun t => t.out = s.out ++ [.card 2 (s.report nonce), .card 0 [3, 0]] ∧
      t.sec = { s.sec with engine := rest } ∧ t.hbm = s.hbm ∧ RegsBut [(SEC_CARD_CODE, 0)] s t) ∧
    (28 ≤ s.rd STL_STATUS_FREE → s.rd STL_STATUS_NEXT_SEQ + 28 < 2 ^ 32 →
      (s.stl.lastSeal + 86400 ≤ s.powerS → Yields .seal s sealed) ∧
      (∀ m : Master, s.mayConfigure m.val = true → s.stl.seals = 0 ∨ s.stl.lastSeal + 60 ≤ s.powerS → Yields (.stlSeal m) s fun t => sealed t ∧ t.rd STL_SEAL_CODE = 0)) ∧
    (s.powerS < s.stl.lastSeal + 86400 → Yields .seal s (· = s)) ∧
    (∀ seq chain rest, s.sec.engine = .seal seq chain :: rest → Yields .sealSignatureDone s fun t =>
      t.stl = { s.stl with old := s.stl.cur, cur := leBytes 8 seq ++ chain ++ sign (leBytes 8 (s.rd GLB_MODULE_ID_SERIAL) ++ leBytes 8 seq ++ chain) } ∧
      t.sec = { s.sec with engine := rest } ∧ (rest = [] → t.rd STL_STATUS_SEALING = 0) ∧ RegsBut [(STL_STATUS_SEALING, 0)] s t) ∧
    (s.rd SEC_UPD_STAGE = 3 → Yields .updateReady s fun t => t.rd SEC_UPD_STAGE = 4 ∧ t.rd SEC_UPD_BUSY = 1 ∧ t.sec = { s.sec with handover := true }) ∧
    (s.rd SEC_UPD_STAGE = 5 →
      let b := s.rd SEC_UPD_SLOT = 1
      let c := s.rd GLB_FWSTAT_ACTIVE_SUP
      (s.wall < s.sec.deadline → Yields .updateConfirm s fun t => t.rd SEC_UPD_STAGE = 6 ∧ t.rd SEC_UPD_BUSY = 0 ∧ t.rd SEC_UPD_DEADLINE_S = 0 ∧ t.fw.bootSlot = decide b ∧
        t.slot (decide b) = { s.slot (decide b) with st := 1 } ∧ t.slot (!decide b) = s.slot (!decide b) ∧ t.rd SEC_STATUS_MIN_SVN_SUP = (s.slot (decide b)).svn % 65536 ∧
        t.rd GLB_FWCORE_STATE (1 - c) = 1 ∧ t.stl.updates = s.stl.updates + 1) ∧
      (s.sec.deadline ≤ s.wall → Yields .updateConfirm s (· = s) ∧ Yields .updateRollback s fun t => t.rd SEC_UPD_STAGE = 7 ∧ t.rd SEC_UPD_BUSY = 0 ∧
        t.rd GLB_FWSTAT_ACTIVE_SUP = 1 - c ∧ t.rd GLB_FWSTAT_BOOT_SLOT = (if b then 0 else 1) ∧ t.rd GLB_FWCORE_STATE (1 - c) = 2 ∧ t.rd GLB_FWCORE_STATE c = 1 ∧
        t.rd GLB_SUPVER_VERSION = (s.slot (!decide b)).version % 2 ^ 64 ∧ (t.slot (decide b)).st = 3 ∧ t.slot (!decide b) = s.slot (!decide b))) ∧
    (∀ nonce pa card, s.sec.wipe = some (nonce, pa, card) → s.rd SEC_STATUS_WIPING = 1 → s.sec.wiped = false → s.sec.engine = [] → s.sec.stacksDone = false → s.rst.powered = true →
      s.rst.held = false → smWf (fun _ => Shg.reset) s.shgs = true → smWf regDefault s.regs = true → Yields .handoverWipe s fun t => (∀ a, a < 2 ^ 41 → memGet t.hbm a = 0) ∧
        (∀ k, k < 16 → (t.shg k).key = (s.shg k).key + 1) ∧ t.sec.userKey = s.sec.userKey + 1 ∧ t.sec.wiped = true ∧ t.sec.wipe = s.sec.wipe ∧ t.rst.held = true ∧
        t.rd GLB_RESET_LAST_CAUSE = 3 ∧ t.sec.wipeAtt.take 4 = leBytes 4 2 ∧
        (t.sec.wipeAtt.drop 32).take nonce.length = nonce))

/-- R516, R519 to R521, Table 23-7: a card's scripts run in Harbour mode once their container verifies: a register is read or written, a report or wipe asked for, the
record dumped, a wait kept, a module reset requested; each command's outcome goes to the card and to CODE; removal stops everything.
The model's choices it rests on: log 6, 78. -/
def Obligations.ServiceCard : Prop :=
  (∀ (cid : Nat) (x : CardFile) (s : State), s.rst.held = false →
    (s.rd SEC_CARD_CARD_EN = 0 → Yields (.cardInsertion cid none [x]) s fun t => t.rd SEC_CARD_PRESENT = 1 ∧ RegsBut [(SEC_CARD_PRESENT, 0)] s t ∧
      t.sec = { s.sec with card := some ⟨cid, none, [x]⟩, lastCid := cid, scriptsDone := 0, script := [] }) ∧
    (s.rd SEC_CARD_CARD_EN = 1 → s.rd GLB_POST_HARBOUR = 1 → s.supUp = true →
      (s.contCheck (x.bytes.take 128) x.crypto 3 = 0 → Yields (.cardInsertion cid none [x]) s fun t => t.rd SEC_CARD_SCRIPT_RUN = 1 ∧ t.rd SEC_UPD_CHECK = 0 ∧
        t.sec.script = x.crypto.plain ∧ t.sec.waitTo = 0 ∧ t.out = s.out) ∧
      (∀ k, s.contCheck (x.bytes.take 128) x.crypto 3 = k → k ≠ 0 → Yields (.cardInsertion cid none [x]) s fun t => t.rd SEC_CARD_SCRIPT_RUN = s.rd SEC_CARD_SCRIPT_RUN ∧ t.rd SEC_UPD_CHECK = k ∧
        t.sec.script = [] ∧ t.sec.scriptsDone = 1 ∧ t.rd SEC_CARD_CODE = 9 ∧ t.out = s.out ++ [.card 0 [0xFF, 9]]))) ∧
  (∀ (cid : Nat) (s : State), s.rst.held = true → Yields (.cardInsertion cid none []) s fun t => t.sec.card = some ⟨cid, none, []⟩ ∧ { t with sec := s.sec } = s) ∧
  (∀ (copying : Bool) (s : State), Yields (.cardRemoval copying) s fun t => t.rd SEC_CARD_PRESENT = 0 ∧ t.rd SEC_CARD_SCRIPT_RUN = 0 ∧
    t.sec = { s.sec with card := none, script := [] } ∧ (copying = true → t.rd SEC_CARD_CODE = 7)) ∧
  (∀ (s : State) (rest : List Byte), s.scriptReady = true →
    let next := fun (op code : Nat) (data : List Byte) (t : State) => t.out = s.out ++ [.card 0 (leBytes 1 op ++ leBytes 1 code ++ data)] ∧ t.rd SEC_CARD_CODE = code
    (∀ a, a < 2 ^ 32 → s.sec.script = leBytes 4 1 ++ leBytes 4 a ++ leBytes 8 0 ++ rest →
      (a % 8 = 0 → Yields .scriptRead s fun t => next 1 0 (leBytes 8 (s.bar0Word a)) t ∧ t.sec = { s.sec with script := rest }) ∧
      (a % 8 ≠ 0 → Yields .scriptRead s fun t => next 1 4 [] t ∧ t.sec = { s.sec with script := rest } ∧ RegsBut [(SEC_CARD_CODE, 0)] s t)) ∧
    (∀ a d, a < 2 ^ 32 → d < 2 ^ 64 → s.sec.script = leBytes 4 2 ++ leBytes 4 a ++ leBytes 8 d ++ rest →
      (s.rd GLB_HOSTCFG_OWNER_VALID = 1 → Yields .scriptWrite s fun t => next 2 5 [] t ∧ RegsBut [(SEC_CARD_CODE, 0)] s t ∧ t.sec = { s.sec with script := rest }) ∧
      (s.rd GLB_HOSTCFG_OWNER_VALID = 0 → a = 0x209018 → s.rd SMP_CFG_ENABLE 0 = 0 → Yields .scriptWrite s fun t => next 2 0 [] t ∧ t.rd SMP_SEED_SEED 0 = d ∧
        RegsBut [(SEC_CARD_CODE, 0), (SMP_SEED_SEED, 0)] s t ∧ t.sec = { s.sec with script := rest })) ∧
    (∀ c : List Byte, s.sec.script = c ++ rest → c.length = 16 →
      let nonce := c.drop 1 ++ leBytes 17 0
      (c.take 1 = [3] → Yields .scriptAttest s fun t => t.sec = { s.sec with script := rest, engine := s.sec.engine ++ [.report nonce 0 true] } ∧ { t with sec := s.sec } = s) ∧
      (c.take 1 = [4] → s.wipeRefused = true → Yields .scriptWipe s fun t => next 4 5 [] t ∧ t.sec = { s.sec with script := rest } ∧ t.hbm = s.hbm) ∧
      (c.take 1 = [4] → s.wipeRefused = false → Yields .scriptWipe s fun t => next 4 0 [] t ∧ t.rd SEC_STATUS_WIPING = 1 ∧ t.rd SEC_STATUS_WIPE_PENDING = 1 ∧
        t.sec.wipe = some (nonce, 0, true) ∧ t.hbm = s.hbm) ∧
      (c.take 1 = [5] → Yields .stldump s fun t => t.out = s.out ++ [.card 3 (((List.range (s.rd STL_STATUS_NEXT_SEQ)).flatMap fun q => smGet (fun _ => []) s.stl.entries q) ++
          s.stl.cur ++ s.stl.old), .card 0 [5, 0]] ∧ t.stl = s.stl ∧ t.sec = { s.sec with script := rest }) ∧
      (c.take 1 = [6] → Yields .scriptWait s fun t => next 6 0 [] t ∧ t.sec = { s.sec with script := rest, waitTo := s.wall + 100000 * leNat ((c.drop 1).take 4) }) ∧
      (c.take 1 = [7] → s.rst.powered = true → s.rst.held = false → smWf regDefault s.regs = true → Yields .modreset s fun t => t.rst.held = true ∧ t.sec.script = [] ∧
        t.sec.scriptsDone = s.sec.scriptsDone + 1 ∧ t.rd GLB_RESET_LAST_CAUSE = 3 ∧ t.hbm = s.hbm ∧ t.out = s.out ++ [.card 0 [7, 0]])) ∧
    (s.sec.card = none → (s.sec.script.take 1 = [0] ∨ s.sec.script = []) → Yields .scriptEnd s fun t => t.rd SEC_CARD_SCRIPT_RUN = 0 ∧ t.sec = { s.sec with script := [], scriptsDone := s.sec.scriptsDone + 1 } ∧
      RegsBut [(SEC_CARD_SCRIPT_RUN, 0)] s t ∧ t.out = s.out) ∧
    (∀ op, s.sec.card = none → 7 < op → op < 256 → s.sec.script = leBytes 16 op ++ rest → Yields .scriptEnd s fun t => t.rd SEC_CARD_SCRIPT_RUN = 0 ∧ t.sec.script = [] ∧
      t.rd SEC_CARD_CODE = 9 ∧ t.out = s.out ++ [.card 0 [BitVec.ofNat 8 op, 9]]))

/-- R495 to R497, R500 to R504, R510, Table 22-1, Table 22-3, Table 22-4: twin frames. One with a bad CRC or another PAIR_ID is discarded; heartbeats pair the modules;
acknowledgements move ACKSEQ; a lee applies deltas in DSEQ order and acknowledges them; silence or a TRIP declares the peer failed. A dark port carries nothing.
The model's choices it rests on: log 45, 75, 76. -/
def Obligations.TwinLink : Prop :=
  (∀ (h : TwinHdr) (s : State) (i : Instr), s.rd TWN_STATUS_STATE = 0 ∨ h.good = false ∨ h.pairId.toNat ≠ s.rd TWN_CTRL_PAIR_ID ∨ s.rd BWT_STATUS_SAFE = 1 ∨
      s.twinDark h.port.val = true →
    (∃ w r, i = .heartbeat h w r) ∨ (∃ x, i = .delta h x ∨ i = .bulk h x ∨ i = .control h x) ∨ i = .ack h ∨ i = .trip h ∨ (∃ w r a b, i = .health h w r a b) → Yields i s (· = s)) ∧
  (∀ (h : TwinHdr) (s : State), s.rd TWN_STATUS_STATE ≠ 0 → h.good = true → h.pairId.toNat = s.rd TWN_CTRL_PAIR_ID → s.rd BWT_STATUS_SAFE = 0 →
    s.twinDark h.port.val = false → s.twn.gates = [] → s.twn.rewrite = [] →
    let st := s.rd TWN_STATUS_STATE
    let p := h.port.val
    let heard := fun t : State => smGet (fun _ => 0) t.twn.rxWall p = s.wall ∧ (t.rd TWN_STATUS_PORTS_UP).testBit p = true
    (Yields (.ack h) s fun t => heard t ∧ t.twn.peerState = h.state.toNat ∧ RegsBut [(TWN_STATUS_PORTS_UP, 0), (TWN_STATUS_ACKSEQ, 0)] s t ∧
      (st ≠ 2 → st ≠ 5 → t.rd TWN_STATUS_ACKSEQ = s.rd TWN_STATUS_ACKSEQ ∧ t.twn.unacked = s.twn.unacked) ∧
      (st = 2 ∨ st = 5 → s.twn.paired = true → s.twn.bulked = true → ackCovers h.ackSeq.toNat (s.rd TWN_STATUS_ACKSEQ) = true → ackCovers s.twn.next h.ackSeq.toNat = true →
        t.rd TWN_STATUS_ACKSEQ = h.ackSeq.toNat ∧ t.twn.unacked = s.twn.unacked.filter fun u => !ackCovers h.ackSeq.toNat (u.dseq + 1))) ∧
    (∀ w : BitVec 2, st = 1 → h.state = 1 → s.twn.paired = false → 1 - p ∈ s.twn.heard → s.plans = [] → w.toNat + s.rd TWN_CTRL_WANT = 3 → w ≠ 0 → w ≠ 3 →
      Yields (.heartbeat h w true) s fun t => heard t ∧ t.twn.paired = true ∧ t.rd TWN_STATUS_STATE = (if w = 2 then 5 else 3) ∧ t.rd TWN_STATUS_ACKSEQ = 0 ∧ t.twn.next = 0 ∧
        t.twn.expect = 0 ∧ smGet (fun _ => 0) t.twn.hbWall p = s.wall ∧ t.twn.declared = false) ∧
    (∀ w : BitVec 2, st = 1 → s.twn.paired = false → 1 - p ∉ s.twn.heard → Yields (.heartbeat h w true) s fun t => heard t ∧ t.rd TWN_STATUS_STATE = 1 ∧ p ∈ t.twn.heard ∧
      t.twn.peerWant = w.toNat) ∧
    (st = 2 → s.twn.paired = true → Yields (.trip h) s fun t => t.rd TWN_STATUS_PEER_TRIP = 1 ∧ t.rd TWN_STATUS_STATE = 5 ∧ t.twn.paired = false ∧ t.twn.declared = true ∧
      t.raised = s.raised ++ [⟨0x83, 0x30, p, none, 0, 0⟩]) ∧
    (∀ worst row hbm tpl, st = 2 ∨ st = 5 → Yields (.health h worst row hbm tpl) s fun t => t.rd TWN_PEER_WORST = worst.toNat ∧ t.rd TWN_PEER_BIST_ROW = row.val ∧
      t.rd TWN_PEER_HBM_SCRUB = hbm.toNat ∧ t.rd TWN_PEER_TPL_SCRUB = tpl.toNat ∧ t.rd TWN_PEER_AGE_MS = 0 ∧ t.twn.healthWall = s.wall ∧
      t.raised = s.raised ++ (if 2 ≤ worst.toNat then [⟨0x87, 0x30, 1, none, 0, 0⟩] else [])) ∧
    (∀ n q, st = 4 → Yields (.control h (.acked n q)) s fun t => smGet (fun _ => []) t.twn.replay n.val = (smGet (fun _ => []) s.twn.replay n.val).filter (fun x => decide (q ≤ x.1)) ∧
      RegsBut [(TWN_STATUS_PORTS_UP, 0)] s t) ∧
    (st = 4 → s.rd TWN_STATUS_ARMED = 1 → Yields (.control h .handback) s fun t => t.rd TWN_STATUS_STATE = 7 ∧ t.hbm = s.hbm) ∧
    (∀ i : Instr, ∀ x, i = .delta h x ∨ i = .bulk h x → st = 4 → s.rd FAB_SQUALL_CTRL_EN = 0 → s.twn.ahead = [] → s.twn.expect = h.dseq.toNat →
      let acked := fun (n : Nat) (t : State) => t.rd TWN_STATUS_ACKSEQ = n ∧ t.twn.expect = n ∧ ∃ bs, t.out = s.out ++ [.twin p 3 bs]
      (∀ n pos seq step ss code, x = .regs n pos seq step ss code → Yields i s fun t => acked ((h.dseq.toNat + 1) % 2 ^ 32) t ∧ t.rd SMP_POS_POS n.val = pos.toNat ∧
        t.rd SMP_SEQ_SEQ n.val = seq.toNat ∧ t.rd SMP_STATE_STEP n.val = step.toNat ∧ t.rd SMP_STATE_STATE n.val = ss.toNat ∧ t.rd SMP_STATE_CODE n.val = code.toNat) ∧
      (∀ a d, x = .entries a d [] → s.hbmReady a d.length → Yields i s fun t => acked ((h.dseq.toNat + 1) % 2 ^ 32) t ∧ HbmPut a d s t) ∧
      (∀ n, x = .broken n → Yields i s fun t => acked ((h.dseq.toNat + 1) % 2 ^ 32) t ∧ t.rd SMP_STATE_STATE n.val = 3 ∧ t.rd SMP_STATE_CODE n.val = 7 ∧ n.val ∈ t.twn.broken)) ∧
    (∀ i : Instr, ∀ x, i = .delta h x ∨ i = .bulk h x → st = 4 → s.rd FAB_SQUALL_CTRL_EN = 0 → s.twn.expect = h.dseq.toNat + 1 → Yields i s fun t =>
      t.rd TWN_STATUS_ACKSEQ = s.twn.expect % 2 ^ 32 ∧ t.twn.expect = s.twn.expect ∧ t.hbm = s.hbm ∧ (∃ bs, t.out = s.out ++ [.twin p 3 bs]) ∧
      RegsBut [(TWN_STATUS_PORTS_UP, 0), (TWN_STATUS_ACKSEQ, 0)] s t)) ∧
  (∀ s : State, s.rd TWN_STATUS_STATE ≠ 0 → s.rd BWT_STATUS_SAFE = 0 → s.twn.squall = [] → s.rd FAB_SQUALL_CTRL_EN = 0 →
    s.twinDark 0 = false → s.twinDark 1 = false → s.twn.rewrite = [] →
    (s.twn.sentHb + 500 ≤ s.wall → s.rd TWN_STATUS_STATE ≠ 2 → s.rd TWN_STATUS_STATE ≠ 5 → s.twn.gathers = [] → Yields .heartbeatSend s fun t => t.twn.sentHb = s.wall ∧
      (let f := leBytes 1 1 ++ leBytes 1 (s.rd TWN_STATUS_STATE) ++ leBytes 2 (s.rd TWN_CTRL_PAIR_ID) ++ leBytes 4 0 ++ leBytes 4 (s.rd TWN_STATUS_ACKSEQ) ++ leBytes 16 0
       t.out = s.out ++ [.twin 0 1 (f ++ leBytes 4 (crc32c f)), .twin 1 1 (f ++ leBytes 4 (crc32c f))]) ∧
      RegsBut [(TWN_STATUS_HEALTHY_S, 0), (TWN_PEER_AGE_MS, 0)] s t ∧ t.hbm = s.hbm) ∧
    (s.wall < s.twn.sentHb + 500 → Yields .heartbeatSend s (· = s)) ∧
    (∀ n : Fin 64, s.copying = true → s.coveredStreams = [n.val] → Yields .ackedSeqSend s fun t => { t with out := s.out } = s ∧
      t.out = s.out ++ [.twinItem (s.twinPort n.val) 7 (s.twinHead 7 0) (.acked n (s.ackedSeq n.val)) false]) ∧
    (∀ (p : Fin 2) (u : TwinSent) (us : List TwinSent) (d : BitVec 32), s.twn.unacked = u :: us → u.dseq = d.toNat → u.at_ + 1000 ≤ s.wall → (∀ x ∈ us, x ≠ u) →
      Yields (.frameResend p d) s fun t => t.twn.unacked = { u with port := p.val, at_ := s.wall } :: us ∧ t.rd TWN_STAT_RESENDS = min (s.rd TWN_STAT_RESENDS + 1) 65535 ∧
        t.out = s.out ++ [.twinItem p.val u.typ (s.twinHead u.typ u.dseq) u.item false] ∧ t.raised = s.raised ++ [⟨0x84, 0x30, p.val, none, 0, 0⟩] ∧ RegsBut [(TWN_STAT_RESENDS, 0)] s t) ∧
    (∀ p : Fin 2, (s.rd TWN_STATUS_PORTS_UP).testBit p.val = true → smGet (fun _ => 0) s.twn.rxWall p.val + 2000 ≤ s.wall → Yields (.twinPortDown p) s fun t =>
      (t.rd TWN_STATUS_PORTS_UP).testBit p.val = false ∧ (t.rd TWN_STATUS_PORTS_UP).testBit (1 - p.val) = (s.rd TWN_STATUS_PORTS_UP).testBit (1 - p.val) ∧
      t.raised = s.raised ++ [⟨0x81, 0x30, p.val, none, 0, 0⟩] ∧ RegsBut [(TWN_STATUS_PORTS_UP, 0)] s t) ∧
    (∀ p : Fin 2, p.val ∈ s.twn.heard → smGet (fun _ => 0) s.twn.rxWall p.val + 500 ≤ s.wall → Yields (.heartbeatIntervalMissed p) s
      (· = { s with raised := s.raised ++ [⟨0x80, 0x30, p.val, none, 0, 0⟩] })) ∧
    (s.twn.paired = true → s.twn.declared = false → smGet (fun _ => 0) s.twn.hbWall 0 + 2000 ≤ s.wall → smGet (fun _ => 0) s.twn.hbWall 1 + 2000 ≤ s.wall → s.twn.gates = [] →
      Yields .linkDownDeclaration s fun t => t.twn.declared = true ∧ t.raised = s.raised ++ [⟨0x82, 0x30, 0, none, 0, 0⟩] ∧
        (s.rd TWN_STATUS_STATE = 2 → s.rd TWN_CTRL_SILENCE_FENCE = 1 → t.rd TWN_STATUS_STATE = 6 ∧ t.rd GLB_FWSTAT_PARKED = 1 ∧ t.tide.parked = true) ∧
        (s.rd TWN_STATUS_STATE = 2 → s.rd TWN_CTRL_SILENCE_FENCE = 0 → t.rd TWN_STATUS_STATE = 5) ∧
        (s.rd TWN_STATUS_STATE = 3 ∨ (s.rd TWN_STATUS_STATE = 4 ∧ s.rd TWN_STATUS_ARMED = 0) → t.rd TWN_STATUS_STATE = 1) ∧
        (s.rd TWN_STATUS_STATE = 4 → s.rd TWN_STATUS_ARMED = 1 → t.rd TWN_STATUS_STATE = if s.rd TWN_CTRL_SILENCE_FENCE = 1 then 7 else 4)))

/-- R496 to R498, R505 to R509: WANT enters and leaves the pair; arming places an image's programs without starting them and forgets the lines of the registered regions;
an armed lee takes over, its job requested as a role turn, then serves; a windward hands back; a lee tests one tile row at a time.
The model's choices it rests on: log 45, 75, 77, 109. -/
def Obligations.TwinServing : Prop :=
  (∀ (m : Master) (s : State), s.mayConfigure m.val = true →
    Yields (.wantWrite m 3) s (· = s) ∧
    (∀ w : BitVec 2, w ≠ 0 → w ≠ 3 → (s.rd TWN_STATUS_STATE = 0 → Yields (.wantWrite m w) s fun t => t.rd TWN_CTRL_WANT = w.toNat ∧ t.rd TWN_STATUS_STATE = 1 ∧ t.twn.paired = false ∧
        t.twn.healthyFrom = s.wall) ∧
      (s.rd TWN_STATUS_STATE ≠ 0 → Yields (.wantWrite m w) s fun t => t.rd TWN_CTRL_WANT = w.toNat ∧ RegsBut [(TWN_CTRL_WANT, 0)] s t ∧ { t with regs := s.regs } = s)) ∧
    (s.twn.gates = [] → s.rd TWN_STATUS_STATE ≠ 6 → Yields (.wantWrite m 0) s fun t => t.rd TWN_CTRL_WANT = 0 ∧ t.rd TWN_STATUS_STATE = 0 ∧ t.twn.paired = false ∧ t.rd TWN_STATUS_ACKSEQ = 0 ∧
      t.twn.unacked = []) ∧
    (s.rd TWN_STATUS_STATE = 6 → s.fw.phase = 0 → s.twn.gates = [] → Yields (.resume m) s fun t => t.rd TWN_STATUS_STATE = 5 ∧ t.rd GLB_FWSTAT_PARKED = 0 ∧ t.tide.parked = false ∧
      RegsBut [(TWN_STATUS_STATE, 0), (GLB_FWSTAT_PARKED, 0)] s t) ∧
    (s.rd TWN_STATUS_STATE ≠ 6 → Yields (.resume m) s (· = s)) ∧
    (s.rd TWN_STATUS_STATE = 4 → s.rd TWN_STATUS_ARMED = 1 → s.twn.rewrite = [] → Yields (.take m) s fun t => t.rd TWN_STATUS_STATE = 7 ∧ t.twn.paired = false ∧ t.hbm = s.hbm ∧ t.twn.replay = s.twn.replay) ∧
    (s.rd TWN_STATUS_STATE ≠ 4 ∨ s.rd TWN_STATUS_ARMED = 0 → s.twn.rewrite = [] → Yields (.take m) s (· = s)) ∧
    (∀ (d : Fin 24) (k : Fin 256) (x : Sect), s.plans = [] → s.twn.arming = false → s.rd BWT_STATUS_SAFE = 0 →
      let pa := s.rd TWN_ARM_ADDR_ADDR
      let mm : Mem := smRun (fun _ => 0) pa (memBytes s.hbm pa (max 64 (memNat s.hbm (pa + 24) 8)))
      pa % 4096 = 0 → paOk pa 64 = true → s.hbmReady pa (max 64 (memNat s.hbm (pa + 24) 8)) → s.launchCode mm (s.rd GLB_HOSTCFG_OWNER) pa false = 0 → sectsOf mm pa = [x] → x.typ = 2 →
      x.station = d.val → x.tile = k.val → x.dlen % 32 = 0 → Yields (.arm m) s fun t => t.twn.arming = true ∧ t.plans = [] ∧ t.tide = s.tide ∧ t.hbm = s.hbm ∧ t.stns = s.stns ∧
        t.twn.image = some (memNat s.hbm (pa + 4) 8, [], [d.val], memNat s.hbm (pa + 12) 1) ∧
        (∀ w, w < x.dlen / 32 → smGet (fun _ => 0) (t.tile (tileKey d k)).ibuf w = BitVec.ofNat 256 (memNat s.hbm (pa + x.off + 32 * w) 32)) ∧
        (∀ e c, e ≠ d → t.tile (tileKey e c) = s.tile (tileKey e c)))) ∧
  (∀ (m : Master) (s : State), 2 < m.val → ∀ i : Instr, (∃ w, i = .wantWrite m w) ∨ i = .resume m ∨ i = .take m ∨ i = .arm m → Yields i s (· = s)) ∧
  (∀ s : State,
    (s.twn.arming = true → smWf (fun _ => TLine.absent) s.pool = true → Yields .armingComplete s fun t => t.rd TWN_STATUS_ARMED = 1 ∧ t.twn = { s.twn with arming := false } ∧ RegsBut [(TWN_STATUS_ARMED, 0)] s t ∧ t.hbm = s.hbm ∧
      ∀ d l, d < 24 → l < 2 ^ 32 → t.line d l = if (s.regionExtents.any fun r => decide (r.1 < 512 * l + 512) && decide (512 * l < r.1 + r.2)) = true ∧ (s.line d l).moor = false
        then TLine.absent else s.line d l) ∧
    (s.rd TWN_STATUS_STATE = 7 → s.rd BWT_STATUS_SAFE = 0 →
      (∀ plan qs dies modes, (∀ j ∈ s.plans, j.ring ≠ none) → s.twn.replayed = true → s.twn.image = some (plan, qs, dies, modes) → Yields .twinSwitchover s fun t =>
        t.plans = s.plans ++ [⟨none, plan, (List.range 24).filter qs.contains, qs, .requested, 0⟩] ∧ t.tide.swapReqs = s.tide.swapReqs ++ [⟨qs, true, some modes⟩] ∧
        t.rd TID_SWAP_TURN = 1 ∧ t.twn = s.twn ∧ t.tiles = s.tiles ∧ RegsBut [(TID_SWAP_HDL, 0), (TID_SWAP_SHG, 0), (TID_SWAP_HRB, 0), (TID_SWAP_TURN, 0)] s t) ∧
      (∀ j js, s.plans = j :: js → j.ring = none → j.phase = .running → s.rd TID_STATUS_IDLE_NOW = 0 → s.twn.gates = [] → Yields .twinSwitchover s fun t => t.rd TWN_STATUS_STATE = 5 ∧
        t.rd TWN_STAT_SWITCHES = min (s.rd TWN_STAT_SWITCHES + 1) 65535 ∧ t.raised = s.raised ++ [⟨0x86, 0x30, 0, none, 0, 0⟩] ∧ t.plans = s.plans ∧ t.tiles = s.tiles)) ∧
    (∀ peer, s.rd TWN_STATUS_STATE = 2 → s.rd BWT_STATUS_SAFE = 0 →
      (s.twn.hold = false → s.rd TWN_CTRL_HOLD = 1 ∨ peer = true → Yields (.handback peer) s fun t => t.rd TWN_STATUS_STATE = 2 ∧ t.twn.hold = false ∧ t.out = s.out ∧
        RegsBut [(TWN_STATUS_HEALTHY_S, 0), (TWN_PEER_AGE_MS, 0)] s t) ∧
      (s.twn.hold = true → s.twn.deltas = [] → s.twn.unacked = [] → s.plans = [] → s.fw.phase = 0 → s.rd FAB_SQUALL_CTRL_EN = 0 → s.rd GLB_HOSTCFG_OWNER_VALID = 0 → s.rd GLB_PORT_LINK_UP 0 = 0 →
        s.twinDark (s.twinPort 0) = false → s.rd GLB_PORT_LINK_UP 1 = 0 → Yields (.handback peer) s fun t => t.rd TWN_STATUS_STATE = 3 ∧ t.twn.paired = true ∧ t.twn.hold = false ∧ t.twn.gates = [] ∧
          t.rd TWN_STAT_SWITCHES = min (s.rd TWN_STAT_SWITCHES + 1) 65535 ∧ t.raised = s.raised ++ [⟨0x86, 0x30, 0, none, 0, 0⟩] ∧ t.rd GLB_FWSTAT_PARKED = 0 ∧
          (∃ hd, t.out = s.out ++ [.twinItem (s.twinPort 0) 7 hd .handback false]) ∧ t.hbm = s.hbm) ∧
      (s.twn.hold = true → s.twn.unacked ≠ [] → Yields (.handback peer) s fun t => t.rd TWN_STATUS_STATE = 2 ∧ t.twn.hold = true ∧ t.out = s.out)) ∧
    (∀ tpl, s.rd TWN_STATUS_STATE = 4 → s.rd BWT_STATUS_SAFE = 0 → s.rd TWN_STATUS_ARMED = 0 → s.rd FAB_SQUALL_CTRL_EN = 0 → s.twn.bistRow < 384 → s.twinDark (s.twinPort s.twn.bistRow) = false →
      s.twn.rewrite = [] → Yields (.standbyBist [] tpl) s fun t =>
      t.twn.bistRow = (s.twn.bistRow + 1) % 384 ∧ t.regs = s.regs ∧ t.hbm = s.hbm ∧ t.flt = s.flt ∧
      (∀ n, n < 24 * 256 → if n / 16 = s.twn.bistRow then (t.tile n).store = [] ∧ (t.tile n).ibuf = (s.tile n).ibuf ∧ (t.tile n).pc = 0 ∧ (∀ r, (t.tile n).rdS r = 0)
        else t.tile n = s.tile n) ∧
      ∃ hd w sc, t.out = s.out ++ [.twinItem (s.twinPort s.twn.bistRow) 6 hd (.health w (Fin.ofNat 384 s.twn.bistRow) sc tpl) false]))

/-- R7, R136, R151 to R154, R330, R332, R333, R338, R363: a fabric command sends nothing and is logged with PERM on a flow that is closed, bound to another rank or 4,095, with
ADDR_FAULT for an offset above 46 bits, an invalid rank or a misaligned atomic, with TARGET_LOST, REPLICA_WRITE or TIMEOUT as those rules say; otherwise its packets of 256 B
take the flow's next sequence numbers in address order.
The model's choices it rests on: log 37, 60, 61. -/
def Obligations.MoveFabric : Prop :=
  ∀ (pt : At) (o : MV) (s : State), (s.here pt).moveFree pt.cyc = true →
    let T := s.here pt
    let rank := o.osf.toNat % 256
    let f := o.osf.toNat / 256 % 4096
    let off := (T.rdS o.sb).toNat
    let a := off / 32 * 32
    let rc := (T.rdS o.sc).toNat
    let n := 32 * o.len.toNat
    let w := if o.osf.getLsbD 23 = true then 8 else 4
    let aop := o.osf.toNat / 2 ^ 20 % 8
    let node := s.rd FAB_RANK_NODE rank
    let seq := s.rd FAB_FLOW1_NEXT_SEQ f
    let bound := f ≠ 4095 ∧ s.rd FAB_FLOW0_OPEN f = 1 ∧ s.rd FAB_FLOW0_RANK f = rank
    let valid := bound ∧ moveFits T o ∧ a + n ≤ 2 ^ 46 ∧ s.rd FAB_RANK_VALID rank = 1
    let plain := ∀ e, e < 64 → s.rd FAB_REPL0_VALID e = 0
    let refused := fun (i : Instr) (start code : Nat) => Yields i s fun t => Started (t.here pt) T.nextId o.k code 0 ∧ (t.here pt).store = T.store ∧ t.fab = s.fab ∧
      t.hbm = s.hbm ∧ t.rd FAB_REQLOG_VALID = 1 ∧
      (s.rd FAB_REQLOG_VALID = 1 → t.rd FAB_REQLOG_MULTI = 1 ∧ t.rd FAB_REQLOG_CODE = s.rd FAB_REQLOG_CODE ∧ t.rd FAB_REQLOG_FADDR = s.rd FAB_REQLOG_FADDR) ∧
      (s.rd FAB_REQLOG_VALID = 0 → t.rd FAB_REQLOG_CODE = code ∧ t.rd FAB_REQLOG_FADDR = node * 2 ^ 46 + start % 2 ^ 46 ∧ t.rd FAB_REQLOG_INFO_FLOW = f ∧
        t.rd FAB_REQLOG_INFO_RANK = rank ∧ t.rd FAB_REQLOG_INFO_STATION = pt.die.val ∧ t.rd FAB_REQLOG_INFO_TILE = pt.tile.val) ∧
      t.raised = s.raised ++ (if code = 2 then [⟨0x56, 0x30, f, none, 0, 0⟩] else [])
    (∀ x ∈ ([(.fld, a), (.fst, a), (.fatm, off)] : List ((At → MV → Instr) × Nat)), Legal s (x.1 pt o) →
      (¬ bound → refused (x.1 pt o) x.2 0x05) ∧
      (bound → moveFits T o → 2 ^ 46 ≤ off ∨ s.rd FAB_RANK_VALID rank = 0 → refused (x.1 pt o) x.2 0x04) ∧
      (valid → off < 2 ^ 46 → off % w = 0 → plain →
        (s.rd FAB_NODE_STATE node ≠ 1 → refused (x.1 pt o) x.2 0x02) ∧
        (s.rd FAB_NODE_STATE node = 1 → s.rd FAB_FLOW0_FAILED f = 1 → refused (x.1 pt o) x.2 0x08))) ∧
    (Legal s (.fatm pt o) → bound → moveFits T o → off % w ≠ 0 → refused (.fatm pt o) off 0x04) ∧
    (valid → off < 2 ^ 46 → off % w = 0 → s.rd FAB_NODE_STATE node = 1 →
      (∀ e, s.replMatch rank a n = some e → Legal s (.fst pt o) → refused (.fst pt o) a 0x0A) ∧
      (∀ e, s.replMatch rank off w = some e → Legal s (.fatm pt o) → refused (.fatm pt o) off 0x0A)) ∧
    (valid → off < 2 ^ 46 → plain → s.rd FAB_NODE_STATE node = 1 → s.rd FAB_FLOW0_FAILED f = 0 → s.rd FAB_PLANE_STATE (s.rd FAB_FLOW0_CUR_PLANE f) = 2 → T.ecc = [] →
      let cnt := (n + 255) / 256
      let pkt := fun (typ i : Nat) (last : Bool) (start plen aop : Nat) (w64 : Bool) (data : List Byte) =>
        (⟨s.fab.nextCid, ⟨typ, 0, node, s.rd FAB_CTRL_NODE_ID, 0, last, f, 0, 0, (seq + i) % 2 ^ 32, start, plen, rc % 65536, rc / 65536 % 8, aop, w64, 0, i, 0, data⟩,
          none, false, true, none⟩ : FabPkt)
      let sends := fun (i : Instr) (typ k : Nat) (ps : List FabPkt) => Yields i s fun t => Started (t.here pt) T.nextId o.k 0x00 1 ∧ (t.here pt).store = T.store ∧
        t.rd FAB_FLOW1_NEXT_SEQ f = (seq + k) % 2 ^ 32 ∧ RegsBut [(FAB_FLOW1_NEXT_SEQ, f), (FAB_FLOW1_OUTSTANDING, f)] s t ∧
        t.fab.cmds = s.fab.cmds ++ [⟨s.fab.nextCid, f, rank, typ, some (pt.die.val, pt.tile.val, T.nextId), false, moveLocal T o, 0, false, n, 0, none⟩] ∧
        t.fab.pkts = s.fab.pkts ++ ps ∧ { t with tiles := s.tiles, fab := s.fab, regs := s.regs } = s
      let bs := T.bytes (moveLocal T o) n
      (Legal s (.fld pt o) → sends (.fld pt o) 1 cnt ((List.range cnt).map fun i => pkt 1 i (decide (i + 1 = cnt)) (a + 256 * i) (min 256 (n - 256 * i)) 0 false [])) ∧
      (Legal s (.fst pt o) → sends (.fst pt o) 2 cnt ((List.range cnt).map fun i => pkt 2 i (decide (i + 1 = cnt)) (a + 256 * i) (min 256 (n - 256 * i)) 0 false
        ((bs.drop (256 * i)).take (min 256 (n - 256 * i))))) ∧
      (Legal s (.fatm pt o) → off % w = 0 →
        let data := bs.take w ++ (if aop = 2 then (bs.drop 8).take w else [])
        sends (.fatm pt o) 3 1 [pkt 3 0 true off data.length aop (o.osf.getLsbD 23) data]))

/-- R322, R326, R327, R332, R336 to R339, R343: flows open, close, detour, time out and return home; a port sends VC2, VC1, VC0, VC3 in strict priority and only with
credits; a plane goes down with its link, by its switch or by DISABLE, and trains and comes up with the link (log 99);
a held packet of a drill leaves once overtaken or after 10 µs, and overtakes the others; a dark port sends nothing.
The model's choices it rests on: log 36, 37, 99. -/
def Obligations.FabricFlows : Prop :=
  (∀ (fl : Fin 4096) (m : Master) (s : State),
    let f := fl.val
    (s.mayFab m.val = true →
      (∀ (rank : BitVec 8) (home : Fin 8),
        (s.rd FAB_FLOW0_OPEN f = 0 → Yields (.flowOpen fl m rank home) s fun t => t.rd FAB_FLOW0_OPEN f = 1 ∧ t.rd FAB_FLOW0_RANK f = rank.toNat ∧ t.rd FAB_FLOW0_HOME f = home.val ∧
          t.rd FAB_FLOW0_CUR_PLANE f = home.val ∧ t.rd FAB_FLOW0_ATTEMPT f = 0 ∧ t.rd FAB_FLOW0_FAILED f = 0 ∧ t.rd FAB_FLOW0_DETOURED f = 0 ∧ t.rd FAB_FLOW1_NEXT_SEQ f = 0 ∧
          RegsBut [(FAB_FLOW0_OPEN, f), (FAB_FLOW0_RANK, f), (FAB_FLOW0_HOME, f), (FAB_FLOW0_CUR_PLANE, f), (FAB_FLOW0_ATTEMPT, f), (FAB_FLOW0_FAILED, f), (FAB_FLOW0_DETOURED, f),
            (FAB_FLOW1_NEXT_SEQ, f)] s t ∧ t.fab.pkts = s.fab.pkts ∧ t.fab.cmds = s.fab.cmds ∧ { t with regs := s.regs, fab := s.fab } = s) ∧
        (s.rd FAB_FLOW0_OPEN f = 1 → Yields (.flowOpen fl m rank home) s (· = s))) ∧
      (s.rd FAB_FLOW0_OPEN f = 1 → s.rd FAB_FLOW1_OUTSTANDING f = 0 → s.rd FAB_PLANE_STATE (s.rd FAB_FLOW0_CUR_PLANE f) = 2 → Yields (.flowCloseRequest fl m) s fun t =>
        t.rd FAB_FLOW0_OPEN f = 0 ∧ RegsBut [(FAB_FLOW0_OPEN, f)] s t ∧ { t with regs := s.regs, fab := s.fab } = s ∧
        t.fab.outq = s.fab.outq ++ [(s.rd FAB_FLOW0_CUR_PLANE f,
          ⟨7, 2, if f = 4095 then s.rd FAB_FLOW0_RANK f % 64 else s.rd FAB_RANK_NODE (s.rd FAB_FLOW0_RANK f), s.rd FAB_CTRL_NODE_ID, 0, false, 0, 0, 0, 0, 0, 4, 0, 0, 0, false, 0, 0, 0,
            [4, 0, BitVec.ofNat 8 f, BitVec.ofNat 8 (f / 256)]⟩)]) ∧
      (s.rd FAB_FLOW0_OPEN f = 0 ∨ s.rd FAB_FLOW1_OUTSTANDING f ≠ 0 → Yields (.flowCloseRequest fl m) s (· = s)) ∧
      (s.rd FAB_FLOW0_DETOURED f = 1 → f ∉ s.fab.mayReturn → Yields (.returnHome fl m) s (· = { s with fab := { s.fab with mayReturn := s.fab.mayReturn ++ [f] } })) ∧
      (s.rd FAB_FLOW0_DETOURED f = 0 → Yields (.returnHome fl m) s (· = s))) ∧
    (s.mayFab m.val = false → ∀ i : Instr, (∃ rank home, i = .flowOpen fl m rank home) ∨ i = .flowCloseRequest fl m ∨ i = .returnHome fl m → Yields i s fun t => t.fab = s.fab ∧
      (2 ≤ m.val → t = s) ∧ (m.val < 2 → t.out = s.out ++ [.aer m.val 1] ∧ t.rd GLB_HOSTLOG_VALID = 1 ∧ (s.rd GLB_HOSTLOG_VALID = 0 → t.rd GLB_HOSTLOG_CODE = 5))) ∧
    (s.rd FAB_FLOW0_DETOURED f = 1 → s.rd FAB_FLOW1_OUTSTANDING f = 0 → f ∈ s.fab.mayReturn → Yields (.flowReturn fl) s fun t => t.rd FAB_FLOW0_CUR_PLANE f = s.rd FAB_FLOW0_HOME f ∧
      t.rd FAB_FLOW0_PATH_EPOCH f = (s.rd FAB_FLOW0_PATH_EPOCH f + 1) % 256 ∧ t.rd FAB_FLOW0_ATTEMPT f = 0 ∧ t.rd FAB_FLOW0_DETOURED f = 0 ∧ f ∉ t.fab.mayReturn ∧
      RegsBut [(FAB_FLOW0_CUR_PLANE, f), (FAB_FLOW0_PATH_EPOCH, f), (FAB_FLOW0_ATTEMPT, f), (FAB_FLOW0_DETOURED, f)] s t ∧ { t with regs := s.regs, fab := s.fab } = s) ∧
    (s.rd FAB_FLOW0_DETOURED f = 0 ∨ s.rd FAB_FLOW1_OUTSTANDING f ≠ 0 ∨ f ∉ s.fab.mayReturn → Yields (.flowReturn fl) s (· = s)) ∧
    (f ∈ s.fab.downFlows ∨ s.flowLate f = true → s.rd FAB_FLOW0_ATTEMPT f < 4 →
      let old := s.rd FAB_FLOW0_CUR_PLANE f
      let recent := ((smGet (fun _ => []) s.fab.detours old).filter fun w => decide (s.wall < w + 100000)).length + 1
      Yields (.detour fl) s fun t => t.rd FAB_FLOW0_PATH_EPOCH f = (s.rd FAB_FLOW0_PATH_EPOCH f + 1) % 256 ∧ t.rd FAB_FLOW0_ATTEMPT f = s.rd FAB_FLOW0_ATTEMPT f + 1 ∧
        t.rd FAB_FLOW0_DETOURED f = 1 ∧ t.rd FAB_FLOW0_CUR_PLANE f = (s.nextPlane f).getD old ∧
        t.fab.pkts = (s.fab.pkts.map fun p => if p.pkt.flow = f ∧ (p.sent.isSome = true ∨ s.windowOk p = true) then
          { p with queued := (s.nextPlane f).isSome, sent := some s.wall } else p) ∧
        t.rd FAB_PLANE_DETOURS old = min (s.rd FAB_PLANE_DETOURS old + 1) 65535 ∧ ⟨0x50, 0x30, old, none, 0, 0⟩ ∈ t.raised ∧
        (s.rd FAB_PLANE_STATE old = 2 → max 1 (s.rd FAB_CTRL_PLANE_TRIP) ≤ recent → t.rd FAB_PLANE_STATE old = 0 ∧ t.rd FAB_PLANE_DOWN_CAUSE old = 3) ∧
        (recent < max 1 (s.rd FAB_CTRL_PLANE_TRIP) → t.rd FAB_PLANE_STATE old = s.rd FAB_PLANE_STATE old ∧ f ∉ t.fab.downFlows)) ∧
    (f ∉ s.fab.downFlows → s.flowLate f = false → Yields (.detour fl) s (· = s) ∧ Yields (.attemptTimeout fl) s (· = s)) ∧
    (s.rd FAB_FLOW0_ATTEMPT f < 4 → Yields (.attemptTimeout fl) s (· = s)) ∧
    (f ∈ s.fab.downFlows ∨ s.flowLate f = true → s.rd FAB_FLOW0_ATTEMPT f = 4 →
      (Yields (.attemptTimeout fl) s fun t => t.rd FAB_FLOW0_FAILED f = 1 ∧ t.fab.pkts = (s.fab.pkts.filter fun p => p.pkt.flow != f) ∧ ⟨0x52, 0x30, f, none, 0, 0⟩ ∈ t.raised) ∧
      (∀ q c d k id, s.fab.pkts = [q] → s.fab.cmds = [c] → q.pkt.flow = f → q.cid = c.cid → c.code = 0 → c.first = none → c.landing = 0 → c.direct = false →
        c.tile = some (d, k, id) → Yields (.attemptTimeout fl) s fun t => t.fab.cmds = [] ∧ t.rd FAB_FLOW1_OUTSTANDING f = 0 ∧
          (t.tile (d * 256 + k)).inq = (s.tile (d * 256 + k)).inq ++ [⟨10, c.addr, [], 0, .part id 0x08⟩] ∧ (t.tile (d * 256 + k)).active = (s.tile (d * 256 + k)).active ∧
          t.rd FAB_REQLOG_VALID = 1 ∧ (s.rd FAB_REQLOG_VALID = 0 → t.rd FAB_REQLOG_CODE = 8 ∧ t.rd FAB_REQLOG_LATE = 0 ∧ t.rd FAB_REQLOG_INFO_STATION = d % 256)))) ∧
  (∀ (plane : Fin 8) (s : State),
    let k := plane.val
    (s.rd FAB_CTRL_NODE_VALID = 0 ∨ s.rd FAB_PLANE_STATE k ≠ 2 ∨ s.rd BWT_STATUS_SAFE = 1 → Yields (.fabricPacketSend plane) s (· = s)) ∧
    (s.rd FAB_CTRL_NODE_VALID = 1 → s.rd FAB_PLANE_STATE k = 2 → s.rd BWT_STATUS_SAFE = 0 → s.rd FAB_SQUALL_CTRL_EN = 0 →
      (∀ o : FabOut, s.nextOut k 2 = some o ∨ (s.nextOut k 2 = none ∧ s.nextOut k 1 = some o) → Yields (.fabricPacketSend plane) s fun t =>
        t.out = s.out ++ [.fabric k (o.2.bytes k)] ∧ t.fab.outq = s.fab.outq.erase o ∧ t.credit k o.2.vc = s.credit k o.2.vc - o.2.credits ∧ t.fab.pkts = s.fab.pkts ∧
        t.regs = s.regs ∧ t.raised = s.raised) ∧
      (s.nextOut k 2 = none → s.nextOut k 1 = none →
        (∀ (p : FabPkt) (vc : Nat), (vc = 0 ∧ s.nextReqPkt k 0 = some p) ∨ (vc = 3 ∧ s.nextReqPkt k 0 = none ∧ s.nextReqPkt k 3 = some p) →
          let f := p.pkt.flow
          let req := if p.pkt.typ = 3 ∧ p.named = false then s.fab.nextReq else p.pkt.req
          let out := { p.pkt with vc := vc, attempt := s.rd FAB_FLOW0_ATTEMPT f, pathEpoch := s.rd FAB_FLOW0_PATH_EPOCH f, req := req }
          Yields (.fabricPacketSend plane) s fun t => t.out = s.out ++ [.fabric k (out.bytes k)] ∧ t.credit k vc = s.credit k vc - p.pkt.credits ∧ t.regs = s.regs ∧
            t.fab.outq = s.fab.outq ∧ t.fab.nextReq = (if p.pkt.typ = 3 ∧ p.named = false then (s.fab.nextReq + 1) % 65536 else s.fab.nextReq) ∧
            t.fab.pkts = s.fab.pkts.map fun q => if q = p then { p with pkt := { p.pkt with req := req }, named := true, queued := false, sent := some s.wall } else q) ∧
        (s.nextReqPkt k 0 = none → s.nextReqPkt k 3 = none → Yields (.fabricPacketSend plane) s (· = s)))) ∧
    (∀ vc : Fin 4, let held := smGet (fun _ => 0) s.fab.held (k * 4 + vc.val)
      (Yields (.creditReturn plane vc true) s fun t => t.credit k vc.val = min 255 (s.credit k vc.val + 1) ∧ t.out = s.out ∧ t.regs = s.regs) ∧
      (held = 0 ∨ s.portLit k = false ∨ s.rd FAB_PLANE_STATE k ≠ 2 → Yields (.creditReturn plane vc false) s (· = s)) ∧
      (held ≠ 0 → s.portLit k = true → s.rd FAB_PLANE_STATE k = 2 → Yields (.creditReturn plane vc false) s fun t => t.out = s.out ++ [.credit k vc.val] ∧ smGet (fun _ => 0) t.fab.held (k * 4 + vc.val) = held - 1 ∧ t.regs = s.regs)) ∧
    (∀ i : Instr, ∀ st cause : Nat, (∃ opened, i = .fabricPortDown plane opened ∧ st = 0 ∧ s.rd FAB_PLANE_STATE k ≠ 3 ∧ cause = if opened = true then 2 else 1) ∨
        (∃ m : Master, i = .planeDisable plane m true ∧ st = 3 ∧ cause = 5 ∧ s.mayFab m.val = true) →
      Yields i s fun t => t.rd FAB_PLANE_STATE k = st ∧ t.rd FAB_PLANE_DOWN_CAUSE k = cause ∧ t.fab.pkts = s.fab.pkts ∧
        RegsBut [(FAB_PLANE_STATE, k), (FAB_PLANE_DOWN_CAUSE, k), (FAB_PLANE_DISABLE, k)] s t ∧ (st = 3 → t.rd FAB_PLANE_DISABLE k = 1) ∧ (st = 0 → k ∉ t.fab.link) ∧
        (s.rd FAB_PLANE_STATE k = 1 ∨ s.rd FAB_PLANE_STATE k = 2 → t.raised = s.raised ++ [⟨0x51, 0x30, k, none, 0, 0⟩] ∧ (∀ o ∈ t.fab.outq, o.1 ≠ k) ∧
          (∀ f, f < 4096 → s.rd FAB_FLOW0_OPEN f = 1 → s.rd FAB_FLOW0_CUR_PLANE f = k → f ∈ t.fab.downFlows)) ∧
        (s.rd FAB_PLANE_STATE k = 0 ∨ s.rd FAB_PLANE_STATE k = 3 → t.raised = s.raised ∧ t.fab.downFlows = s.fab.downFlows)) ∧
    (∀ opened, s.rd FAB_PLANE_STATE k = 3 → Yields (.fabricPortDown plane opened) s fun t => t.regs = s.regs ∧ t.raised = s.raised ∧ k ∉ t.fab.link) ∧
    (∀ cs : List Nat,
      (s.portLit k = false ∨ (s.rd HRN_PORTLIGHT_OPEN).testBit k = true → Yields (.fabricPortUp plane cs) s (· = s)) ∧
      (s.portLit k = true → (s.rd HRN_PORTLIGHT_OPEN).testBit k = false →
        (s.rd FAB_PLANE_STATE k = 0 ∨ s.rd FAB_PLANE_DISABLE k = 1 → Yields (.fabricPortUp plane cs) s fun t =>
          t.rd FAB_PLANE_STATE k = (if s.rd FAB_PLANE_DISABLE k = 1 then 3 else 1) ∧ RegsBut [(FAB_PLANE_STATE, k)] s t ∧ { t with regs := s.regs } = s) ∧
        (s.rd FAB_PLANE_DISABLE k = 0 → s.rd FAB_PLANE_STATE k = 2 → Yields (.fabricPortUp plane cs) s (· = s)) ∧
        (s.rd FAB_PLANE_DISABLE k = 0 → s.rd FAB_PLANE_STATE k = 1 → Yields (.fabricPortUp plane cs) s fun t => k ∈ t.fab.link ∧ t.raised = s.raised ∧
          (∀ v, v < 4 → t.credit k v = min 255 (cs.getD v 64) ∧ smGet (fun _ => 0) t.fab.held (k * 4 + v) = 0) ∧ t.rd FAB_PLANE_STATE k = 2 ∧ t.rd FAB_PLANE_DOWN_CAUSE k = 0 ∧
          (∀ f, f < 4096 → s.rd FAB_FLOW0_DETOURED f = 1 → s.rd FAB_FLOW0_HOME f = k → f ∈ t.fab.mayReturn) ∧ RegsBut [(FAB_PLANE_STATE, k), (FAB_PLANE_DOWN_CAUSE, k)] s t))) ∧
    (∀ m : Master, s.mayFab m.val = true → Yields (.planeDisable plane m false) s fun t => t.rd FAB_PLANE_DISABLE k = 0 ∧
      t.rd FAB_PLANE_STATE k = (if s.rd FAB_PLANE_STATE k = 3 then 1 else s.rd FAB_PLANE_STATE k) ∧ RegsBut [(FAB_PLANE_STATE, k), (FAB_PLANE_DISABLE, k)] s t ∧ { t with regs := s.regs } = s) ∧
    (∀ (m : Master) (b : Bool), s.mayFab m.val = false → Yields (.planeDisable plane m b) s fun t => t.rd FAB_PLANE_DISABLE k = s.rd FAB_PLANE_DISABLE k ∧
      t.rd FAB_PLANE_STATE k = s.rd FAB_PLANE_STATE k ∧ t.fab = s.fab)) ∧
  (∀ (p : Fin 10) (s : State),
    (∀ h hs, s.fab.squall = h :: hs → h.plane = p.val → p.val < 8 → h.left = 0 ∨ h.since + 1000 ≤ s.wall → Yields (.squallReorderRelease p) s fun t =>
      t.out = s.out ++ (if s.portLit p.val = true ∧ s.rd FAB_PLANE_STATE p.val = 2 then [.fabric p.val h.data] else []) ∧
      t.fab.squall = (hs.map fun x => if x.plane = p.val then { x with left := x.left - 1 } else x) ∧ t.regs = s.regs) ∧
    (∀ h hs, s.twn.squall = h :: hs → h.port + 8 = p.val → h.left = 0 ∨ h.since + 1000 ≤ s.wall → Yields (.squallReorderRelease p) s fun t =>
      t.out = s.out ++ (if s.portLit p.val = true then [h.frame] else []) ∧
      t.twn.squall = (hs.map fun x => if x.port = h.port then { x with left := x.left - 1 } else x) ∧ t.regs = s.regs) ∧
    (s.fab.squall = [] → s.twn.squall = [] → Yields (.squallReorderRelease p) s (· = s)))

/-- R325, R326, R335, R340, R348, R351, R356, R358, R359, R363, R366: a target discards a packet with a bad CRC or form and counts it; a request that passes meets its context and asks
the stack through the Harbour station's memory channel (log 21); a store is applied once, an atomic performed once, one at a time in its 32 B unit, and its copies answered from the
reply cache; a request it refuses performs no access. -/
def Says.FabricTargets : Prop :=
  ∀ (plane : Fin 8) (bs : List Byte) (s : State),
    let k := plane.val
    let p := pktOf bs
    let a := p.off / 32 * 32
    let held := fun t : State => smGet (fun _ => 0) t.fab.held (k * 4 + p.vc) = smGet (fun _ => 0) s.fab.held (k * 4 + p.vc) + (bs.length + 63) / 64
    let answers := fun (code pmask plen : Nat) (data : List Byte) (t : State) => held t ∧ t.fab.outq = s.fab.outq ++ [(k, ⟨p.typ + 3, 1, p.src, p.dst, p.attempt, false, p.flow, p.pathEpoch,
      pmask, p.seq, p.off, plen, 0, 0, 0, false, code, p.midx, p.req, data⟩)]
    let logs := fun (code : Nat) (t : State) => t.rd FAB_TGTLOG_VALID = 1 ∧ (s.rd FAB_TGTLOG_VALID = 0 → t.rd FAB_TGTLOG_CODE = code ∧ t.rd FAB_TGTLOG_OFFSET = p.off ∧
      t.rd FAB_TGTLOG_SRC_NODE = p.src ∧ t.rd FAB_TGTLOG_INFO_FLOW = p.flow ∧ t.rd FAB_TGTLOG_INFO_TYPE = p.typ)
    let size := if p.w64 = true then 8 else 4
    let role := p.role = 7 ∨ (p.role < 5 ∧ p.role = s.rd TID_MROLE_MROLE ∧ p.epoch = s.rd TID_MROLE_MEPOCH)
    let w := s.meet p
    let met := fun t : State => t.fab.ctxs = w.fab.ctxs
    let alive := (s.shg (paStack p.off)).lost = false
    let room := s.fab.ctxs.length < 4096 ∧ ∀ e, e < 64 → s.rd FAB_REPL0_HELD e = 0
    let mine := fun e : Reply => e.node = p.src ∧ e.req = p.req
    let fits := smGet (fun _ => 0) s.fab.held (k * 4 + p.vc) + (bs.length + 63) / 64 ≤ 64
    (s.inCtx p = none → s.fab.ctxs.length < 4096 → w.fab.ctxs = s.fab.ctxs ++ [⟨p.src, p.flow, p.seq, []⟩]) ∧
    (¬fits → ∀ i ∈ ([.ld plane bs, .st plane bs, .atom plane bs, .ldr plane bs, .sta plane bs, .atomr plane bs] : List Instr), Yields i s (· = s)) ∧
    (fits →
    (∀ i ∈ ([.ld plane bs, .st plane bs, .atom plane bs, .ldr plane bs, .sta plane bs, .atomr plane bs] : List Instr),
      (s.pktBad bs = 1 → Yields i s fun t => held t ∧ t.rd FAB_PLANE_CRC_ERR k = min (s.rd FAB_PLANE_CRC_ERR k + 1) 65535 ∧ RegsBut [(FAB_PLANE_CRC_ERR, k)] s t ∧
        t.raised = s.raised ++ [⟨0x53, 0x30, k, none, 0, 0⟩] ∧ t.hbm = s.hbm ∧ t.fab.outq = s.fab.outq) ∧
      (s.pktBad bs = 2 → Yields i s fun t => held t ∧ t.rd FAB_PLANE_MALFORMED k = min (s.rd FAB_PLANE_MALFORMED k + 1) 65535 ∧ RegsBut [(FAB_PLANE_MALFORMED, k)] s t ∧
        t.raised = s.raised ++ [⟨0x53, 0x30, k, none, 0, 0⟩] ∧ t.hbm = s.hbm ∧ t.fab.outq = s.fab.outq)) ∧
    (s.pktBad bs = 0 → s.rd FAB_PLANE_STATE k = 2 →
      (∀ x ∈ ([(.ld plane bs, 1), (.st plane bs, 2), (.atom plane bs, 3)] : List (Instr × Nat)), p.typ = x.2 → s.quietFor p = true → Yields x.1 s fun t =>
        answers 0x07 0 (if p.typ = 2 then p.plen else 0) [] t ∧ t.hbm = s.hbm ∧ t.fab.ctxs = s.fab.ctxs ∧ t.fab.cache = s.fab.cache) ∧
      (s.quietFor p = false →
        (∀ x ∈ ([(.ld plane bs, 1), (.st plane bs, 2)] : List (Instr × Nat)), p.typ = x.2 →
          (w.tooOld p = true → Yields x.1 s fun t => held t ∧ t.regs = s.regs ∧ t.fab.outq = s.fab.outq ∧ t.hbm = s.hbm ∧ t.raised = s.raised) ∧
          (w.tooOld p = false →
            let plen := if p.typ = 2 then p.plen else 0
            (s.rd FAB_NODE_STATE p.src ≠ 1 → Yields x.1 s fun t => answers 0x05 0 plen [] t ∧ logs 0x05 t ∧ t.hbm = s.hbm ∧ met t ∧
              t.raised = s.raised ++ [⟨0x55, 0x30, p.src, none, 0, 0⟩]) ∧
            (s.rd FAB_NODE_STATE p.src = 1 → paOk a p.plen = false → Yields x.1 s fun t => answers 0x04 0 plen [] t ∧ logs 0x04 t ∧ t.hbm = s.hbm ∧ met t ∧
              t.raised = s.raised ++ [⟨0x55, 0x30, p.src, none, 0, 0⟩]) ∧
            (s.rd FAB_NODE_STATE p.src = 1 → paOk a p.plen = true → p.role = 5 ∨ p.role = 6 → Yields x.1 s fun t => answers 0x09 0 plen [] t ∧ logs 0x09 t ∧ t.hbm = s.hbm) ∧
            (s.rd FAB_NODE_STATE p.src = 1 → paOk a p.plen = true → p.role < 5 → p.role ≠ s.rd TID_MROLE_MROLE ∨ p.epoch ≠ s.rd TID_MROLE_MEPOCH → Yields x.1 s fun t => held t ∧
              t.hbm = s.hbm ∧ t.regs = s.regs ∧ ∃ r, t.fab.outq = s.fab.outq ++ [(k, r)] ∧ r.typ = p.typ + 3 ∧ r.code = 0x03 ∧ r.dst = p.src ∧ r.seq = p.seq ∧ r.data = [] ∧
                r.epoch = s.rd TID_MROLE_MEPOCH ∧ r.role = s.rd TID_MROLE_MROLE ∧ r.pmask = s.rd TID_MROLE_FWD_RANK) ∧
            (s.rd FAB_NODE_STATE p.src = 1 → paOk a p.plen = true → role → room →
              (p.typ = 1 → alive → s.portClear 40 → Yields x.1 s fun t => held t ∧ met t ∧ t.fab.outq = s.fab.outq ∧
                s.asks t (.hrb (.target k p)) 40 ⟨1, 0, 0, a, (p.plen + 31) / 32, 0, 0, 0, [], []⟩) ∧
              (p.typ = 2 → w.applied p = false → alive → s.portClear 40 →
                let u := (p.data.length + 31) / 32
                Yields x.1 s fun t => held t ∧ met t ∧ t.fab.outq = s.fab.outq ∧
                  s.asks t (.hrb (.target k p)) 40 ⟨2, 0, 0, a, u, 0, 0, 0, p.data ++ leBytes (32 * u - p.data.length) 0, maskBad p.pmask ((p.plen + 31) / 32)⟩ (some (0, p.data.length))) ∧
              (p.typ = 1 ∨ w.applied p = false → ¬alive → Yields x.1 s fun t => answers 0x02 0 plen [] t ∧ t.hbm = s.hbm ∧ t.regs = s.regs ∧ t.raised = s.raised) ∧
              (p.typ = 2 → w.applied p = true → Yields x.1 s fun t => answers 0x00 0 p.plen [] t ∧ t.hbm = s.hbm ∧ t.regs = s.regs)))) ∧
        (p.typ = 3 → (∀ x ∈ s.fab.atoms, x.2.1.unit ≠ p.unit) →
          (∀ e, s.fab.cache = [e] → mine e → e.flow = p.flow → e.seq = p.seq → Yields (.atom plane bs) s fun t =>
            answers e.code 0 (if e.code = 0 then size else 0) (if e.code = 0 then leBytes size e.old else []) t ∧ t.hbm = s.hbm ∧ t.fab.atoms = s.fab.atoms ∧
            t.rd FAB_ATOM_HITS = min (s.rd FAB_ATOM_HITS + 1) 65535 ∧ RegsBut [(FAB_ATOM_HITS, 0)] s t) ∧
          (∀ e, s.fab.cache = [e] → mine e → e.flow ≠ p.flow ∨ e.seq ≠ p.seq → w.tooOld p = false → Yields (.atom plane bs) s fun t =>
            answers 0x06 0 0 [] t ∧ t.hbm = s.hbm ∧ logs 0x06 t ∧ t.rd FAB_ATOM_STALE = min (s.rd FAB_ATOM_STALE + 1) 65535 ∧
            t.raised = s.raised ++ [⟨0x57, 0x30, p.src, none, 0, 0⟩]) ∧
          ((∀ e ∈ s.fab.cache, ¬ mine e) → w.tooOld p = false → w.applied p = false → s.fab.cache.length + (s.fab.atoms.filter (·.2.2)).length < 4096 →
            s.rd FAB_NODE_STATE p.src = 1 → paOk p.off size = true → p.off % size = 0 → p.aop ≤ 4 → role → room → alive → s.portClear 40 → Yields (.atom plane bs) s fun t =>
            held t ∧ met t ∧ t.fab.outq = s.fab.outq ∧ t.fab.atoms = (k, p, true) :: s.fab.atoms ∧
            s.asks t (.hrb (.target k p)) 40 ⟨1, 0, 0, p.off / 32 * 32, (p.off % 32 + size + 31) / 32, 0, 0, 0, [], []⟩)) ∧
        (p.typ = 3 → (∃ x ∈ s.fab.atoms, x.2.1.unit = p.unit ∧ x.2.2 = true) → Yields (.atom plane bs) s fun t => held t ∧ met t ∧ t.fab.outq = s.fab.outq ∧
          t.fab.atoms = s.fab.atoms ++ [(k, p, false)] ∧ t.hbm = s.hbm ∧ t.regs = s.regs ∧ t.mreqs = s.mreqs))))

/-- R349, R351, R356, R358, R359, R261: the memory channel's answer ends a target's access. A load is answered with what the stack returned, a store with OK or POISON
after its commit; an atomic's operand gives the new value, which is written, and its answer, which the reply cache keeps. -/
def Says.FabricAccessEnds : Prop :=
  ∀ (plane : Fin 8) (shg : Fin 16) (p : Pkt) (s : State) (r : MemReq) (rs : List MemReq) (m : MMsg) (rest : List (Nat × Nat × MMsg)),
    s.mreqs = r :: rs → (∀ x ∈ rs, x.uid ≠ r.uid) → r.q = 40 → r.k = shg.val → s.hrbDone = [] → (∀ x ∈ s.mwait, x.1.q ≠ 40) →
    s.inbox = (40, 24 + shg.val, m) :: rest → r.rid = m.rid → r.code = 0 → m.code = 0 → s.rd FAB_PLANE_STATE plane.val = 2 →
    let k := plane.val
    let answers := fun (code plen : Nat) (data : List Byte) (t : State) => t.inbox = rest ∧ t.mreqs = rs ∧ t.hbm = s.hbm ∧ t.raised = s.raised ∧
      t.fab.ctxs = (s.see p true).fab.ctxs ∧ t.fab.outq = s.fab.outq ++ [(k, ⟨p.typ + 3, 1, p.src, p.dst, p.attempt, false, p.flow, p.pathEpoch,
        0, p.seq, p.off, plen, 0, 0, 0, false, code, p.midx, p.req, data⟩)]
    let whole := r.kind = 1 ∧ m.typ = 3 ∧ (∀ b ∈ m.bad, b = false) ∧ m.off = 0 ∧ m.data.length = 32 * r.len ∧ r.data.length = 32 * r.len ∧ r.bad.length = r.len ∧ m.bad.length = r.len ∧ r.seen = []
    let size := if p.w64 = true then 8 else 4
    let cached := fun (code old : Nat) (t : State) => t.fab.atoms = [] ∧ (s.fab.cache.length < 4096 → t.fab.cache = s.fab.cache ++ [⟨p.src, p.req, p.flow, p.seq, code, old, s.wall⟩] ∧
      t.rd FAB_ATOM_ENTRIES = s.fab.cache.length + 1)
    (r.dest = .hrb (.target k p) →
      (p.typ = 1 → whole → Yields (.rdata 40) s fun t => answers 0x00 p.plen (m.data.take p.plen) t ∧ t.regs = s.regs) ∧
      (p.typ = 2 → r.kind = 2 → m.typ = 4 → Yields (.wack 40) s fun t => answers (if p.pmask = 0 then 0 else 1) p.plen [] t ∧ t.regs = s.regs) ∧
      (p.typ = 3 → whole → s.fab.atoms = [(k, p, true)] →
        let old := leNat ((m.data.drop (p.off % 32)).take size)
        let x := leNat (p.data.take size)
        let y := leNat ((p.data.drop size).take size)
        let int := fun v : Nat => if v < 2 ^ (8 * size - 1) then (v : Int) else (v : Int) - 2 ^ (8 * size)
        let new := if p.aop = 0 then (old + x) % 2 ^ (8 * size) else if p.aop = 1 then x else if p.aop = 2 then (if old = y then x else old)
          else if p.aop = 3 then (if int x < int old then x else old) else (if int old < int x then x else old)
        let o := p.off % 32
        let u := (o + size + 31) / 32
        (p.pmask ≠ 0 → Yields (.rdata 40) s fun t => answers 0x01 0 [] t ∧ cached 1 0 t) ∧
        (p.pmask = 0 → (s.shg (paStack p.off)).lost = false → s.portClear 40 → Yields (.rdata 40) s fun t => t.fab = s.fab ∧ t.inbox = rest ∧
          { s with mreqs := rs, mout := s.mout.filter fun x => !(x.1 == 40 && x.2.1 == 24 + shg.val && x.2.2.rid == r.rid) }.asks t (.hrb (.atomic k p old)) 40
            ⟨2, 0, 0, p.off / 32 * 32, u, 0, 0, 0, leBytes o 0 ++ leBytes size new ++ leBytes (32 * u - o - size) 0, []⟩ (some (o, size))))) ∧
    (∀ old, r.dest = .hrb (.atomic k p old) → r.kind = 2 → m.typ = 4 → s.fab.atoms = [(k, p, true)] → Yields (.wack 40) s fun t =>
      answers 0x00 size (leBytes size old) t ∧ cached 0 old t)

/-- The parts above, together.
The model's choices it rests on: log 21, 61, 62, 79, 99. -/
def Obligations.FabricTargetAccesses : Prop := Says.FabricTargets ∧ Says.FabricAccessEnds

/-- R334, R345, R349, R352, R353, R360: the first response to a sequence number decides its packet: the data goes to the tile's inbound buffer, or for FAB_DIRECT to
HBM, its code reaches the command, which ends with its last packet behind that data; a later one is a duplicate and touches nothing; a late STALE_ATOMIC is logged.
The model's choices it rests on: log 39, 60, 98, 99. -/
def Obligations.FabricResponses : Prop :=
  ∀ (plane : Fin 8) (bs : List Byte) (s : State), s.pktBad bs = 0 →
    let p := pktOf bs
    smGet (fun _ => 0) s.fab.held (plane.val * 4 + p.vc) + (bs.length + 63) / 64 ≤ 64 →
    ∀ x ∈ ([(.ldr plane bs, 4), (.sta plane bs, 5), (.atomr plane bs, 6)] : List (Instr × Nat)), p.typ = x.2 →
      (s.rd FAB_FLOW0_OPEN p.flow = 0 → p.flow ≠ 4095 → Yields x.1 s fun t => t.regs = s.regs ∧ t.fab.pkts = s.fab.pkts ∧ t.fab.cmds = s.fab.cmds ∧ t.tiles = s.tiles) ∧
      (s.rd FAB_FLOW0_OPEN p.flow = 1 → (∀ q ∈ s.fab.pkts, ¬ (q.pkt.flow = p.flow ∧ q.pkt.seq = p.seq ∧ q.sent ≠ none)) → Yields x.1 s fun t =>
        t.rd FAB_FLOW1_DUP_ACK p.flow = min (s.rd FAB_FLOW1_DUP_ACK p.flow + 1) 65535 ∧ t.fab.pkts = s.fab.pkts ∧ t.fab.cmds = s.fab.cmds ∧ t.tiles = s.tiles ∧ t.hbm = s.hbm ∧
        (p.code ≠ 0x06 → RegsBut [(FAB_FLOW1_DUP_ACK, p.flow)] s t ∧ t.raised = s.raised) ∧
        (p.code = 0x06 → t.rd FAB_REQLOG_VALID = 1 ∧ (s.rd FAB_REQLOG_VALID = 0 → t.rd FAB_REQLOG_LATE = 1 ∧ t.rd FAB_REQLOG_CODE = 0x06) ∧
          t.raised = s.raised ++ [⟨0x57, 0x30, p.flow, none, 0, 0⟩])) ∧
      (∀ (q : FabPkt) (rest : List FabPkt) (c : FabCmd) (d : Fin 24) (n : Fin 256) (id : Nat), s.rd FAB_FLOW0_OPEN p.flow = 1 → s.fab.pkts = q :: rest → q.pkt.flow = p.flow →
        q.pkt.seq = p.seq → q.sent ≠ none → q.pkt.typ + 3 = p.typ → (∀ r ∈ rest, ¬ (r.pkt.flow = p.flow ∧ r.pkt.seq = p.seq)) → s.fab.cmds = [c] → c.cid = q.cid →
        c.tile = some (d.val, n.val, id) → c.direct = false → c.code = 0 → c.first = none → c.landing = 0 → p.code = 0 → (s.tile (tileKey d n)).rep = [] →
        let key := tileKey d n
        let data := p.data.take (min q.pkt.plen (c.room - 256 * q.pkt.midx))
        let lands := if p.typ = 4 then inEntries 10 (data.length / 128) (c.addr + 256 * q.pkt.midx) data .more
          else if p.typ = 6 then [⟨10, c.addr, leBytes 8 (leNat p.data), 0, .more⟩] else []
        Yields x.1 s fun t => t.fab.pkts = rest ∧ t.rd FAB_FLOW1_OUTSTANDING p.flow = min 1024 (rest.filter fun r => r.pkt.flow == p.flow).length ∧ t.hbm = s.hbm ∧
          RegsBut [(FAB_FLOW1_OUTSTANDING, p.flow)] s t ∧ (∀ j, j ≠ key → t.tile j = s.tile j) ∧
          ((∃ r ∈ rest, r.cid = c.cid) → t.fab.cmds = [c] ∧ t.tile key = { s.tile key with inq := (s.tile key).inq ++ lands }) ∧
          ((∀ r ∈ rest, r.cid ≠ c.cid) → t.fab.cmds = [] ∧ t.tile key = { s.tile key with inq := (s.tile key).inq ++ lands ++ [⟨10, c.addr, [], 0, .part id 0⟩] })) ∧
      (∀ (q : FabPkt) (c : FabCmd), s.rd FAB_FLOW0_OPEN p.flow = 1 ∨ p.flow = 4095 → s.fab.pkts = [q] → q.pkt.flow = p.flow → q.pkt.seq = p.seq → q.sent ≠ none →
        q.pkt.typ + 3 = p.typ → s.fab.cmds = [c] → c.cid = q.cid → c.tile = none → c.direct = true → c.code = 0 → c.first = none → c.landing = 0 → p.code = 0 →
        (p.typ = 5 → Yields x.1 s fun t => t.fab.cmds = [] ∧ t.fab.pkts = [] ∧ t.rd FAB_DIRECT_CMD_CODE = 0 ∧ t.rd FAB_DIRECT_CMD_BUSY = 0 ∧
          RegsBut [(FAB_FLOW1_OUTSTANDING, p.flow), (FAB_DIRECT_CMD_CODE, 0), (FAB_DIRECT_CMD_BUSY, 0)] s t ∧ t.hbm = s.hbm) ∧
        (p.typ = 4 → q.pkt.midx = 0 → c.addr % 32 = 0 →
          let data := p.data.take (min q.pkt.plen c.room)
          data ≠ [] → (s.shg (paStack c.addr)).lost = false → s.portClear 40 → Yields x.1 s fun t =>
            let u := (data.length + 31) / 32
            t.fab.cmds = [{ c with landing := 1 }] ∧ t.fab.pkts = [] ∧ t.rd FAB_DIRECT_CMD_BUSY = s.rd FAB_DIRECT_CMD_BUSY ∧
            { s with regs := t.regs }.asks t (.hrb (.directLand c.cid)) 40 ⟨2, 0, 0, c.addr, u, 0, 0, 0, data ++ leBytes (32 * u - data.length) 0, maskBad p.pmask ((p.plen + 31) / 32)⟩
              (some (0, data.length)))) ∧
      (∀ (q : FabPkt) (c : FabCmd) (d : Fin 24) (n : Fin 256) (id : Nat), s.rd FAB_FLOW0_OPEN p.flow = 1 → s.fab.pkts = [q] → q.pkt.flow = p.flow → q.pkt.seq = p.seq →
        q.sent ≠ none → q.pkt.typ + 3 = p.typ → s.fab.cmds = [c] → c.cid = q.cid → c.tile = some (d.val, n.val, id) → c.direct = false → c.code = 0 →
        c.first = none → c.landing = 0 →
        p.code = 0x04 ∨ p.code = 0x08 ∨ p.code = 0x02 →
        Yields x.1 s fun t => t.fab.cmds = [] ∧ t.fab.pkts = [] ∧ (t.tile (tileKey d n)).store = (s.tile (tileKey d n)).store ∧ t.rd FAB_REQLOG_VALID = 1 ∧
          (s.rd FAB_REQLOG_VALID = 0 → t.rd FAB_REQLOG_CODE = p.code ∧ t.rd FAB_REQLOG_FADDR = (q.pkt.dst * 2 ^ 46 + q.pkt.off) % 2 ^ 52) ∧
          (t.tile (tileKey d n)).active = (s.tile (tileKey d n)).active ∧ (t.tile (tileKey d n)).inq = (s.tile (tileKey d n)).inq ++ [⟨10, c.addr, [], 0, .part id p.code⟩])

/-- R331, R341, R342, R344, R364 to R366, Table 14-5, Table 15-3: the fabric manager's packets move planes and nodes and tear jobs down; a lost node's contexts and packets end; a teardown
closes the flows, ends their commands and holds QUIET for 2 ms; the owning host starts and ends a drill; FAB_DIRECT moves one access between an HBM buffer and a node; one shorter
than 32 B travels as a packet of 32 B (log 38).
The model's choices it rests on: log 36, 38, 99. -/
def Obligations.FabricManagement : Prop :=
  (∀ (plane : Fin 8) (bs : List Byte) (s : State), s.pktBad bs = 0 →
    let p := pktOf bs
    smGet (fun _ => 0) s.fab.held (plane.val * 4 + p.vc) + (bs.length + 63) / 64 ≤ 64 →
    let byte := fun i : Nat => (p.data.getD i 0).toNat
    p.typ = 7 →
    (∀ i ∈ ([.planeState plane bs, .nodeState plane bs, .teardown plane bs, .flowClose plane bs] : List Instr),
      (1 ≤ byte 0 ∧ byte 0 ≤ 3 ∧ p.src ≠ 63) ∨ (byte 0 = 4 ∧ s.rd FAB_NODE_STATE p.src ≠ 1) ∨ byte 0 = 0 ∨ 5 ≤ byte 0 → Yields i s fun t =>
        t.rd FAB_PLANE_MALFORMED plane.val = min (s.rd FAB_PLANE_MALFORMED plane.val + 1) 65535 ∧ RegsBut [(FAB_PLANE_MALFORMED, plane.val)] s t ∧
        t.raised = s.raised ++ [⟨0x53, 0x30, plane.val, none, 0, 0⟩] ∧ t.fab.pkts = s.fab.pkts ∧ t.fab.ctxs = s.fab.ctxs) ∧
    (byte 0 = 1 → p.src = 63 → byte 1 < 8 →
      let k := byte 1
      (byte 2 = 0 → s.rd FAB_PLANE_STATE k = 1 ∨ s.rd FAB_PLANE_STATE k = 2 → Yields (.planeState plane bs) s fun t => t.rd FAB_PLANE_STATE k = 0 ∧ t.rd FAB_PLANE_DOWN_CAUSE k = 4 ∧
        t.raised = s.raised ++ [⟨0x51, 0x30, k, none, 0, 0⟩] ∧ RegsBut [(FAB_PLANE_STATE, k), (FAB_PLANE_DOWN_CAUSE, k)] s t) ∧
      (byte 2 = 2 → s.rd FAB_PLANE_DISABLE k = 0 → s.rd FAB_PLANE_STATE k = 0 ∨ s.rd FAB_PLANE_STATE k = 1 → k ∈ s.fab.link → s.rd FAB_PLANE_DOWN_CAUSE k = 3 ∨ s.rd FAB_PLANE_DOWN_CAUSE k = 4 →
        Yields (.planeState plane bs) s fun t => t.rd FAB_PLANE_STATE k = 2 ∧ t.rd FAB_PLANE_DOWN_CAUSE k = 0 ∧ t.raised = s.raised ∧
          RegsBut [(FAB_PLANE_STATE, k), (FAB_PLANE_DOWN_CAUSE, k)] s t) ∧
      (byte 2 = 0 ∨ byte 2 = 2 → s.rd FAB_PLANE_STATE k = 3 → Yields (.planeState plane bs) s fun t => t.regs = s.regs ∧ t.raised = s.raised)) ∧
    (byte 0 = 2 → p.src = 63 → byte 1 < 63 → byte 2 < 3 →
      (Yields (.nodeState plane bs) s fun t => t.rd FAB_NODE_STATE (byte 1) = byte 2 ∧ t.rd FAB_NODE_PLANE_MASK (byte 1) = byte 3 ∧ t.hbm = s.hbm) ∧
      (byte 2 ≠ 2 → Yields (.nodeState plane bs) s fun t => RegsBut [(FAB_NODE_STATE, byte 1), (FAB_NODE_PLANE_MASK, byte 1)] s t ∧ t.raised = s.raised ∧
        t.fab.pkts = s.fab.pkts ∧ t.fab.ctxs = s.fab.ctxs) ∧
      (byte 2 = 2 → (∀ q ∈ s.fab.pkts, q.repl = none) → Yields (.nodeState plane bs) s fun t => t.fab.ctxs = (s.fab.ctxs.filter fun c => c.node != byte 1) ∧
        (∀ q ∈ t.fab.pkts, q.pkt.dst ≠ byte 1 ∧ q ∈ s.fab.pkts) ∧
        (∀ q c, s.fab.pkts = [q] → s.fab.cmds = [c] → c.cid = q.cid → c.code = 0 → c.first = none → c.landing = 0 → q.pkt.dst = byte 1 → t.fab.cmds = [] ∧ t.rd FAB_REQLOG_VALID = 1 ∧
          ⟨0x56, 0x30, c.flow, none, 0, 0⟩ ∈ t.raised))) ∧
    (byte 0 = 4 → s.rd FAB_NODE_STATE p.src = 1 → Yields (.flowClose plane bs) s fun t => t.regs = s.regs ∧ t.raised = s.raised ∧
      t.fab.ctxs = s.fab.ctxs.filter fun c => !(c.node == p.src && c.flow == byte 2 + 256 * byte 3)) ∧
    (byte 0 = 3 → p.src = 63 → p.plen = 16 → byte 1 < 3 → byte 2 = 255 ∨ byte 2 < 63 → (∀ i, 3 ≤ i → i < 8 → byte i = 0) →
      let plan := leNat (p.data.drop 8)
      let named := plan = 0 ∨ ∃ j ∈ s.plans, j.plan = plan
      (Yields (.teardown plane bs) s fun t => t.rd FAB_TEAR_REASON = byte 1 ∧ t.rd FAB_TEAR_NODE = (if byte 2 = 255 then 63 else byte 2) ∧
        t.rd FAB_TEAR_COUNT = min (s.rd FAB_TEAR_COUNT + 1) 65535 ∧ ⟨0x59, 0x30, 0, none, 0, 0⟩ ∈ t.raised ∧ t.fab.cache = s.fab.cache) ∧
      (¬ named → Yields (.teardown plane bs) s fun t => RegsBut [(FAB_TEAR_REASON, 0), (FAB_TEAR_NODE, 0), (FAB_TEAR_COUNT, 0)] s t ∧ t.fab.pkts = s.fab.pkts ∧
        t.fab.cmds = s.fab.cmds ∧ t.fab.ctxs = s.fab.ctxs ∧ t.plans = s.plans) ∧
      (named → Yields (.teardown plane bs) s fun t => t.rd FAB_TEAR_QUIET = 1 ∧ t.fab.quiet = s.wall + 200000 ∧ t.rd FAB_CTRL_LOCK = 0 ∧
        (∀ f, f < 4095 → t.rd FAB_FLOW0_OPEN f = 0) ∧ t.rd FAB_FLOW0_OPEN 4095 = s.rd FAB_FLOW0_OPEN 4095 ∧ t.fab.pkts = (s.fab.pkts.filter fun q => q.pkt.flow == 4095) ∧
        t.fab.ctxs = (s.fab.ctxs.filter fun c => c.flow == 4095) ∧ (∀ c ∈ t.fab.cmds, c.flow = 4095) ∧ (s.plans ≠ [] → t.rd FAB_TEAR_VALID = 1)))) ∧
  (∀ s : State,
    (s.rd FAB_TEAR_QUIET = 1 → s.fab.quiet ≤ s.wall → Yields .quietEnd s fun t => t.rd FAB_TEAR_QUIET = 0 ∧ RegsBut [(FAB_TEAR_QUIET, 0)] s t ∧ { t with regs := s.regs } = s) ∧
    (s.rd FAB_TEAR_QUIET = 0 ∨ s.wall < s.fab.quiet → Yields .quietEnd s (· = s)) ∧
    (∀ (m : Master) (target : BitVec 2) (ports : BitVec 8) (ms : BitVec 16),
      (m.val < 2 → s.owns m.val = true → s.rd FAB_SQUALL_CTRL_EN = 0 → target ≠ 3 → Yields (.squallStart m target ports ms) s fun t => t.rd FAB_SQUALL_CTRL_EN = 1 ∧
        t.rd FAB_SQUALL_CTRL_TARGET = target.toNat ∧ t.rd FAB_SQUALL_CTRL_PORTS = ports.toNat ∧ t.rd FAB_SQUALL_CTRL_DURATION_MS = ms.toNat ∧ t.fab.squallAt = s.wall ∧ t.fab.draws = 0 ∧
        t.hbm = s.hbm ∧ t.tiles = s.tiles ∧ t.raised = s.raised) ∧
      (2 ≤ m.val ∨ s.owns m.val = false → Yields (.squallStart m target ports ms) s (· = s)) ∧
      (m.val < 2 → s.owns m.val = true → s.rd FAB_SQUALL_CTRL_EN = 1 → Yields (.squallEnd (some m)) s fun t => t.rd FAB_SQUALL_CTRL_EN = 0 ∧ t.hbm = s.hbm ∧ t.tiles = s.tiles) ∧
      (2 ≤ m.val ∨ s.owns m.val = false → Yields (.squallEnd (some m)) s (· = s))) ∧
    (let ms := s.rd FAB_SQUALL_CTRL_DURATION_MS
     (ms ≠ 0 → s.fab.squallAt + 100000 * ms ≤ s.wall → s.rd FAB_SQUALL_CTRL_EN = 1 → Yields (.squallEnd none) s fun t => t.rd FAB_SQUALL_CTRL_EN = 0 ∧ t.hbm = s.hbm ∧ t.tiles = s.tiles) ∧
     (ms = 0 ∨ s.wall < s.fab.squallAt + 100000 * ms → Yields (.squallEnd none) s (· = s)))) ∧
  (∀ (m : Master) (node : Fin 64) (len : BitVec 9) (aop : BitVec 3) (w64 : Bool) (off : BitVec 46) (buf : BitVec 41) (s : State),
    let w := if w64 = true then 8 else 4
    let size := if aop = 2 then 16 else 8
    let a := off.toNat / 32 * 32
    let n := len.toNat
    let all := ([.fabDirectLoad m node len off buf, .fabDirectStore m node len off buf, .fabDirectAtomic m node aop w64 off buf] : List Instr)
    let sent := fun (op start plen room ao : Nat) (w64 : Bool) (data : List Byte) (s t : State) =>
      t.rd FAB_FLOW1_NEXT_SEQ 4095 = (s.rd FAB_FLOW1_NEXT_SEQ 4095 + 1) % 2 ^ 32 ∧ t.hbm = s.hbm ∧ t.raised = s.raised ∧
      t.fab.cmds = s.fab.cmds ++ [⟨s.fab.nextCid, 4095, node.val, op + 1, none, true, buf.toNat, 0, false, room, 0, none⟩] ∧
      t.fab.pkts = s.fab.pkts ++ [⟨s.fab.nextCid, ⟨op + 1, 0, node.val, s.rd FAB_CTRL_NODE_ID, 0, true, 4095, 0, 0, s.rd FAB_FLOW1_NEXT_SEQ 4095, start, plen, 0, 7, ao, w64, 0, 0, 0, data⟩,
        none, false, true, none⟩]
    let taken := fun t : State => t.rd FAB_DIRECT_CMD_NODE = node.val ∧ t.rd FAB_DIRECT_OFF_OFFSET = off.toNat ∧ t.rd FAB_DIRECT_BUF_ADDR = buf.toNat
    (2 ≤ m.val → s.mayFab m.val = false → ∀ i ∈ all, Yields i s (· = s)) ∧
    (s.mayFab m.val = true → s.rd FAB_DIRECT_CMD_BUSY = 1 → ∀ i ∈ all, Yields i s (· = s)) ∧
    (s.mayFab m.val = true → s.rd FAB_DIRECT_CMD_BUSY = 0 →
      (∀ x ∈ ([(.fabDirectLoad m node len off buf, 0), (.fabDirectStore m node len off buf, 1)] : List (Instr × Nat)),
        let span := if x.2 = 0 then max 1 n else max 32 n
        (paOk buf.toNat span = false → Yields x.1 s fun t => taken t ∧ t.rd FAB_DIRECT_CMD_CODE = 0x04 ∧ t.rd FAB_DIRECT_CMD_BUSY = 0 ∧ t.fab = s.fab ∧ t.hbm = s.hbm ∧
          t.rd FAB_REQLOG_VALID = 1) ∧
        (paOk buf.toNat span = true → a + max 32 n ≤ 2 ^ 46 → n = 0 ∨ 256 < n → Yields x.1 s fun t => taken t ∧ t.rd FAB_DIRECT_CMD_CODE = 0x09 ∧
          t.rd FAB_DIRECT_CMD_BUSY = 0 ∧ t.fab = s.fab ∧ t.hbm = s.hbm ∧ t.raised = s.raised) ∧
        (1 ≤ n → n ≤ 256 → paOk buf.toNat span = true → a + max 32 n ≤ 2 ^ 46 → s.rd FAB_NODE_STATE node.val ≠ 1 → Yields x.1 s fun t => taken t ∧ t.rd FAB_DIRECT_CMD_OP = x.2 ∧
          t.rd FAB_DIRECT_CMD_LEN = n ∧ t.rd FAB_DIRECT_CMD_CODE = 0x02 ∧ t.rd FAB_DIRECT_CMD_BUSY = 0 ∧ t.fab = s.fab ∧ t.hbm = s.hbm ∧
          t.raised = s.raised ++ [⟨0x56, 0x30, 4095, none, 0, 0⟩])) ∧
      (s.rd FAB_NODE_STATE node.val = 1 → s.rd FAB_FLOW0_FAILED 4095 = 0 →
        (1 ≤ n → n ≤ 256 → a + max 32 n ≤ 2 ^ 46 → paOk buf.toNat n = true → s.rd FAB_PLANE_STATE (s.rd FAB_FLOW0_CUR_PLANE 4095) = 2 →
          Yields (.fabDirectLoad m node len off buf) s fun t => taken t ∧ t.rd FAB_DIRECT_CMD_OP = 0 ∧ t.rd FAB_DIRECT_CMD_LEN = n ∧ sent 0 a (max 32 n) n 0 false [] s t) ∧
        ((s.shg (paStack buf.toNat)).lost = false → s.portClear 40 →
          let reads := fun (i : Instr) (op len ao size : Nat) (w64 : Bool) => Yields i s fun t => taken t ∧ t.rd FAB_DIRECT_CMD_OP = op ∧ t.rd FAB_DIRECT_CMD_BUSY = 1 ∧ t.fab = s.fab ∧
            { s with regs := t.regs }.asks t (.hrb (.directRead op node.val ao w64 len off.toNat buf.toNat)) 40
              ⟨1, 0, 0, buf.toNat / 32 * 32, (buf.toNat % 32 + size + 31) / 32, 0, 0, 0, [], []⟩
          (1 ≤ n → n ≤ 256 → a + max 32 n ≤ 2 ^ 46 → paOk buf.toNat (max 32 n) = true → reads (.fabDirectStore m node len off buf) 1 n 0 (max 32 n) false) ∧
          (aop.toNat < 5 → off.toNat % w = 0 → paOk buf.toNat size = true → off.toNat + w ≤ 2 ^ 46 → reads (.fabDirectAtomic m node aop w64 off buf) 2 0 aop.toNat size w64)))) ∧
    (∀ (k : Fin 16) (r : MemReq) (rs : List MemReq) (msg : MMsg) (rest : List (Nat × Nat × MMsg)), s.mreqs = r :: rs → (∀ x ∈ rs, x.uid ≠ r.uid) → r.q = 40 → r.k = k.val →
      s.hrbDone = [] → (∀ x ∈ s.mwait, x.1.q ≠ 40) → s.inbox = (40, 24 + k.val, msg) :: rest → r.rid = msg.rid → r.code = 0 → msg.code = 0 →
      (r.kind = 1 → msg.typ = 3 → (∀ b ∈ msg.bad, b = false) → msg.off = 0 → msg.data.length = 32 * r.len → r.data.length = 32 * r.len → r.seen = [] →
        r.bad = List.replicate r.len false → msg.bad = List.replicate r.len false →
        s.rd FAB_NODE_STATE node.val = 1 → s.rd FAB_PLANE_STATE (s.rd FAB_FLOW0_CUR_PLANE 4095) = 2 →
        let bs := msg.data.drop (buf.toNat % 32)
        (r.dest = .hrb (.directRead 1 node.val 0 false n off.toNat buf.toNat) → 1 ≤ n → n ≤ 256 → buf.toNat % 32 + max 32 n ≤ 32 * r.len → Yields (.rdata 40) s fun t => t.mreqs = rs ∧
          sent 1 a (max 32 n) n 0 false (bs.take (max 32 n)) s t) ∧
        (r.dest = .hrb (.directRead 2 node.val aop.toNat w64 0 off.toNat buf.toNat) → buf.toNat % 32 + size ≤ 32 * r.len →
          let data := (bs.take size).take w ++ (if aop = 2 then ((bs.take size).drop 8).take w else [])
          Yields (.rdata 40) s fun t => t.mreqs = rs ∧ sent 2 off.toNat data.length 0 aop.toNat w64 data s t)) ∧
      (∀ c : FabCmd, r.kind = 2 → msg.typ = 4 → r.dest = .hrb (.directLand c.cid) → s.fab.cmds = [c] → s.fab.pkts = [] → c.direct = true → c.tile = none → c.landing = 1 → c.code = 0 →
        Yields (.wack 40) s fun t => t.fab.cmds = [] ∧ t.rd FAB_DIRECT_CMD_CODE = 0 ∧ t.rd FAB_DIRECT_CMD_BUSY = 0)))

/-- Registers whose write does more than change their own fields, and those whose fields commands of their own write. -/
def actRegs : List Nat :=
  [TPL_MAINT, TID_SWAP, TID_LOAD, TID_MROLE_NEXT, HRN_LS_CTRL, FAB_FLOW0, FAB_PLANE, FAB_DIRECT_CMD, FAB_SQUALL_CTRL, RNG_CFG, RNG_BASE, FRY_CFG, FRY_IDX, SMP_CFG,
    MBX_CTRL, MBX_BIND, MBX_DATA, GLB_RTLOAD, PWR_CTRL, FLT_INJ, BWT_TIGHTEN, BWT_TRIP, GLB_RESET, TWN_CTRL, SEC_ATTEST, SEC_WIPE, STL_SEAL, HDL_BFAULT_LOG, TPL_POISON_LOG,
    SHG_ERRLOG, GLB_HOSTLOG, MBX_LOG, FAB_REQLOG, FAB_TGTLOG, FLT_QUEUE, GLB_DRVVER, STL_READ, HRN_OPTSEL, FAB_CTRL, FAB_REPL0, FAB_REPL1, FAB_NODE, GLB_HOSTCFG, GLB_FWCORE]

/-- R2, R4, R371, R377: a read of BAR0 returns every field and clears the RC fields it covers whole; a write of another master than the owning host or the firmware
changes nothing and is logged; RW fields take a write, RWL fields only while unlocked, W1C bits clear, reserved bits stay. -/
def Obligations.RegisterAccess : Prop :=
  ∀ (m : Master) (s : State), s.rst.held = false →
    (∀ p : Fin 8, let n := p.val
      let word := s.rd FAB_PLANE_STATE n + 4 * s.rd FAB_PLANE_DISABLE n + 8 * s.rd FAB_PLANE_DOWN_CAUSE n + 2 ^ 8 * s.rd FAB_PLANE_DETOURS n + 2 ^ 24 * s.rd FAB_PLANE_CRC_ERR n +
        2 ^ 40 * s.rd FAB_PLANE_MALFORMED n
      (Yields (.readClear m false (BitVec.ofNat 26 (0x900100 + 8 * n)) 8) s fun t => t.out = s.out ++ [.reply (leBytes 8 word) false] ∧ t.rd FAB_PLANE_DETOURS n = 0 ∧
        t.rd FAB_PLANE_CRC_ERR n = 0 ∧ t.rd FAB_PLANE_MALFORMED n = 0 ∧ RegsBut [(FAB_PLANE_DETOURS, n), (FAB_PLANE_CRC_ERR, n), (FAB_PLANE_MALFORMED, n)] s t ∧
        { t with regs := s.regs, out := s.out } = s) ∧
      (Yields (.readClear m false (BitVec.ofNat 26 (0x900100 + 8 * n)) 4) s fun t => t.out = s.out ++ [.reply (leBytes 4 (word % 2 ^ 32)) false] ∧ t.rd FAB_PLANE_DETOURS n = 0 ∧
        RegsBut [(FAB_PLANE_DETOURS, n)] s t)) ∧
    (Yields (.readClear m false 0x900020 8) s (· = { s with out := s.out ++ [.reply (List.replicate 8 0) false] })) ∧
    (∀ (a : BitVec 26) (size : Nat), size = 4 ∨ size = 8 → a.toNat % size = 0 →
      let base := a.toNat / 8 * 8
      let lo := 8 * (a.toNat - base)
      let reply := fun t : State => t.out = s.out ++ [.reply (leBytes size (bitsN (s.bar0Word base) lo (8 * size))) false] ∧ { t with regs := s.regs, out := s.out } = s
      (regAt base = none → Yields (.readClear m false a size) s fun t => reply t ∧ t.regs = s.regs) ∧
      (∀ r i, regAt base = some (r, i) → s.rd PWR_STATE_STATE ≠ 4 → Yields (.readClear m false a size) s fun t => reply t ∧
        rfWord t.regs r.no i = BitVec.ofNat 64 (readClear lo (8 * size) r.fields (rfWord s.regs r.no i).toNat) ∧
        ∀ key, key ≠ regKey r.no i → smGet regDefault t.regs key = smGet regDefault s.regs key)) ∧
    (∀ (a : BitVec 26) (size : Nat), 0x9020 ≤ a.toNat → Yields (.readClear m true a size) s (· = { s with out := s.out ++ [.reply (leBytes size 0) false] })) ∧
    (∀ (a : BitVec 26) (size : Nat) (d : W64) (r : RegSpec) (i : Nat), size = 4 ∨ size = 8 → a.toNat % size = 0 → regAt (a.toNat / 8 * 8) = some (r, i) → s.mayWrite m.val r.no i = true →
      s.frozen r.no i = false → r.no ∉ actRegs →
      let lo := 8 * (a.toNat - a.toNat / 8 * 8)
      Yields (.registerWrite m (.bar0 a size d)) s fun t => { t with regs := s.regs } = s ∧
        rfWord t.regs r.no i = BitVec.ofNat 64 (writeImage (s.locked r.no i) lo (8 * size) (d.toNat * 2 ^ lo) r.fields (rfWord s.regs r.no i).toNat) ∧
        ∀ key, key ≠ regKey r.no i → smGet regDefault t.regs key = smGet regDefault s.regs key) ∧
    (∀ (a : BitVec 26) (size : Nat), (size ≠ 4 ∧ size ≠ 8) ∨ a.toNat % size ≠ 0 → Yields (.readClear m false a size) s fun t =>
      t.out = s.out ++ [.aer (m.val % 2) 1, .replyError 0x04] ∧ t.rd GLB_HOSTLOG_VALID = 1 ∧
      (s.rd GLB_HOSTLOG_VALID = 0 → t.rd GLB_HOSTLOG_CODE = 0x04 ∧ t.rd GLB_HOSTLOG_PORT = m.val % 2 ∧ t.rd GLB_HOSTLOG_BAR = 0 ∧ t.rd GLB_HOSTLOG_OFFSET = a.toNat)) ∧
    ((2 ≤ m.val ∧ m.val ≠ 9) ∨ s.owns m.val = true →
      (∀ (n : Fin 64) (d : W64), d.toNat % 4 ≠ 2 → Yields (.registerWrite m (.bar0 (BitVec.ofNat 26 (0x901000 + 8 * n.val)) 8 d)) s fun t => t.rd FAB_NODE_STATE n.val = d.toNat % 4 ∧
        t.rd FAB_NODE_PLANE_MASK n.val = d.toNat / 256 % 256 ∧ RegsBut [(FAB_NODE_STATE, n.val), (FAB_NODE_PLANE_MASK, n.val)] s t ∧ { t with regs := s.regs } = s) ∧
      (∀ (r : Fin 256) (d : W64),
        (s.rd FAB_CTRL_LOCK = 1 → Yields (.registerWrite m (.bar0 (BitVec.ofNat 26 (0x902000 + 8 * r.val)) 8 d)) s fun t => RegsBut [] s t ∧ { t with regs := s.regs } = s) ∧
        (s.rd FAB_CTRL_LOCK = 0 → Yields (.registerWrite m (.bar0 (BitVec.ofNat 26 (0x902000 + 8 * r.val)) 8 d)) s fun t => t.rd FAB_RANK_NODE r.val = d.toNat % 64 ∧
          t.rd FAB_RANK_VALID r.val = d.toNat / 128 % 2 ∧ t.rd FAB_RANK_PLANE_MASK r.val = d.toNat / 256 % 256 ∧
          RegsBut [(FAB_RANK_NODE, r.val), (FAB_RANK_VALID, r.val), (FAB_RANK_PLANE_MASK, r.val)] s t ∧ { t with regs := s.regs } = s)) ∧
      (∀ d : W64, d.getLsbD 60 = true → Yields (.registerWrite m (.bar0 0x918000 8 d)) s fun t => t.rd FAB_REQLOG_VALID = 0 ∧ t.rd FAB_REQLOG_MULTI = 0 ∧
        t.rd FAB_REQLOG_INFO_COUNT = 0 ∧ RegsBut [(FAB_REQLOG_VALID, 0), (FAB_REQLOG_MULTI, 0), (FAB_REQLOG_INFO_COUNT, 0)] s t ∧ { t with regs := s.regs } = s) ∧
      (∀ d : W64, d.getLsbD 60 = false → s.rd FAB_REQLOG_VALID = 1 → Yields (.registerWrite m (.bar0 0x918000 8 d)) s fun t => RegsBut [] s t ∧ { t with regs := s.regs } = s)) ∧
    (m.val < 2 → s.owns m.val = false → ∀ (n : Fin 64) (d : W64), Yields (.registerWrite m (.bar0 (BitVec.ofNat 26 (0x901000 + 8 * n.val)) 8 d)) s fun t =>
      t.rd FAB_NODE_STATE n.val = s.rd FAB_NODE_STATE n.val ∧ t.rd FAB_NODE_PLANE_MASK n.val = s.rd FAB_NODE_PLANE_MASK n.val ∧ t.out = s.out ++ [.aer m.val 1] ∧
      t.rd GLB_HOSTLOG_VALID = 1 ∧ (s.rd GLB_HOSTLOG_VALID = 0 → t.rd GLB_HOSTLOG_CODE = 0x05 ∧ t.rd GLB_HOSTLOG_OFFSET = 0x901000 + 8 * n.val)) ∧
    (∀ b, Yields (.registerWrite m (.busMaster b)) s fun t => t.regs = s.regs ∧ t.out = s.out ∧ (t.port (m.val % 2)).busMaster = b ∧ t.port (1 - m.val % 2) = s.port (1 - m.val % 2))

/-- Step (the queue is the model's form of the block's interface): a step takes the command in front of the queue and runs it with the rest of the queue; an empty queue idles (log 47).
The model's choices it rests on: log 47. -/
def Obligations.StepRunsTheFront : Prop :=
  (∀ (c : Instr) (s : State) (rest : List Instr), step { s with pending := c :: rest } = exec c { s with pending := rest }) ∧
  (∀ s : State, s.pending = [] → step s = .next s)

/-- Every command of the table completes in every state, leaves the waiting commands as they are and takes back nothing that the block has sent.
The model's choices it rests on: log 9. -/
def Obligations.EveryCommandCompletes : Prop :=
  ∀ (i : Instr) (s : State), Yields i s fun t => t.pending = s.pending ∧ s.out <+: t.out

/-- R84, R87, R89, R92 to R95: in every slot, the word of an operation decodes to that operation with every operand, and a word that decodes with no reserved bit set is the word of
its operation; a bundle is its five slots. -/
def Obligations.SlotsDecodeAndEncode : Prop :=
  (∀ i : Instr,
    (isControl i = true → ∃ pt, decodeControl pt (encodeControl i) = some (i, false)) ∧ (isScalar i = true → ∃ pt, decodeScalar pt (encodeScalar i) = some (i, false)) ∧
    (isVector i = true → ∃ pt, decodeVector pt (encodeVector i) = some (i, false)) ∧ (isMatrix i = true → ∃ pt, decodeMatrix pt (encodeMatrix i) = some (i, false)) ∧
    (isMove i = true → ∃ pt, decodeMove pt (encodeMove i) = some (i, false))) ∧
  (∀ (pt : At) (i : Instr),
    (∀ w, decodeControl pt w = some (i, false) → isControl i = true → encodeControl i = w) ∧ (∀ w, decodeScalar pt w = some (i, false) → isScalar i = true → encodeScalar i = w) ∧
    (∀ w, decodeVector pt w = some (i, false) → isVector i = true → encodeVector i = w) ∧ (∀ w, decodeMatrix pt w = some (i, false) → isMatrix i = true → encodeMatrix i = w) ∧
    (∀ w, decodeMove pt w = some (i, false) → isMove i = true → encodeMove i = w)) ∧
  (∀ b : Bundle, splitBundle (joinBundle b) = b) ∧ (∀ w : W256, joinBundle (splitBundle w) = w)

/-- The spec's worked encodings: three control slots (R88), TIDEW and OTXA (R143 to R146), the span-1 MMA of the matrix example (R113), and the
headers of a null swell and its makeup (R225). -/
def Obligations.WorkedEncodings : Prop :=
  ∀ pt : At,
    decodeControl pt 0x021000C3 = some (.loopi pt ⟨3, 0x021⟩, false) ∧ decodeControl pt 0x00100A81 = some (.brc pt ⟨2, 5, 0x040⟩, false) ∧
    decodeControl pt 0x00001884 = some (.waitc pt ⟨2, false, 3⟩, false) ∧ decodeControl pt 0x00004985 = some (.tidew pt ⟨6, 9⟩, false) ∧
    decodeMove pt 0x088101C08310 = some (.otxa pt ⟨3, 8, 0, 7, 32, 17⟩, false) ∧
    decodeMatrix pt 0x01010413A401 = some (.mma pt ⟨0, 1, 0xA, 3, 1, 2, 4, 0, true, false, false, false, false⟩, false) ∧
    (Swell.head ⟨2, true, 0x06, 23, 0x10, 9, 600, 0x0A5C, [], []⟩).map BitVec.toNat = [0x12, 0x06, 0x17, 0x10, 0x09, 0x96, 0x5C, 0x0A, 0, 0, 0, 0] ∧
    leNat ((Swell.head ⟨3, false, 0x06, 23, 0x10, 9, 600, 0x0A5C, [], []⟩).take 8) = 0x0A5C960910170603

/-- R21, R188, R213, R237, R258, R277, R296, R319, R345, R392, R413, R431, R474, R511: after reset nothing waits, nothing has been sent, HBM and the tiles hold nothing, and the registers
hold the reset values their tables give. -/
def Says.ResetState : Prop :=
  let s := State.reset
  s.pending = [] ∧ s.out = [] ∧ s.hbm = [] ∧ s.tiles = [] ∧ s.plans = [] ∧ s.fab.pkts = [] ∧ s.notes = [] ∧
  s.rd GLB_MODULE_ID_FAMILY = 0x16 ∧ s.rd TID_STATUS_PWR_MODE = 1 ∧ s.rd HRN_CTRL_CAREEN_EN = 1 ∧ s.rd HRN_CTRL_CAREEN_MAX = 32 ∧ s.rd HRN_LS_CTRL_SWAP_EN = 1 ∧
  s.rd TID_TURN_RANK = 0xFF ∧ s.rd SMP_CTRL_TIMEOUT_CYC = 4 ∧ s.rd FAB_CTRL_DETOUR_TO = 20 ∧ s.rd FAB_CTRL_PLANE_TRIP = 16 ∧ s.rd FAB_CTRL_NODE_VALID = 0 ∧
  s.rd FAB_SQUALL_RATE_DELAY = 1 ∧ s.rd BWT_TRIP_STATION = 0xFF ∧ s.rd GLB_POST_ERR_STATION = 0xFF ∧ s.rd TWN_CTRL_SILENCE_FENCE = 1 ∧ s.rd BWT_STATUS_SAFE = 0 ∧
  (∀ d, d < 24 → s.rd TPL_CTRL_MOOR_LIMIT d = 15 ∧ s.rd TID_ROLE_SLOT d = 31 ∧ s.rd TID_ROLE_ROLE d = 0) ∧
  (∀ k, k < 16 → s.rd SHG_STATUS_SERVICE k = 1 ∧ s.rd SHG_CTRL_SCRUB_HOURS k = 24) ∧
  (∀ n, n < 64 → s.rd FAB_NODE_PLANE_MASK n = 0xFF ∧ s.rd FAB_NODE_STATE n = 0 ∧ s.rd SMP_CFG_TOPK n = 256 ∧ s.rd SMP_TEMP_TEMP n = 0x3F800000 ∧ s.rd SMP_STOP_STOP0 n = 0xFFFFFFFF) ∧
  (∀ c, c < 32 → s.rd FRY_PERIOD_PERIOD c = 1024) ∧ (∀ r, r < 128 → s.rd RNG_CFG_HB_TIMEOUT r = 20 ∧ s.rd RNG_CFG_ENABLE r = 0) ∧ (∀ c, c < 8 → s.rd GLB_FWCORE_WDT_MS c = 1000)

/-- The memory and register file are in canonical form: addresses strictly rise and no entry equals what an unlisted address or register reads as. -/
def Canonical (s : State) : Prop := Memory.wf s.hbm = true ∧ smWf regDefault s.regs = true

/-- A step from any state in canonical form leaves a state in canonical form.
The model's choices it rests on: log 1. -/
def Obligations.EveryStepKeepsCanonicalForm : Prop := ∀ s t : State, Canonical s → step s = .next t → Canonical t

/-- The reset state is in canonical form. -/
def Says.ResetIsCanonical : Prop := Canonical State.reset

/-- The parts above, together.
The model's choices it rests on: log 1, 10, 11, 82. -/
def Obligations.ResetLeavesTheTableValues : Prop := Says.ResetState ∧ Says.ResetIsCanonical
end

