-- ==== Sys2Proof/Laws/SMap.lean ====
section
/-! SUPPORT. Laws of sparse maps: a read after a write, and that every write keeps the canonical form. -/
namespace Sys2Proof.Machine

section reads
variable {α : Type} (d : Nat → α)

theorem smGet_lt {m : SMap α} {j k : Nat} {b : α} (h : k < j) : smGet d ((j, b) :: m) k = d k := by
  simp [smGet, h, Nat.ne_of_lt h]

theorem smGet_gt {m : SMap α} {j k : Nat} {b : α} (h : j < k) : smGet d ((j, b) :: m) k = smGet d m k := by
  simp [smGet, Nat.ne_of_gt h, Nat.lt_asymm h]

@[simp] theorem smGet_head {m : SMap α} {k : Nat} {b : α} : smGet d ((k, b) :: m) k = b := by simp [smGet]

theorem smGet_smSkip {m : SMap α} {j k : Nat} (h : j < k) : smGet d (smSkip j m) k = smGet d m k := by
  induction m with
  | nil => rfl
  | cons e m ih =>
    obtain ⟨i, b⟩ := e
    simp only [smSkip]
    split
    · rw [ih, smGet_gt d (by omega)]
    · rfl

theorem smGet_smSkip_le {m : SMap α} {j k : Nat} (h : k ≤ j) : smGet d (smSkip j m) k = d k := by
  induction m with
  | nil => rfl
  | cons e m ih =>
    obtain ⟨i, b⟩ := e
    simp only [smSkip]
    split
    · exact ih
    · exact smGet_lt d (by omega)

end reads

section writes
variable {α : Type} [DecidableEq α] (d : Nat → α)

/-- A read after a write: the written key holds the value, every other key what it held. -/
theorem smGet_smSet (m : SMap α) (k : Nat) (a : α) (i : Nat) :
    smGet d (smSet d m k a) i = if i = k then a else smGet d m i := by
  induction m with
  | nil =>
    simp only [smSet]
    split <;> rename_i h
    · split <;> simp_all [smGet]
    · simp only [smGet]; split <;> simp
  | cons e m ih =>
    obtain ⟨j, b⟩ := e
    simp only [smSet]
    by_cases hkj : k = j
    · subst hkj
      simp only [if_true]
      by_cases hd : a = d k
      · rw [if_pos hd]
        rcases Nat.lt_trichotomy i k with h | h | h
        · rw [smGet_smSkip_le d (by omega), if_neg (by omega), smGet_lt d h]
        · subst h; rw [smGet_smSkip_le d (Nat.le_refl i), if_pos rfl, hd]
        · rw [smGet_smSkip d h, if_neg (by omega), smGet_gt d h]
      · rw [if_neg hd]; simp only [smGet]; split <;> simp_all
    · rw [if_neg hkj]
      by_cases hlt : k < j
      · rw [if_pos hlt]
        by_cases hd : a = d k
        · rw [if_pos hd]
          by_cases hi : i = k
          · subst hi; rw [if_pos rfl, smGet_lt d hlt, hd]
          · rw [if_neg hi]
        · rw [if_neg hd]
          by_cases hi : i = k
          · subst hi; simp
          · rw [if_neg hi]
            rcases Nat.lt_or_gt_of_ne hi with h | h
            · rw [smGet_lt d h, smGet_lt d (by omega)]
            · rw [smGet_gt d h]
      · rw [if_neg hlt]
        have hjk : j < k := by omega
        rcases Nat.lt_trichotomy i j with h | h | h
        · rw [smGet_lt d h, if_neg (by omega), smGet_lt d h]
        · subst h; rw [smGet_head, if_neg (by omega), smGet_head]
        · rw [smGet_gt d h, ih, smGet_gt d h]

@[simp] theorem smGet_smSet_same (m : SMap α) (k : Nat) (a : α) : smGet d (smSet d m k a) k = a := by
  rw [smGet_smSet, if_pos rfl]
theorem smGet_smSet_ne (m : SMap α) {k i : Nat} (a : α) (h : i ≠ k) : smGet d (smSet d m k a) i = smGet d m i := by
  rw [smGet_smSet, if_neg h]

theorem smGet_smRun_lt {k i : Nat} (h : i < k) (as : List α) : smGet d (smRun d k as) i = d i := by
  induction as generalizing k with
  | nil => rfl
  | cons a as ih =>
    simp only [smRun]
    split
    · exact ih (by omega)
    · exact smGet_lt d h

/-- Reading through a run and what follows it, when that starts after the run. -/
theorem smGet_smRun_append {k i : Nat} (as : List α) (m : SMap α)
    (hm : i < k + as.length → smGet d m i = d i) :
    smGet d (smRun d k as ++ m) i =
      if k ≤ i ∧ i < k + as.length then as.getD (i - k) (d i) else smGet d m i := by
  induction as generalizing k with
  | nil => rw [if_neg (by simp only [List.length_nil]; omega)]; rfl
  | cons a as ih =>
    have hl : (a :: as).length = as.length + 1 := rfl
    have hm' : i < k + 1 + as.length → smGet d m i = d i := fun h => hm (by omega)
    by_cases hd : a = d k
    · have e : smRun d k (a :: as) = smRun d (k + 1) as := by simp only [smRun]; rw [if_pos hd]
      rw [e, ih hm']
      rcases Nat.lt_trichotomy i k with h | h | h
      · rw [if_neg (by omega), if_neg (by omega)]
      · subst h
        rw [if_neg (by omega), if_pos (by omega), Nat.sub_self, List.getD_cons_zero, hm (by omega)]; exact hd.symm
      · have hi : i - k = (i - (k + 1)) + 1 := by omega
        rw [hi, List.getD_cons_succ]
        by_cases hh : k + 1 ≤ i ∧ i < k + 1 + as.length
        · rw [if_pos hh, if_pos (by omega)]
        · rw [if_neg hh, if_neg (by omega)]
    · have e : smRun d k (a :: as) ++ m = (k, a) :: (smRun d (k + 1) as ++ m) := by
        simp only [smRun]; rw [if_neg hd, List.cons_append]
      rw [e]
      rcases Nat.lt_trichotomy i k with h | h | h
      · rw [smGet_lt d h, if_neg (by omega), hm (by omega)]
      · subst h
        rw [smGet_head, if_pos (by omega), Nat.sub_self, List.getD_cons_zero]
      · have hi : i - k = (i - (k + 1)) + 1 := by omega
        rw [smGet_gt d h, ih hm', hi, List.getD_cons_succ]
        by_cases hh : k + 1 ≤ i ∧ i < k + 1 + as.length
        · rw [if_pos hh, if_pos (by omega)]
        · rw [if_neg hh, if_neg (by omega)]

/-- A read after a run of writes. -/
theorem smGet_smSplice (m : SMap α) (k : Nat) (as : List α) (i : Nat) :
    smGet d (smSplice d m k as) i =
      if k ≤ i ∧ i < k + as.length then as.getD (i - k) (d i) else smGet d m i := by
  cases as with
  | nil => rw [if_neg (by simp only [List.length_nil]; omega)]; cases m <;> rfl
  | cons a as =>
    have hl : (a :: as).length = as.length + 1 := rfl
    induction m with
    | nil =>
      simp only [smSplice]
      have h := smGet_smRun_append d (k := k) (i := i) (a :: as) [] (fun _ => rfl)
      rwa [List.append_nil] at h
    | cons e m ih =>
      obtain ⟨j, b⟩ := e
      simp only [smSplice]
      split
      · rename_i hj
        rcases Nat.lt_trichotomy i j with h | h | h
        · rw [smGet_lt d h, if_neg (by omega), smGet_lt d h]
        · subst h; rw [smGet_head, if_neg (by omega), smGet_head]
        · rw [smGet_gt d h, ih, smGet_gt d h]
      · rename_i hj
        rw [smGet_smRun_append]
        · by_cases hh : k ≤ i ∧ i < k + (a :: as).length
          · rw [if_pos hh, if_pos hh]
          · rw [if_neg hh, if_neg hh]
            by_cases hk : k ≤ i
            · exact smGet_smSkip d (by omega)
            · rw [smGet_smSkip_le d (by omega), smGet_lt d (by omega)]
        · intro h; exact smGet_smSkip_le d (by omega)

/-! ### The canonical form -/

theorem smWfFrom_cons {lo k : Nat} {a : α} {m : SMap α} :
    smWfFrom d lo ((k, a) :: m) = true ↔ lo ≤ k ∧ a ≠ d k ∧ smWfFrom d (k + 1) m = true := by
  simp only [smWfFrom, Bool.and_eq_true, decide_eq_true_eq, and_assoc]

theorem smWfFrom_mono {lo lo' : Nat} {m : SMap α} (h : lo ≤ lo') (w : smWfFrom d lo' m = true) : smWfFrom d lo m = true := by
  cases m with
  | nil => rfl
  | cons e m =>
    obtain ⟨j, b⟩ := e
    rw [smWfFrom_cons] at *
    exact ⟨by omega, w.2⟩

theorem smWfFrom_smSkip {lo k : Nat} {m : SMap α} (w : smWfFrom d lo m = true) :
    smWfFrom d (max lo (k + 1)) (smSkip k m) = true := by
  induction m generalizing lo with
  | nil => rfl
  | cons e m ih =>
    obtain ⟨j, b⟩ := e
    rw [smWfFrom_cons] at w
    simp only [smSkip]
    split
    · exact smWfFrom_mono d (by omega) (ih w.2.2)
    · rw [smWfFrom_cons]; exact ⟨by omega, w.2⟩

theorem smWfFrom_smSet {lo k : Nat} {m : SMap α} (a : α) (h : lo ≤ k) (w : smWfFrom d lo m = true) :
    smWfFrom d lo (smSet d m k a) = true := by
  induction m generalizing lo with
  | nil =>
    simp only [smSet]; split
    · rfl
    · rename_i hd; rw [smWfFrom_cons]; exact ⟨h, hd, rfl⟩
  | cons e m ih =>
    obtain ⟨j, b⟩ := e
    have w' := w
    rw [smWfFrom_cons] at w
    simp only [smSet]
    split
    · rename_i hkj; subst hkj
      split
      · exact smWfFrom_mono d (by omega) (smWfFrom_smSkip d (k := k) w.2.2)
      · rename_i hd; rw [smWfFrom_cons]; exact ⟨h, hd, w.2.2⟩
    · split
      · split
        · exact w'
        · rename_i hd; rw [smWfFrom_cons]; exact ⟨h, hd, by rw [smWfFrom_cons]; exact ⟨by omega, w.2⟩⟩
      · rw [smWfFrom_cons]; exact ⟨w.1, w.2.1, ih (by omega) w.2.2⟩

/-- A write keeps the canonical form. -/
theorem smWf_smSet {m : SMap α} (k : Nat) (a : α) (w : smWf d m = true) : smWf d (smSet d m k a) = true :=
  smWfFrom_smSet d a (Nat.zero_le k) w

theorem smWfFrom_smRun {k : Nat} (as : List α) (m : SMap α) (w : smWfFrom d (k + as.length) m = true) :
    smWfFrom d k (smRun d k as ++ m) = true := by
  induction as generalizing k with
  | nil => exact w
  | cons a as ih =>
    have hl : (a :: as).length = as.length + 1 := rfl
    have w' : smWfFrom d (k + 1 + as.length) m = true := smWfFrom_mono d (by omega) w
    simp only [smRun]
    split
    · exact smWfFrom_mono d (by omega) (ih w')
    · rename_i hd; rw [List.cons_append, smWfFrom_cons]; exact ⟨Nat.le_refl k, hd, ih w'⟩

theorem smWfFrom_smSplice {lo k : Nat} {m : SMap α} (as : List α) (h : lo ≤ k) (w : smWfFrom d lo m = true) :
    smWfFrom d lo (smSplice d m k as) = true := by
  cases as with
  | nil => cases m <;> exact w
  | cons a as =>
    have hl : (a :: as).length = as.length + 1 := rfl
    induction m generalizing lo with
    | nil =>
      simp only [smSplice]
      have := smWfFrom_smRun d (k := k) (a :: as) [] rfl
      rw [List.append_nil] at this
      exact smWfFrom_mono d h this
    | cons e m ih =>
      obtain ⟨j, b⟩ := e
      simp only [smSplice]
      split
      · rw [smWfFrom_cons] at *; exact ⟨w.1, w.2.1, ih (by omega) w.2.2⟩
      · exact smWfFrom_mono d h (smWfFrom_smRun d _ _
          (smWfFrom_mono d (by omega) (smWfFrom_smSkip d (k := k + as.length) w)))

/-- A run of writes keeps the canonical form. -/
theorem smWf_smSplice {m : SMap α} (k : Nat) (as : List α) (w : smWf d m = true) : smWf d (smSplice d m k as) = true :=
  smWfFrom_smSplice d as (Nat.zero_le k) w

theorem smWfFrom_filter {lo : Nat} {m : SMap α} (p : Nat × α → Bool) (w : smWfFrom d lo m = true) :
    smWfFrom d lo (m.filter p) = true := by
  induction m generalizing lo with
  | nil => rfl
  | cons e m ih =>
    obtain ⟨j, b⟩ := e
    rw [smWfFrom_cons] at w
    rw [List.filter_cons]
    split
    · rw [smWfFrom_cons]; exact ⟨w.1, w.2.1, ih w.2.2⟩
    · exact smWfFrom_mono d (by omega) (ih w.2.2)

/-- Leaving entries out keeps the canonical form. -/
theorem smWf_filter {m : SMap α} (p : Nat × α → Bool) (w : smWf d m = true) : smWf d (m.filter p) = true :=
  smWfFrom_filter d p w

end writes

/-! ### Byte memories -/

/-- A byte read after a store: the stored bytes from the start address up, every other byte as before. -/
theorem memGet_memStore (m : Mem) (k : Nat) (bs : List Byte) (a : Nat) :
    memGet (memStore m k bs) a = if k ≤ a ∧ a < k + bs.length then bs.getD (a - k) 0 else memGet m a :=
  smGet_smSplice _ m k bs a

theorem memGet_memSet (m : Mem) (k : Nat) (b : Byte) (a : Nat) :
    memGet (memSet m k b) a = if a = k then b else memGet m a := smGet_smSet _ m k b a

theorem Memory.wf_memStore {m : Mem} (k : Nat) (bs : List Byte) (w : Memory.wf m = true) : Memory.wf (memStore m k bs) = true :=
  smWf_smSplice _ k bs w
theorem Memory.wf_memSet {m : Mem} (k : Nat) (b : Byte) (w : Memory.wf m = true) : Memory.wf (memSet m k b) = true :=
  smWf_smSet _ k b w
theorem Memory.wf_filter {m : Mem} (p : Nat × Byte → Bool) (w : Memory.wf m = true) : Memory.wf (m.filter p) = true :=
  smWf_filter _ p w

theorem memBytes_length (m : Mem) (a n : Nat) : (memBytes m a n).length = n := by
  induction n generalizing a with
  | zero => rfl
  | succ n ih => simp only [memBytes, List.length_cons, ih]

end Sys2Proof.Machine
end

