-- ==== Sys2Proof/Laws/Regs.lean ====
section
/-! SUPPORT. Laws of the register file: a field read after a field write. -/
namespace Sys2Proof.Machine

theorem bitsN_lt (v lo w : Nat) : bitsN v lo w < 2 ^ w := Nat.mod_lt _ (Nat.two_pow_pos w)

theorem setBitsN_split (x lo w v : Nat) :
    setBitsN x lo w v = 2 ^ lo * (2 ^ w * (x / 2 ^ (lo + w)) + v % 2 ^ w) + x % 2 ^ lo := by
  simp only [setBitsN, Nat.pow_add, Nat.mul_add]
  rw [Nat.mul_comm (x / (2 ^ lo * 2 ^ w)), Nat.mul_assoc, Nat.mul_comm (v % 2 ^ w)]

theorem setBitsN_div (x lo w v : Nat) : setBitsN x lo w v / 2 ^ lo = 2 ^ w * (x / 2 ^ (lo + w)) + v % 2 ^ w := by
  rw [setBitsN_split, Nat.mul_add_div (Nat.two_pow_pos lo), Nat.div_eq_of_lt (Nat.mod_lt _ (Nat.two_pow_pos lo)), Nat.add_zero]

theorem setBitsN_mod (x lo w v : Nat) : setBitsN x lo w v % 2 ^ lo = x % 2 ^ lo := by
  rw [setBitsN_split, Nat.mul_add_mod, Nat.mod_mod]

theorem setBitsN_high (x lo w v : Nat) : setBitsN x lo w v / 2 ^ (lo + w) = x / 2 ^ (lo + w) := by
  rw [Nat.pow_add, ← Nat.div_div_eq_div_mul, setBitsN_div, Nat.mul_add_div (Nat.two_pow_pos w),
    Nat.div_eq_of_lt (Nat.mod_lt _ (Nat.two_pow_pos w)), Nat.add_zero, ← Nat.pow_add]

/-- A field read after it is written. -/
theorem bitsN_setBitsN (x lo w v : Nat) : bitsN (setBitsN x lo w v) lo w = v % 2 ^ w := by
  simp only [bitsN]; rw [setBitsN_div, Nat.mul_add_mod, Nat.mod_mod]

/-- A field read after a field beside it is written. -/
theorem bitsN_setBitsN_ne (x lo w v lo' w' : Nat) (h : lo' + w' ≤ lo ∨ lo + w ≤ lo') :
    bitsN (setBitsN x lo w v) lo' w' = bitsN x lo' w' := by
  simp only [bitsN]
  rcases h with h | h
  · have e : ∀ y : Nat, y / 2 ^ lo' % 2 ^ w' = y % 2 ^ lo % 2 ^ (lo' + w') / 2 ^ lo' := by
      intro y
      rw [Nat.mod_mod_of_dvd y (Nat.pow_dvd_pow 2 h), Nat.pow_add, Nat.mod_mul_right_div_self]
    rw [e, setBitsN_mod, ← e]
  · have e : ∀ y : Nat, y / 2 ^ lo' = y / 2 ^ (lo + w) / 2 ^ (lo' - (lo + w)) := by
      intro y
      rw [Nat.div_div_eq_div_mul, ← Nat.pow_add]
      congr 2; omega
    rw [e, setBitsN_high, ← e]

theorem setBitsN_lt {x lo w v n : Nat} (hx : x < 2 ^ n) (h : lo + w ≤ n) : setBitsN x lo w v < 2 ^ n := by
  have h1 : setBitsN x lo w v / 2 ^ (lo + w) < 2 ^ (n - (lo + w)) := by
    rw [setBitsN_high, Nat.div_lt_iff_lt_mul (Nat.two_pow_pos _), ← Nat.pow_add]
    rwa [Nat.sub_add_cancel h]
  rw [Nat.div_lt_iff_lt_mul (Nat.two_pow_pos _), ← Nat.pow_add, Nat.sub_add_cancel h] at h1
  exact h1

/-- A field of a 64-bit register. -/
def Fld.fits (f : Fld) : Bool := decide (f.lo + f.wd ≤ 64)
/-- Two fields of one register beside each other. -/
def Fld.apart (f g : Fld) : Bool := decide (g.lo + g.wd ≤ f.lo) || decide (f.lo + f.wd ≤ g.lo)

theorem rfWord_rfSetWord (m : RegFile) (no inst no' inst' : Nat) (v : W64) :
    rfWord (rfSetWord m no inst v) no' inst' = if regKey no' inst' = regKey no inst then v else rfWord m no' inst' :=
  smGet_smSet _ m _ v _

theorem rfSet_word (m : RegFile) (f : Fld) (inst v : Nat) (hf : f.fits = true) :
    (rfWord (rfSet m f inst v) f.reg inst).toNat = setBitsN (rfWord m f.reg inst).toNat f.lo f.wd v := by
  simp only [Fld.fits, decide_eq_true_eq] at hf
  rw [rfSet, rfWord_rfSetWord, if_pos rfl, BitVec.toNat_ofNat]
  exact Nat.mod_eq_of_lt (setBitsN_lt (rfWord m f.reg inst).isLt hf)

/-- A field reads back what was written, cut to its width. -/
theorem State.rd_wr_same (s : State) (f : Fld) (inst v : Nat) (hf : f.fits = true) :
    (s.wr f inst v).rd f inst = v % 2 ^ f.wd := by
  simp only [State.wr, State.rd, rfGet]
  rw [rfSet_word _ _ _ _ hf, bitsN_setBitsN]

/-- Another field of the same register is unchanged. -/
theorem State.rd_wr_apart (s : State) (f g : Fld) (inst v : Nat) (hf : f.fits = true) (hr : g.reg = f.reg)
    (h : f.apart g = true) : (s.wr f inst v).rd g inst = s.rd g inst := by
  simp only [Fld.apart, Bool.or_eq_true, decide_eq_true_eq] at h
  simp only [State.wr, State.rd, rfGet, hr]
  rw [rfSet_word _ _ _ _ hf]
  exact bitsN_setBitsN_ne _ _ _ _ _ _ h

/-- A register elsewhere is unchanged. -/
theorem State.rd_wr_key (s : State) (f g : Fld) (i j v : Nat) (h : regKey g.reg j ≠ regKey f.reg i) :
    (s.wr f i v).rd g j = s.rd g j := by
  simp only [State.wr, State.rd, rfGet, rfSet]
  rw [rfWord_rfSetWord, if_neg h]

theorem regKey_inj {a b i j : Nat} (hi : i < 1048576) (hj : j < 1048576) (h : a ≠ b ∨ i ≠ j) : regKey a i ≠ regKey b j := by
  simp only [regKey]; omega

/-- Another register is unchanged. -/
theorem State.rd_wr_reg (s : State) (f g : Fld) (i j v : Nat) (hi : i < 1048576) (hj : j < 1048576) (h : g.reg ≠ f.reg) :
    (s.wr f i v).rd g j = s.rd g j := s.rd_wr_key f g i j v (regKey_inj hj hi (.inl h))
/-- Another instance is unchanged. -/
theorem State.rd_wr_inst (s : State) (f g : Fld) (i j v : Nat) (hi : i < 1048576) (hj : j < 1048576) (h : j ≠ i) :
    (s.wr f i v).rd g j = s.rd g j := s.rd_wr_key f g i j v (regKey_inj hj hi (.inr h))

theorem State.rd_lt (s : State) (f : Fld) (i : Nat) : s.rd f i < 2 ^ f.wd := bitsN_lt _ _ _

theorem State.wf_regs_wr (s : State) (f : Fld) (i v : Nat) (w : smWf regDefault s.regs = true) :
    smWf regDefault (s.wr f i v).regs = true := smWf_smSet _ _ _ w

end Sys2Proof.Machine
end

