-- ==== Sys2Proof/Laws/State.lean ====
section
/-! SUPPORT. What each named update of the state does to each field: one equation a field, so that no proof unfolds a
record update. -/
namespace Sys2Proof.Machine

variable (s : State)

/-! `wr` -/
@[simp] theorem State.wr_regs (f : Fld) (i v : Nat) : (s.wr f i v).regs = rfSet s.regs f i v := rfl
@[simp] theorem State.wr_tiles (f : Fld) (i v : Nat) : (s.wr f i v).tiles = s.tiles := rfl
@[simp] theorem State.wr_regions (f : Fld) (i v : Nat) : (s.wr f i v).regions = s.regions := rfl
@[simp] theorem State.wr_links (f : Fld) (i v : Nat) : (s.wr f i v).links = s.links := rfl
@[simp] theorem State.wr_barrs (f : Fld) (i v : Nat) : (s.wr f i v).barrs = s.barrs := rfl
@[simp] theorem State.wr_dies (f : Fld) (i v : Nat) : (s.wr f i v).dies = s.dies := rfl
@[simp] theorem State.wr_pool (f : Fld) (i v : Nat) : (s.wr f i v).pool = s.pool := rfl
@[simp] theorem State.wr_fills (f : Fld) (i v : Nat) : (s.wr f i v).fills = s.fills := rfl
@[simp] theorem State.wr_couplers (f : Fld) (i v : Nat) : (s.wr f i v).couplers = s.couplers := rfl
@[simp] theorem State.wr_bandTap (f : Fld) (i v : Nat) : (s.wr f i v).bandTap = s.bandTap := rfl
@[simp] theorem State.wr_hbm (f : Fld) (i v : Nat) : (s.wr f i v).hbm = s.hbm := rfl
@[simp] theorem State.wr_hbmPoison (f : Fld) (i v : Nat) : (s.wr f i v).hbmPoison = s.hbmPoison := rfl
@[simp] theorem State.wr_undec (f : Fld) (i v : Nat) : (s.wr f i v).undec = s.undec := rfl
@[simp] theorem State.wr_reqNo (f : Fld) (i v : Nat) : (s.wr f i v).reqNo = s.reqNo := rfl
@[simp] theorem State.wr_mreqs (f : Fld) (i v : Nat) : (s.wr f i v).mreqs = s.mreqs := rfl
@[simp] theorem State.wr_mwait (f : Fld) (i v : Nat) : (s.wr f i v).mwait = s.mwait := rfl
@[simp] theorem State.wr_ridHold (f : Fld) (i v : Nat) : (s.wr f i v).ridHold = s.ridHold := rfl
@[simp] theorem State.wr_hrbDone (f : Fld) (i v : Nat) : (s.wr f i v).hrbDone = s.hrbDone := rfl
@[simp] theorem State.wr_kvs (f : Fld) (i v : Nat) : (s.wr f i v).kvs = s.kvs := rfl
@[simp] theorem State.wr_kvUndo (f : Fld) (i v : Nat) : (s.wr f i v).kvUndo = s.kvUndo := rfl
@[simp] theorem State.wr_mout (f : Fld) (i v : Nat) : (s.wr f i v).mout = s.mout := rfl
@[simp] theorem State.wr_inbox (f : Fld) (i v : Nat) : (s.wr f i v).inbox = s.inbox := rfl
@[simp] theorem State.wr_jobs (f : Fld) (i v : Nat) : (s.wr f i v).jobs = s.jobs := rfl
@[simp] theorem State.wr_shgs (f : Fld) (i v : Nat) : (s.wr f i v).shgs = s.shgs := rfl
@[simp] theorem State.wr_stns (f : Fld) (i v : Nat) : (s.wr f i v).stns = s.stns := rfl
@[simp] theorem State.wr_air (f : Fld) (i v : Nat) : (s.wr f i v).air = s.air := rfl
@[simp] theorem State.wr_tide (f : Fld) (i v : Nat) : (s.wr f i v).tide = s.tide := rfl
@[simp] theorem State.wr_notes (f : Fld) (i v : Nat) : (s.wr f i v).notes = s.notes := rfl
@[simp] theorem State.wr_light (f : Fld) (i v : Nat) : (s.wr f i v).light = s.light := rfl
@[simp] theorem State.wr_intake (f : Fld) (i v : Nat) : (s.wr f i v).intake = s.intake := rfl
@[simp] theorem State.wr_smps (f : Fld) (i v : Nat) : (s.wr f i v).smps = s.smps := rfl
@[simp] theorem State.wr_ports (f : Fld) (i v : Nat) : (s.wr f i v).ports = s.ports := rfl
@[simp] theorem State.wr_frys (f : Fld) (i v : Nat) : (s.wr f i v).frys = s.frys := rfl
@[simp] theorem State.wr_fryLast (f : Fld) (i v : Nat) : (s.wr f i v).fryLast = s.fryLast := rfl
@[simp] theorem State.wr_rings (f : Fld) (i v : Nat) : (s.wr f i v).rings = s.rings := rfl
@[simp] theorem State.wr_plans (f : Fld) (i v : Nat) : (s.wr f i v).plans = s.plans := rfl
@[simp] theorem State.wr_calmSince (f : Fld) (i v : Nat) : (s.wr f i v).calmSince = s.calmSince := rfl
@[simp] theorem State.wr_fw (f : Fld) (i v : Nat) : (s.wr f i v).fw = s.fw := rfl
@[simp] theorem State.wr_flt (f : Fld) (i v : Nat) : (s.wr f i v).flt = s.flt := rfl
@[simp] theorem State.wr_fab (f : Fld) (i v : Nat) : (s.wr f i v).fab = s.fab := rfl
@[simp] theorem State.wr_stl (f : Fld) (i v : Nat) : (s.wr f i v).stl = s.stl := rfl
@[simp] theorem State.wr_pwr (f : Fld) (i v : Nat) : (s.wr f i v).pwr = s.pwr := rfl
@[simp] theorem State.wr_rst (f : Fld) (i v : Nat) : (s.wr f i v).rst = s.rst := rfl
@[simp] theorem State.wr_sec (f : Fld) (i v : Nat) : (s.wr f i v).sec = s.sec := rfl
@[simp] theorem State.wr_twn (f : Fld) (i v : Nat) : (s.wr f i v).twn = s.twn := rfl
@[simp] theorem State.wr_out (f : Fld) (i v : Nat) : (s.wr f i v).out = s.out := rfl
@[simp] theorem State.wr_raised (f : Fld) (i v : Nat) : (s.wr f i v).raised = s.raised := rfl
@[simp] theorem State.wr_free (f : Fld) (i v : Nat) : (s.wr f i v).free = s.free := rfl
@[simp] theorem State.wr_pending (f : Fld) (i v : Nat) : (s.wr f i v).pending = s.pending := rfl

/-! `wrWord` -/
@[simp] theorem State.wrWord_regs (no i : Nat) (v : W64) : (s.wrWord no i v).regs = rfSetWord s.regs no i v := rfl
@[simp] theorem State.wrWord_tiles (no i : Nat) (v : W64) : (s.wrWord no i v).tiles = s.tiles := rfl
@[simp] theorem State.wrWord_regions (no i : Nat) (v : W64) : (s.wrWord no i v).regions = s.regions := rfl
@[simp] theorem State.wrWord_links (no i : Nat) (v : W64) : (s.wrWord no i v).links = s.links := rfl
@[simp] theorem State.wrWord_barrs (no i : Nat) (v : W64) : (s.wrWord no i v).barrs = s.barrs := rfl
@[simp] theorem State.wrWord_dies (no i : Nat) (v : W64) : (s.wrWord no i v).dies = s.dies := rfl
@[simp] theorem State.wrWord_pool (no i : Nat) (v : W64) : (s.wrWord no i v).pool = s.pool := rfl
@[simp] theorem State.wrWord_fills (no i : Nat) (v : W64) : (s.wrWord no i v).fills = s.fills := rfl
@[simp] theorem State.wrWord_couplers (no i : Nat) (v : W64) : (s.wrWord no i v).couplers = s.couplers := rfl
@[simp] theorem State.wrWord_bandTap (no i : Nat) (v : W64) : (s.wrWord no i v).bandTap = s.bandTap := rfl
@[simp] theorem State.wrWord_hbm (no i : Nat) (v : W64) : (s.wrWord no i v).hbm = s.hbm := rfl
@[simp] theorem State.wrWord_hbmPoison (no i : Nat) (v : W64) : (s.wrWord no i v).hbmPoison = s.hbmPoison := rfl
@[simp] theorem State.wrWord_undec (no i : Nat) (v : W64) : (s.wrWord no i v).undec = s.undec := rfl
@[simp] theorem State.wrWord_reqNo (no i : Nat) (v : W64) : (s.wrWord no i v).reqNo = s.reqNo := rfl
@[simp] theorem State.wrWord_mreqs (no i : Nat) (v : W64) : (s.wrWord no i v).mreqs = s.mreqs := rfl
@[simp] theorem State.wrWord_mwait (no i : Nat) (v : W64) : (s.wrWord no i v).mwait = s.mwait := rfl
@[simp] theorem State.wrWord_ridHold (no i : Nat) (v : W64) : (s.wrWord no i v).ridHold = s.ridHold := rfl
@[simp] theorem State.wrWord_hrbDone (no i : Nat) (v : W64) : (s.wrWord no i v).hrbDone = s.hrbDone := rfl
@[simp] theorem State.wrWord_kvs (no i : Nat) (v : W64) : (s.wrWord no i v).kvs = s.kvs := rfl
@[simp] theorem State.wrWord_kvUndo (no i : Nat) (v : W64) : (s.wrWord no i v).kvUndo = s.kvUndo := rfl
@[simp] theorem State.wrWord_mout (no i : Nat) (v : W64) : (s.wrWord no i v).mout = s.mout := rfl
@[simp] theorem State.wrWord_inbox (no i : Nat) (v : W64) : (s.wrWord no i v).inbox = s.inbox := rfl
@[simp] theorem State.wrWord_jobs (no i : Nat) (v : W64) : (s.wrWord no i v).jobs = s.jobs := rfl
@[simp] theorem State.wrWord_shgs (no i : Nat) (v : W64) : (s.wrWord no i v).shgs = s.shgs := rfl
@[simp] theorem State.wrWord_stns (no i : Nat) (v : W64) : (s.wrWord no i v).stns = s.stns := rfl
@[simp] theorem State.wrWord_air (no i : Nat) (v : W64) : (s.wrWord no i v).air = s.air := rfl
@[simp] theorem State.wrWord_tide (no i : Nat) (v : W64) : (s.wrWord no i v).tide = s.tide := rfl
@[simp] theorem State.wrWord_notes (no i : Nat) (v : W64) : (s.wrWord no i v).notes = s.notes := rfl
@[simp] theorem State.wrWord_light (no i : Nat) (v : W64) : (s.wrWord no i v).light = s.light := rfl
@[simp] theorem State.wrWord_intake (no i : Nat) (v : W64) : (s.wrWord no i v).intake = s.intake := rfl
@[simp] theorem State.wrWord_smps (no i : Nat) (v : W64) : (s.wrWord no i v).smps = s.smps := rfl
@[simp] theorem State.wrWord_ports (no i : Nat) (v : W64) : (s.wrWord no i v).ports = s.ports := rfl
@[simp] theorem State.wrWord_frys (no i : Nat) (v : W64) : (s.wrWord no i v).frys = s.frys := rfl
@[simp] theorem State.wrWord_fryLast (no i : Nat) (v : W64) : (s.wrWord no i v).fryLast = s.fryLast := rfl
@[simp] theorem State.wrWord_rings (no i : Nat) (v : W64) : (s.wrWord no i v).rings = s.rings := rfl
@[simp] theorem State.wrWord_plans (no i : Nat) (v : W64) : (s.wrWord no i v).plans = s.plans := rfl
@[simp] theorem State.wrWord_calmSince (no i : Nat) (v : W64) : (s.wrWord no i v).calmSince = s.calmSince := rfl
@[simp] theorem State.wrWord_fw (no i : Nat) (v : W64) : (s.wrWord no i v).fw = s.fw := rfl
@[simp] theorem State.wrWord_flt (no i : Nat) (v : W64) : (s.wrWord no i v).flt = s.flt := rfl
@[simp] theorem State.wrWord_fab (no i : Nat) (v : W64) : (s.wrWord no i v).fab = s.fab := rfl
@[simp] theorem State.wrWord_stl (no i : Nat) (v : W64) : (s.wrWord no i v).stl = s.stl := rfl
@[simp] theorem State.wrWord_pwr (no i : Nat) (v : W64) : (s.wrWord no i v).pwr = s.pwr := rfl
@[simp] theorem State.wrWord_rst (no i : Nat) (v : W64) : (s.wrWord no i v).rst = s.rst := rfl
@[simp] theorem State.wrWord_sec (no i : Nat) (v : W64) : (s.wrWord no i v).sec = s.sec := rfl
@[simp] theorem State.wrWord_twn (no i : Nat) (v : W64) : (s.wrWord no i v).twn = s.twn := rfl
@[simp] theorem State.wrWord_out (no i : Nat) (v : W64) : (s.wrWord no i v).out = s.out := rfl
@[simp] theorem State.wrWord_raised (no i : Nat) (v : W64) : (s.wrWord no i v).raised = s.raised := rfl
@[simp] theorem State.wrWord_free (no i : Nat) (v : W64) : (s.wrWord no i v).free = s.free := rfl
@[simp] theorem State.wrWord_pending (no i : Nat) (v : W64) : (s.wrWord no i v).pending = s.pending := rfl

/-! `raise` -/
@[simp] theorem State.raise_regs (e : FaultEvt) : (s.raise e).regs = s.regs := rfl
@[simp] theorem State.raise_tiles (e : FaultEvt) : (s.raise e).tiles = s.tiles := rfl
@[simp] theorem State.raise_regions (e : FaultEvt) : (s.raise e).regions = s.regions := rfl
@[simp] theorem State.raise_links (e : FaultEvt) : (s.raise e).links = s.links := rfl
@[simp] theorem State.raise_barrs (e : FaultEvt) : (s.raise e).barrs = s.barrs := rfl
@[simp] theorem State.raise_dies (e : FaultEvt) : (s.raise e).dies = s.dies := rfl
@[simp] theorem State.raise_pool (e : FaultEvt) : (s.raise e).pool = s.pool := rfl
@[simp] theorem State.raise_fills (e : FaultEvt) : (s.raise e).fills = s.fills := rfl
@[simp] theorem State.raise_couplers (e : FaultEvt) : (s.raise e).couplers = s.couplers := rfl
@[simp] theorem State.raise_bandTap (e : FaultEvt) : (s.raise e).bandTap = s.bandTap := rfl
@[simp] theorem State.raise_hbm (e : FaultEvt) : (s.raise e).hbm = s.hbm := rfl
@[simp] theorem State.raise_hbmPoison (e : FaultEvt) : (s.raise e).hbmPoison = s.hbmPoison := rfl
@[simp] theorem State.raise_undec (e : FaultEvt) : (s.raise e).undec = s.undec := rfl
@[simp] theorem State.raise_reqNo (e : FaultEvt) : (s.raise e).reqNo = s.reqNo := rfl
@[simp] theorem State.raise_mreqs (e : FaultEvt) : (s.raise e).mreqs = s.mreqs := rfl
@[simp] theorem State.raise_mwait (e : FaultEvt) : (s.raise e).mwait = s.mwait := rfl
@[simp] theorem State.raise_ridHold (e : FaultEvt) : (s.raise e).ridHold = s.ridHold := rfl
@[simp] theorem State.raise_hrbDone (e : FaultEvt) : (s.raise e).hrbDone = s.hrbDone := rfl
@[simp] theorem State.raise_kvs (e : FaultEvt) : (s.raise e).kvs = s.kvs := rfl
@[simp] theorem State.raise_kvUndo (e : FaultEvt) : (s.raise e).kvUndo = s.kvUndo := rfl
@[simp] theorem State.raise_mout (e : FaultEvt) : (s.raise e).mout = s.mout := rfl
@[simp] theorem State.raise_inbox (e : FaultEvt) : (s.raise e).inbox = s.inbox := rfl
@[simp] theorem State.raise_jobs (e : FaultEvt) : (s.raise e).jobs = s.jobs := rfl
@[simp] theorem State.raise_shgs (e : FaultEvt) : (s.raise e).shgs = s.shgs := rfl
@[simp] theorem State.raise_stns (e : FaultEvt) : (s.raise e).stns = s.stns := rfl
@[simp] theorem State.raise_air (e : FaultEvt) : (s.raise e).air = s.air := rfl
@[simp] theorem State.raise_tide (e : FaultEvt) : (s.raise e).tide = s.tide := rfl
@[simp] theorem State.raise_notes (e : FaultEvt) : (s.raise e).notes = s.notes := rfl
@[simp] theorem State.raise_light (e : FaultEvt) : (s.raise e).light = s.light := rfl
@[simp] theorem State.raise_intake (e : FaultEvt) : (s.raise e).intake = s.intake := rfl
@[simp] theorem State.raise_smps (e : FaultEvt) : (s.raise e).smps = s.smps := rfl
@[simp] theorem State.raise_ports (e : FaultEvt) : (s.raise e).ports = s.ports := rfl
@[simp] theorem State.raise_frys (e : FaultEvt) : (s.raise e).frys = s.frys := rfl
@[simp] theorem State.raise_fryLast (e : FaultEvt) : (s.raise e).fryLast = s.fryLast := rfl
@[simp] theorem State.raise_rings (e : FaultEvt) : (s.raise e).rings = s.rings := rfl
@[simp] theorem State.raise_plans (e : FaultEvt) : (s.raise e).plans = s.plans := rfl
@[simp] theorem State.raise_calmSince (e : FaultEvt) : (s.raise e).calmSince = s.calmSince := rfl
@[simp] theorem State.raise_fw (e : FaultEvt) : (s.raise e).fw = s.fw := rfl
@[simp] theorem State.raise_flt (e : FaultEvt) : (s.raise e).flt = s.flt := rfl
@[simp] theorem State.raise_fab (e : FaultEvt) : (s.raise e).fab = s.fab := rfl
@[simp] theorem State.raise_stl (e : FaultEvt) : (s.raise e).stl = s.stl := rfl
@[simp] theorem State.raise_pwr (e : FaultEvt) : (s.raise e).pwr = s.pwr := rfl
@[simp] theorem State.raise_rst (e : FaultEvt) : (s.raise e).rst = s.rst := rfl
@[simp] theorem State.raise_sec (e : FaultEvt) : (s.raise e).sec = s.sec := rfl
@[simp] theorem State.raise_twn (e : FaultEvt) : (s.raise e).twn = s.twn := rfl
@[simp] theorem State.raise_out (e : FaultEvt) : (s.raise e).out = s.out := rfl
@[simp] theorem State.raise_raised (e : FaultEvt) : (s.raise e).raised = s.raised ++ [e] := rfl
@[simp] theorem State.raise_free (e : FaultEvt) : (s.raise e).free = s.free := rfl
@[simp] theorem State.raise_pending (e : FaultEvt) : (s.raise e).pending = s.pending := rfl
@[simp] theorem State.raise_rd (e : FaultEvt) (h : Fld) (j : Nat) : (s.raise e).rd h j = s.rd h j := rfl

/-! `emit` -/
@[simp] theorem State.emit_regs (o : Out) : (s.emit o).regs = s.regs := rfl
@[simp] theorem State.emit_tiles (o : Out) : (s.emit o).tiles = s.tiles := rfl
@[simp] theorem State.emit_regions (o : Out) : (s.emit o).regions = s.regions := rfl
@[simp] theorem State.emit_links (o : Out) : (s.emit o).links = s.links := rfl
@[simp] theorem State.emit_barrs (o : Out) : (s.emit o).barrs = s.barrs := rfl
@[simp] theorem State.emit_dies (o : Out) : (s.emit o).dies = s.dies := rfl
@[simp] theorem State.emit_pool (o : Out) : (s.emit o).pool = s.pool := rfl
@[simp] theorem State.emit_fills (o : Out) : (s.emit o).fills = s.fills := rfl
@[simp] theorem State.emit_couplers (o : Out) : (s.emit o).couplers = s.couplers := rfl
@[simp] theorem State.emit_bandTap (o : Out) : (s.emit o).bandTap = s.bandTap := rfl
@[simp] theorem State.emit_hbm (o : Out) : (s.emit o).hbm = s.hbm := rfl
@[simp] theorem State.emit_hbmPoison (o : Out) : (s.emit o).hbmPoison = s.hbmPoison := rfl
@[simp] theorem State.emit_undec (o : Out) : (s.emit o).undec = s.undec := rfl
@[simp] theorem State.emit_reqNo (o : Out) : (s.emit o).reqNo = s.reqNo := rfl
@[simp] theorem State.emit_mreqs (o : Out) : (s.emit o).mreqs = s.mreqs := rfl
@[simp] theorem State.emit_mwait (o : Out) : (s.emit o).mwait = s.mwait := rfl
@[simp] theorem State.emit_ridHold (o : Out) : (s.emit o).ridHold = s.ridHold := rfl
@[simp] theorem State.emit_hrbDone (o : Out) : (s.emit o).hrbDone = s.hrbDone := rfl
@[simp] theorem State.emit_kvs (o : Out) : (s.emit o).kvs = s.kvs := rfl
@[simp] theorem State.emit_kvUndo (o : Out) : (s.emit o).kvUndo = s.kvUndo := rfl
@[simp] theorem State.emit_mout (o : Out) : (s.emit o).mout = s.mout := rfl
@[simp] theorem State.emit_inbox (o : Out) : (s.emit o).inbox = s.inbox := rfl
@[simp] theorem State.emit_jobs (o : Out) : (s.emit o).jobs = s.jobs := rfl
@[simp] theorem State.emit_shgs (o : Out) : (s.emit o).shgs = s.shgs := rfl
@[simp] theorem State.emit_stns (o : Out) : (s.emit o).stns = s.stns := rfl
@[simp] theorem State.emit_air (o : Out) : (s.emit o).air = s.air := rfl
@[simp] theorem State.emit_tide (o : Out) : (s.emit o).tide = s.tide := rfl
@[simp] theorem State.emit_notes (o : Out) : (s.emit o).notes = s.notes := rfl
@[simp] theorem State.emit_light (o : Out) : (s.emit o).light = s.light := rfl
@[simp] theorem State.emit_intake (o : Out) : (s.emit o).intake = s.intake := rfl
@[simp] theorem State.emit_smps (o : Out) : (s.emit o).smps = s.smps := rfl
@[simp] theorem State.emit_ports (o : Out) : (s.emit o).ports = s.ports := rfl
@[simp] theorem State.emit_frys (o : Out) : (s.emit o).frys = s.frys := rfl
@[simp] theorem State.emit_fryLast (o : Out) : (s.emit o).fryLast = s.fryLast := rfl
@[simp] theorem State.emit_rings (o : Out) : (s.emit o).rings = s.rings := rfl
@[simp] theorem State.emit_plans (o : Out) : (s.emit o).plans = s.plans := rfl
@[simp] theorem State.emit_calmSince (o : Out) : (s.emit o).calmSince = s.calmSince := rfl
@[simp] theorem State.emit_fw (o : Out) : (s.emit o).fw = s.fw := rfl
@[simp] theorem State.emit_flt (o : Out) : (s.emit o).flt = s.flt := rfl
@[simp] theorem State.emit_fab (o : Out) : (s.emit o).fab = s.fab := rfl
@[simp] theorem State.emit_stl (o : Out) : (s.emit o).stl = s.stl := rfl
@[simp] theorem State.emit_pwr (o : Out) : (s.emit o).pwr = s.pwr := rfl
@[simp] theorem State.emit_rst (o : Out) : (s.emit o).rst = s.rst := rfl
@[simp] theorem State.emit_sec (o : Out) : (s.emit o).sec = s.sec := rfl
@[simp] theorem State.emit_twn (o : Out) : (s.emit o).twn = s.twn := rfl
@[simp] theorem State.emit_out (o : Out) : (s.emit o).out = s.out ++ [o] := rfl
@[simp] theorem State.emit_raised (o : Out) : (s.emit o).raised = s.raised := rfl
@[simp] theorem State.emit_free (o : Out) : (s.emit o).free = s.free := rfl
@[simp] theorem State.emit_pending (o : Out) : (s.emit o).pending = s.pending := rfl
@[simp] theorem State.emit_rd (o : Out) (h : Fld) (j : Nat) : (s.emit o).rd h j = s.rd h j := rfl

/-! `setTile` -/
@[simp] theorem State.setTile_regs (k : Nat) (x : Tile) : (s.setTile k x).regs = s.regs := rfl
@[simp] theorem State.setTile_tiles (k : Nat) (x : Tile) : (s.setTile k x).tiles = smSet Tile.init s.tiles k x := rfl
@[simp] theorem State.setTile_regions (k : Nat) (x : Tile) : (s.setTile k x).regions = s.regions := rfl
@[simp] theorem State.setTile_links (k : Nat) (x : Tile) : (s.setTile k x).links = s.links := rfl
@[simp] theorem State.setTile_barrs (k : Nat) (x : Tile) : (s.setTile k x).barrs = s.barrs := rfl
@[simp] theorem State.setTile_dies (k : Nat) (x : Tile) : (s.setTile k x).dies = s.dies := rfl
@[simp] theorem State.setTile_pool (k : Nat) (x : Tile) : (s.setTile k x).pool = s.pool := rfl
@[simp] theorem State.setTile_fills (k : Nat) (x : Tile) : (s.setTile k x).fills = s.fills := rfl
@[simp] theorem State.setTile_couplers (k : Nat) (x : Tile) : (s.setTile k x).couplers = s.couplers := rfl
@[simp] theorem State.setTile_bandTap (k : Nat) (x : Tile) : (s.setTile k x).bandTap = s.bandTap := rfl
@[simp] theorem State.setTile_hbm (k : Nat) (x : Tile) : (s.setTile k x).hbm = s.hbm := rfl
@[simp] theorem State.setTile_hbmPoison (k : Nat) (x : Tile) : (s.setTile k x).hbmPoison = s.hbmPoison := rfl
@[simp] theorem State.setTile_undec (k : Nat) (x : Tile) : (s.setTile k x).undec = s.undec := rfl
@[simp] theorem State.setTile_reqNo (k : Nat) (x : Tile) : (s.setTile k x).reqNo = s.reqNo := rfl
@[simp] theorem State.setTile_mreqs (k : Nat) (x : Tile) : (s.setTile k x).mreqs = s.mreqs := rfl
@[simp] theorem State.setTile_mwait (k : Nat) (x : Tile) : (s.setTile k x).mwait = s.mwait := rfl
@[simp] theorem State.setTile_ridHold (k : Nat) (x : Tile) : (s.setTile k x).ridHold = s.ridHold := rfl
@[simp] theorem State.setTile_hrbDone (k : Nat) (x : Tile) : (s.setTile k x).hrbDone = s.hrbDone := rfl
@[simp] theorem State.setTile_kvs (k : Nat) (x : Tile) : (s.setTile k x).kvs = s.kvs := rfl
@[simp] theorem State.setTile_kvUndo (k : Nat) (x : Tile) : (s.setTile k x).kvUndo = s.kvUndo := rfl
@[simp] theorem State.setTile_mout (k : Nat) (x : Tile) : (s.setTile k x).mout = s.mout := rfl
@[simp] theorem State.setTile_inbox (k : Nat) (x : Tile) : (s.setTile k x).inbox = s.inbox := rfl
@[simp] theorem State.setTile_jobs (k : Nat) (x : Tile) : (s.setTile k x).jobs = s.jobs := rfl
@[simp] theorem State.setTile_shgs (k : Nat) (x : Tile) : (s.setTile k x).shgs = s.shgs := rfl
@[simp] theorem State.setTile_stns (k : Nat) (x : Tile) : (s.setTile k x).stns = s.stns := rfl
@[simp] theorem State.setTile_air (k : Nat) (x : Tile) : (s.setTile k x).air = s.air := rfl
@[simp] theorem State.setTile_tide (k : Nat) (x : Tile) : (s.setTile k x).tide = s.tide := rfl
@[simp] theorem State.setTile_notes (k : Nat) (x : Tile) : (s.setTile k x).notes = s.notes := rfl
@[simp] theorem State.setTile_light (k : Nat) (x : Tile) : (s.setTile k x).light = s.light := rfl
@[simp] theorem State.setTile_intake (k : Nat) (x : Tile) : (s.setTile k x).intake = s.intake := rfl
@[simp] theorem State.setTile_smps (k : Nat) (x : Tile) : (s.setTile k x).smps = s.smps := rfl
@[simp] theorem State.setTile_ports (k : Nat) (x : Tile) : (s.setTile k x).ports = s.ports := rfl
@[simp] theorem State.setTile_frys (k : Nat) (x : Tile) : (s.setTile k x).frys = s.frys := rfl
@[simp] theorem State.setTile_fryLast (k : Nat) (x : Tile) : (s.setTile k x).fryLast = s.fryLast := rfl
@[simp] theorem State.setTile_rings (k : Nat) (x : Tile) : (s.setTile k x).rings = s.rings := rfl
@[simp] theorem State.setTile_plans (k : Nat) (x : Tile) : (s.setTile k x).plans = s.plans := rfl
@[simp] theorem State.setTile_calmSince (k : Nat) (x : Tile) : (s.setTile k x).calmSince = s.calmSince := rfl
@[simp] theorem State.setTile_fw (k : Nat) (x : Tile) : (s.setTile k x).fw = s.fw := rfl
@[simp] theorem State.setTile_flt (k : Nat) (x : Tile) : (s.setTile k x).flt = s.flt := rfl
@[simp] theorem State.setTile_fab (k : Nat) (x : Tile) : (s.setTile k x).fab = s.fab := rfl
@[simp] theorem State.setTile_stl (k : Nat) (x : Tile) : (s.setTile k x).stl = s.stl := rfl
@[simp] theorem State.setTile_pwr (k : Nat) (x : Tile) : (s.setTile k x).pwr = s.pwr := rfl
@[simp] theorem State.setTile_rst (k : Nat) (x : Tile) : (s.setTile k x).rst = s.rst := rfl
@[simp] theorem State.setTile_sec (k : Nat) (x : Tile) : (s.setTile k x).sec = s.sec := rfl
@[simp] theorem State.setTile_twn (k : Nat) (x : Tile) : (s.setTile k x).twn = s.twn := rfl
@[simp] theorem State.setTile_out (k : Nat) (x : Tile) : (s.setTile k x).out = s.out := rfl
@[simp] theorem State.setTile_raised (k : Nat) (x : Tile) : (s.setTile k x).raised = s.raised := rfl
@[simp] theorem State.setTile_free (k : Nat) (x : Tile) : (s.setTile k x).free = s.free := rfl
@[simp] theorem State.setTile_pending (k : Nat) (x : Tile) : (s.setTile k x).pending = s.pending := rfl
@[simp] theorem State.setTile_rd (k : Nat) (x : Tile) (h : Fld) (j : Nat) : (s.setTile k x).rd h j = s.rd h j := rfl

/-! `setRegion` -/
@[simp] theorem State.setRegion_regs (k : Nat) (x : Region) : (s.setRegion k x).regs = s.regs := rfl
@[simp] theorem State.setRegion_tiles (k : Nat) (x : Region) : (s.setRegion k x).tiles = s.tiles := rfl
@[simp] theorem State.setRegion_regions (k : Nat) (x : Region) : (s.setRegion k x).regions = smSet (fun _ => Region.reset) s.regions k x := rfl
@[simp] theorem State.setRegion_links (k : Nat) (x : Region) : (s.setRegion k x).links = s.links := rfl
@[simp] theorem State.setRegion_barrs (k : Nat) (x : Region) : (s.setRegion k x).barrs = s.barrs := rfl
@[simp] theorem State.setRegion_dies (k : Nat) (x : Region) : (s.setRegion k x).dies = s.dies := rfl
@[simp] theorem State.setRegion_pool (k : Nat) (x : Region) : (s.setRegion k x).pool = s.pool := rfl
@[simp] theorem State.setRegion_fills (k : Nat) (x : Region) : (s.setRegion k x).fills = s.fills := rfl
@[simp] theorem State.setRegion_couplers (k : Nat) (x : Region) : (s.setRegion k x).couplers = s.couplers := rfl
@[simp] theorem State.setRegion_bandTap (k : Nat) (x : Region) : (s.setRegion k x).bandTap = s.bandTap := rfl
@[simp] theorem State.setRegion_hbm (k : Nat) (x : Region) : (s.setRegion k x).hbm = s.hbm := rfl
@[simp] theorem State.setRegion_hbmPoison (k : Nat) (x : Region) : (s.setRegion k x).hbmPoison = s.hbmPoison := rfl
@[simp] theorem State.setRegion_undec (k : Nat) (x : Region) : (s.setRegion k x).undec = s.undec := rfl
@[simp] theorem State.setRegion_reqNo (k : Nat) (x : Region) : (s.setRegion k x).reqNo = s.reqNo := rfl
@[simp] theorem State.setRegion_mreqs (k : Nat) (x : Region) : (s.setRegion k x).mreqs = s.mreqs := rfl
@[simp] theorem State.setRegion_mwait (k : Nat) (x : Region) : (s.setRegion k x).mwait = s.mwait := rfl
@[simp] theorem State.setRegion_ridHold (k : Nat) (x : Region) : (s.setRegion k x).ridHold = s.ridHold := rfl
@[simp] theorem State.setRegion_hrbDone (k : Nat) (x : Region) : (s.setRegion k x).hrbDone = s.hrbDone := rfl
@[simp] theorem State.setRegion_kvs (k : Nat) (x : Region) : (s.setRegion k x).kvs = s.kvs := rfl
@[simp] theorem State.setRegion_kvUndo (k : Nat) (x : Region) : (s.setRegion k x).kvUndo = s.kvUndo := rfl
@[simp] theorem State.setRegion_mout (k : Nat) (x : Region) : (s.setRegion k x).mout = s.mout := rfl
@[simp] theorem State.setRegion_inbox (k : Nat) (x : Region) : (s.setRegion k x).inbox = s.inbox := rfl
@[simp] theorem State.setRegion_jobs (k : Nat) (x : Region) : (s.setRegion k x).jobs = s.jobs := rfl
@[simp] theorem State.setRegion_shgs (k : Nat) (x : Region) : (s.setRegion k x).shgs = s.shgs := rfl
@[simp] theorem State.setRegion_stns (k : Nat) (x : Region) : (s.setRegion k x).stns = s.stns := rfl
@[simp] theorem State.setRegion_air (k : Nat) (x : Region) : (s.setRegion k x).air = s.air := rfl
@[simp] theorem State.setRegion_tide (k : Nat) (x : Region) : (s.setRegion k x).tide = s.tide := rfl
@[simp] theorem State.setRegion_notes (k : Nat) (x : Region) : (s.setRegion k x).notes = s.notes := rfl
@[simp] theorem State.setRegion_light (k : Nat) (x : Region) : (s.setRegion k x).light = s.light := rfl
@[simp] theorem State.setRegion_intake (k : Nat) (x : Region) : (s.setRegion k x).intake = s.intake := rfl
@[simp] theorem State.setRegion_smps (k : Nat) (x : Region) : (s.setRegion k x).smps = s.smps := rfl
@[simp] theorem State.setRegion_ports (k : Nat) (x : Region) : (s.setRegion k x).ports = s.ports := rfl
@[simp] theorem State.setRegion_frys (k : Nat) (x : Region) : (s.setRegion k x).frys = s.frys := rfl
@[simp] theorem State.setRegion_fryLast (k : Nat) (x : Region) : (s.setRegion k x).fryLast = s.fryLast := rfl
@[simp] theorem State.setRegion_rings (k : Nat) (x : Region) : (s.setRegion k x).rings = s.rings := rfl
@[simp] theorem State.setRegion_plans (k : Nat) (x : Region) : (s.setRegion k x).plans = s.plans := rfl
@[simp] theorem State.setRegion_calmSince (k : Nat) (x : Region) : (s.setRegion k x).calmSince = s.calmSince := rfl
@[simp] theorem State.setRegion_fw (k : Nat) (x : Region) : (s.setRegion k x).fw = s.fw := rfl
@[simp] theorem State.setRegion_flt (k : Nat) (x : Region) : (s.setRegion k x).flt = s.flt := rfl
@[simp] theorem State.setRegion_fab (k : Nat) (x : Region) : (s.setRegion k x).fab = s.fab := rfl
@[simp] theorem State.setRegion_stl (k : Nat) (x : Region) : (s.setRegion k x).stl = s.stl := rfl
@[simp] theorem State.setRegion_pwr (k : Nat) (x : Region) : (s.setRegion k x).pwr = s.pwr := rfl
@[simp] theorem State.setRegion_rst (k : Nat) (x : Region) : (s.setRegion k x).rst = s.rst := rfl
@[simp] theorem State.setRegion_sec (k : Nat) (x : Region) : (s.setRegion k x).sec = s.sec := rfl
@[simp] theorem State.setRegion_twn (k : Nat) (x : Region) : (s.setRegion k x).twn = s.twn := rfl
@[simp] theorem State.setRegion_out (k : Nat) (x : Region) : (s.setRegion k x).out = s.out := rfl
@[simp] theorem State.setRegion_raised (k : Nat) (x : Region) : (s.setRegion k x).raised = s.raised := rfl
@[simp] theorem State.setRegion_free (k : Nat) (x : Region) : (s.setRegion k x).free = s.free := rfl
@[simp] theorem State.setRegion_pending (k : Nat) (x : Region) : (s.setRegion k x).pending = s.pending := rfl
@[simp] theorem State.setRegion_rd (k : Nat) (x : Region) (h : Fld) (j : Nat) : (s.setRegion k x).rd h j = s.rd h j := rfl

/-! `setDie` -/
@[simp] theorem State.setDie_regs (k : Nat) (x : Die) : (s.setDie k x).regs = s.regs := rfl
@[simp] theorem State.setDie_tiles (k : Nat) (x : Die) : (s.setDie k x).tiles = s.tiles := rfl
@[simp] theorem State.setDie_regions (k : Nat) (x : Die) : (s.setDie k x).regions = s.regions := rfl
@[simp] theorem State.setDie_links (k : Nat) (x : Die) : (s.setDie k x).links = s.links := rfl
@[simp] theorem State.setDie_barrs (k : Nat) (x : Die) : (s.setDie k x).barrs = s.barrs := rfl
@[simp] theorem State.setDie_dies (k : Nat) (x : Die) : (s.setDie k x).dies = smSet (fun _ => Die.reset) s.dies k x := rfl
@[simp] theorem State.setDie_pool (k : Nat) (x : Die) : (s.setDie k x).pool = s.pool := rfl
@[simp] theorem State.setDie_fills (k : Nat) (x : Die) : (s.setDie k x).fills = s.fills := rfl
@[simp] theorem State.setDie_couplers (k : Nat) (x : Die) : (s.setDie k x).couplers = s.couplers := rfl
@[simp] theorem State.setDie_bandTap (k : Nat) (x : Die) : (s.setDie k x).bandTap = s.bandTap := rfl
@[simp] theorem State.setDie_hbm (k : Nat) (x : Die) : (s.setDie k x).hbm = s.hbm := rfl
@[simp] theorem State.setDie_hbmPoison (k : Nat) (x : Die) : (s.setDie k x).hbmPoison = s.hbmPoison := rfl
@[simp] theorem State.setDie_undec (k : Nat) (x : Die) : (s.setDie k x).undec = s.undec := rfl
@[simp] theorem State.setDie_reqNo (k : Nat) (x : Die) : (s.setDie k x).reqNo = s.reqNo := rfl
@[simp] theorem State.setDie_mreqs (k : Nat) (x : Die) : (s.setDie k x).mreqs = s.mreqs := rfl
@[simp] theorem State.setDie_mwait (k : Nat) (x : Die) : (s.setDie k x).mwait = s.mwait := rfl
@[simp] theorem State.setDie_ridHold (k : Nat) (x : Die) : (s.setDie k x).ridHold = s.ridHold := rfl
@[simp] theorem State.setDie_hrbDone (k : Nat) (x : Die) : (s.setDie k x).hrbDone = s.hrbDone := rfl
@[simp] theorem State.setDie_kvs (k : Nat) (x : Die) : (s.setDie k x).kvs = s.kvs := rfl
@[simp] theorem State.setDie_kvUndo (k : Nat) (x : Die) : (s.setDie k x).kvUndo = s.kvUndo := rfl
@[simp] theorem State.setDie_mout (k : Nat) (x : Die) : (s.setDie k x).mout = s.mout := rfl
@[simp] theorem State.setDie_inbox (k : Nat) (x : Die) : (s.setDie k x).inbox = s.inbox := rfl
@[simp] theorem State.setDie_jobs (k : Nat) (x : Die) : (s.setDie k x).jobs = s.jobs := rfl
@[simp] theorem State.setDie_shgs (k : Nat) (x : Die) : (s.setDie k x).shgs = s.shgs := rfl
@[simp] theorem State.setDie_stns (k : Nat) (x : Die) : (s.setDie k x).stns = s.stns := rfl
@[simp] theorem State.setDie_air (k : Nat) (x : Die) : (s.setDie k x).air = s.air := rfl
@[simp] theorem State.setDie_tide (k : Nat) (x : Die) : (s.setDie k x).tide = s.tide := rfl
@[simp] theorem State.setDie_notes (k : Nat) (x : Die) : (s.setDie k x).notes = s.notes := rfl
@[simp] theorem State.setDie_light (k : Nat) (x : Die) : (s.setDie k x).light = s.light := rfl
@[simp] theorem State.setDie_intake (k : Nat) (x : Die) : (s.setDie k x).intake = s.intake := rfl
@[simp] theorem State.setDie_smps (k : Nat) (x : Die) : (s.setDie k x).smps = s.smps := rfl
@[simp] theorem State.setDie_ports (k : Nat) (x : Die) : (s.setDie k x).ports = s.ports := rfl
@[simp] theorem State.setDie_frys (k : Nat) (x : Die) : (s.setDie k x).frys = s.frys := rfl
@[simp] theorem State.setDie_fryLast (k : Nat) (x : Die) : (s.setDie k x).fryLast = s.fryLast := rfl
@[simp] theorem State.setDie_rings (k : Nat) (x : Die) : (s.setDie k x).rings = s.rings := rfl
@[simp] theorem State.setDie_plans (k : Nat) (x : Die) : (s.setDie k x).plans = s.plans := rfl
@[simp] theorem State.setDie_calmSince (k : Nat) (x : Die) : (s.setDie k x).calmSince = s.calmSince := rfl
@[simp] theorem State.setDie_fw (k : Nat) (x : Die) : (s.setDie k x).fw = s.fw := rfl
@[simp] theorem State.setDie_flt (k : Nat) (x : Die) : (s.setDie k x).flt = s.flt := rfl
@[simp] theorem State.setDie_fab (k : Nat) (x : Die) : (s.setDie k x).fab = s.fab := rfl
@[simp] theorem State.setDie_stl (k : Nat) (x : Die) : (s.setDie k x).stl = s.stl := rfl
@[simp] theorem State.setDie_pwr (k : Nat) (x : Die) : (s.setDie k x).pwr = s.pwr := rfl
@[simp] theorem State.setDie_rst (k : Nat) (x : Die) : (s.setDie k x).rst = s.rst := rfl
@[simp] theorem State.setDie_sec (k : Nat) (x : Die) : (s.setDie k x).sec = s.sec := rfl
@[simp] theorem State.setDie_twn (k : Nat) (x : Die) : (s.setDie k x).twn = s.twn := rfl
@[simp] theorem State.setDie_out (k : Nat) (x : Die) : (s.setDie k x).out = s.out := rfl
@[simp] theorem State.setDie_raised (k : Nat) (x : Die) : (s.setDie k x).raised = s.raised := rfl
@[simp] theorem State.setDie_free (k : Nat) (x : Die) : (s.setDie k x).free = s.free := rfl
@[simp] theorem State.setDie_pending (k : Nat) (x : Die) : (s.setDie k x).pending = s.pending := rfl
@[simp] theorem State.setDie_rd (k : Nat) (x : Die) (h : Fld) (j : Nat) : (s.setDie k x).rd h j = s.rd h j := rfl

/-! `setStn` -/
@[simp] theorem State.setStn_regs (k : Nat) (x : Stn) : (s.setStn k x).regs = s.regs := rfl
@[simp] theorem State.setStn_tiles (k : Nat) (x : Stn) : (s.setStn k x).tiles = s.tiles := rfl
@[simp] theorem State.setStn_regions (k : Nat) (x : Stn) : (s.setStn k x).regions = s.regions := rfl
@[simp] theorem State.setStn_links (k : Nat) (x : Stn) : (s.setStn k x).links = s.links := rfl
@[simp] theorem State.setStn_barrs (k : Nat) (x : Stn) : (s.setStn k x).barrs = s.barrs := rfl
@[simp] theorem State.setStn_dies (k : Nat) (x : Stn) : (s.setStn k x).dies = s.dies := rfl
@[simp] theorem State.setStn_pool (k : Nat) (x : Stn) : (s.setStn k x).pool = s.pool := rfl
@[simp] theorem State.setStn_fills (k : Nat) (x : Stn) : (s.setStn k x).fills = s.fills := rfl
@[simp] theorem State.setStn_couplers (k : Nat) (x : Stn) : (s.setStn k x).couplers = s.couplers := rfl
@[simp] theorem State.setStn_bandTap (k : Nat) (x : Stn) : (s.setStn k x).bandTap = s.bandTap := rfl
@[simp] theorem State.setStn_hbm (k : Nat) (x : Stn) : (s.setStn k x).hbm = s.hbm := rfl
@[simp] theorem State.setStn_hbmPoison (k : Nat) (x : Stn) : (s.setStn k x).hbmPoison = s.hbmPoison := rfl
@[simp] theorem State.setStn_undec (k : Nat) (x : Stn) : (s.setStn k x).undec = s.undec := rfl
@[simp] theorem State.setStn_reqNo (k : Nat) (x : Stn) : (s.setStn k x).reqNo = s.reqNo := rfl
@[simp] theorem State.setStn_mreqs (k : Nat) (x : Stn) : (s.setStn k x).mreqs = s.mreqs := rfl
@[simp] theorem State.setStn_mwait (k : Nat) (x : Stn) : (s.setStn k x).mwait = s.mwait := rfl
@[simp] theorem State.setStn_ridHold (k : Nat) (x : Stn) : (s.setStn k x).ridHold = s.ridHold := rfl
@[simp] theorem State.setStn_hrbDone (k : Nat) (x : Stn) : (s.setStn k x).hrbDone = s.hrbDone := rfl
@[simp] theorem State.setStn_kvs (k : Nat) (x : Stn) : (s.setStn k x).kvs = s.kvs := rfl
@[simp] theorem State.setStn_kvUndo (k : Nat) (x : Stn) : (s.setStn k x).kvUndo = s.kvUndo := rfl
@[simp] theorem State.setStn_mout (k : Nat) (x : Stn) : (s.setStn k x).mout = s.mout := rfl
@[simp] theorem State.setStn_inbox (k : Nat) (x : Stn) : (s.setStn k x).inbox = s.inbox := rfl
@[simp] theorem State.setStn_jobs (k : Nat) (x : Stn) : (s.setStn k x).jobs = s.jobs := rfl
@[simp] theorem State.setStn_shgs (k : Nat) (x : Stn) : (s.setStn k x).shgs = s.shgs := rfl
@[simp] theorem State.setStn_stns (k : Nat) (x : Stn) : (s.setStn k x).stns = smSet (fun _ => Stn.reset) s.stns k x := rfl
@[simp] theorem State.setStn_air (k : Nat) (x : Stn) : (s.setStn k x).air = s.air := rfl
@[simp] theorem State.setStn_tide (k : Nat) (x : Stn) : (s.setStn k x).tide = s.tide := rfl
@[simp] theorem State.setStn_notes (k : Nat) (x : Stn) : (s.setStn k x).notes = s.notes := rfl
@[simp] theorem State.setStn_light (k : Nat) (x : Stn) : (s.setStn k x).light = s.light := rfl
@[simp] theorem State.setStn_intake (k : Nat) (x : Stn) : (s.setStn k x).intake = s.intake := rfl
@[simp] theorem State.setStn_smps (k : Nat) (x : Stn) : (s.setStn k x).smps = s.smps := rfl
@[simp] theorem State.setStn_ports (k : Nat) (x : Stn) : (s.setStn k x).ports = s.ports := rfl
@[simp] theorem State.setStn_frys (k : Nat) (x : Stn) : (s.setStn k x).frys = s.frys := rfl
@[simp] theorem State.setStn_fryLast (k : Nat) (x : Stn) : (s.setStn k x).fryLast = s.fryLast := rfl
@[simp] theorem State.setStn_rings (k : Nat) (x : Stn) : (s.setStn k x).rings = s.rings := rfl
@[simp] theorem State.setStn_plans (k : Nat) (x : Stn) : (s.setStn k x).plans = s.plans := rfl
@[simp] theorem State.setStn_calmSince (k : Nat) (x : Stn) : (s.setStn k x).calmSince = s.calmSince := rfl
@[simp] theorem State.setStn_fw (k : Nat) (x : Stn) : (s.setStn k x).fw = s.fw := rfl
@[simp] theorem State.setStn_flt (k : Nat) (x : Stn) : (s.setStn k x).flt = s.flt := rfl
@[simp] theorem State.setStn_fab (k : Nat) (x : Stn) : (s.setStn k x).fab = s.fab := rfl
@[simp] theorem State.setStn_stl (k : Nat) (x : Stn) : (s.setStn k x).stl = s.stl := rfl
@[simp] theorem State.setStn_pwr (k : Nat) (x : Stn) : (s.setStn k x).pwr = s.pwr := rfl
@[simp] theorem State.setStn_rst (k : Nat) (x : Stn) : (s.setStn k x).rst = s.rst := rfl
@[simp] theorem State.setStn_sec (k : Nat) (x : Stn) : (s.setStn k x).sec = s.sec := rfl
@[simp] theorem State.setStn_twn (k : Nat) (x : Stn) : (s.setStn k x).twn = s.twn := rfl
@[simp] theorem State.setStn_out (k : Nat) (x : Stn) : (s.setStn k x).out = s.out := rfl
@[simp] theorem State.setStn_raised (k : Nat) (x : Stn) : (s.setStn k x).raised = s.raised := rfl
@[simp] theorem State.setStn_free (k : Nat) (x : Stn) : (s.setStn k x).free = s.free := rfl
@[simp] theorem State.setStn_pending (k : Nat) (x : Stn) : (s.setStn k x).pending = s.pending := rfl
@[simp] theorem State.setStn_rd (k : Nat) (x : Stn) (h : Fld) (j : Nat) : (s.setStn k x).rd h j = s.rd h j := rfl

/-! `setShg` -/
@[simp] theorem State.setShg_regs (k : Nat) (x : Shg) : (s.setShg k x).regs = s.regs := rfl
@[simp] theorem State.setShg_tiles (k : Nat) (x : Shg) : (s.setShg k x).tiles = s.tiles := rfl
@[simp] theorem State.setShg_regions (k : Nat) (x : Shg) : (s.setShg k x).regions = s.regions := rfl
@[simp] theorem State.setShg_links (k : Nat) (x : Shg) : (s.setShg k x).links = s.links := rfl
@[simp] theorem State.setShg_barrs (k : Nat) (x : Shg) : (s.setShg k x).barrs = s.barrs := rfl
@[simp] theorem State.setShg_dies (k : Nat) (x : Shg) : (s.setShg k x).dies = s.dies := rfl
@[simp] theorem State.setShg_pool (k : Nat) (x : Shg) : (s.setShg k x).pool = s.pool := rfl
@[simp] theorem State.setShg_fills (k : Nat) (x : Shg) : (s.setShg k x).fills = s.fills := rfl
@[simp] theorem State.setShg_couplers (k : Nat) (x : Shg) : (s.setShg k x).couplers = s.couplers := rfl
@[simp] theorem State.setShg_bandTap (k : Nat) (x : Shg) : (s.setShg k x).bandTap = s.bandTap := rfl
@[simp] theorem State.setShg_hbm (k : Nat) (x : Shg) : (s.setShg k x).hbm = s.hbm := rfl
@[simp] theorem State.setShg_hbmPoison (k : Nat) (x : Shg) : (s.setShg k x).hbmPoison = s.hbmPoison := rfl
@[simp] theorem State.setShg_undec (k : Nat) (x : Shg) : (s.setShg k x).undec = s.undec := rfl
@[simp] theorem State.setShg_reqNo (k : Nat) (x : Shg) : (s.setShg k x).reqNo = s.reqNo := rfl
@[simp] theorem State.setShg_mreqs (k : Nat) (x : Shg) : (s.setShg k x).mreqs = s.mreqs := rfl
@[simp] theorem State.setShg_mwait (k : Nat) (x : Shg) : (s.setShg k x).mwait = s.mwait := rfl
@[simp] theorem State.setShg_ridHold (k : Nat) (x : Shg) : (s.setShg k x).ridHold = s.ridHold := rfl
@[simp] theorem State.setShg_hrbDone (k : Nat) (x : Shg) : (s.setShg k x).hrbDone = s.hrbDone := rfl
@[simp] theorem State.setShg_kvs (k : Nat) (x : Shg) : (s.setShg k x).kvs = s.kvs := rfl
@[simp] theorem State.setShg_kvUndo (k : Nat) (x : Shg) : (s.setShg k x).kvUndo = s.kvUndo := rfl
@[simp] theorem State.setShg_mout (k : Nat) (x : Shg) : (s.setShg k x).mout = s.mout := rfl
@[simp] theorem State.setShg_inbox (k : Nat) (x : Shg) : (s.setShg k x).inbox = s.inbox := rfl
@[simp] theorem State.setShg_jobs (k : Nat) (x : Shg) : (s.setShg k x).jobs = s.jobs := rfl
@[simp] theorem State.setShg_shgs (k : Nat) (x : Shg) : (s.setShg k x).shgs = smSet (fun _ => Shg.reset) s.shgs k x := rfl
@[simp] theorem State.setShg_stns (k : Nat) (x : Shg) : (s.setShg k x).stns = s.stns := rfl
@[simp] theorem State.setShg_air (k : Nat) (x : Shg) : (s.setShg k x).air = s.air := rfl
@[simp] theorem State.setShg_tide (k : Nat) (x : Shg) : (s.setShg k x).tide = s.tide := rfl
@[simp] theorem State.setShg_notes (k : Nat) (x : Shg) : (s.setShg k x).notes = s.notes := rfl
@[simp] theorem State.setShg_light (k : Nat) (x : Shg) : (s.setShg k x).light = s.light := rfl
@[simp] theorem State.setShg_intake (k : Nat) (x : Shg) : (s.setShg k x).intake = s.intake := rfl
@[simp] theorem State.setShg_smps (k : Nat) (x : Shg) : (s.setShg k x).smps = s.smps := rfl
@[simp] theorem State.setShg_ports (k : Nat) (x : Shg) : (s.setShg k x).ports = s.ports := rfl
@[simp] theorem State.setShg_frys (k : Nat) (x : Shg) : (s.setShg k x).frys = s.frys := rfl
@[simp] theorem State.setShg_fryLast (k : Nat) (x : Shg) : (s.setShg k x).fryLast = s.fryLast := rfl
@[simp] theorem State.setShg_rings (k : Nat) (x : Shg) : (s.setShg k x).rings = s.rings := rfl
@[simp] theorem State.setShg_plans (k : Nat) (x : Shg) : (s.setShg k x).plans = s.plans := rfl
@[simp] theorem State.setShg_calmSince (k : Nat) (x : Shg) : (s.setShg k x).calmSince = s.calmSince := rfl
@[simp] theorem State.setShg_fw (k : Nat) (x : Shg) : (s.setShg k x).fw = s.fw := rfl
@[simp] theorem State.setShg_flt (k : Nat) (x : Shg) : (s.setShg k x).flt = s.flt := rfl
@[simp] theorem State.setShg_fab (k : Nat) (x : Shg) : (s.setShg k x).fab = s.fab := rfl
@[simp] theorem State.setShg_stl (k : Nat) (x : Shg) : (s.setShg k x).stl = s.stl := rfl
@[simp] theorem State.setShg_pwr (k : Nat) (x : Shg) : (s.setShg k x).pwr = s.pwr := rfl
@[simp] theorem State.setShg_rst (k : Nat) (x : Shg) : (s.setShg k x).rst = s.rst := rfl
@[simp] theorem State.setShg_sec (k : Nat) (x : Shg) : (s.setShg k x).sec = s.sec := rfl
@[simp] theorem State.setShg_twn (k : Nat) (x : Shg) : (s.setShg k x).twn = s.twn := rfl
@[simp] theorem State.setShg_out (k : Nat) (x : Shg) : (s.setShg k x).out = s.out := rfl
@[simp] theorem State.setShg_raised (k : Nat) (x : Shg) : (s.setShg k x).raised = s.raised := rfl
@[simp] theorem State.setShg_free (k : Nat) (x : Shg) : (s.setShg k x).free = s.free := rfl
@[simp] theorem State.setShg_pending (k : Nat) (x : Shg) : (s.setShg k x).pending = s.pending := rfl
@[simp] theorem State.setShg_rd (k : Nat) (x : Shg) (h : Fld) (j : Nat) : (s.setShg k x).rd h j = s.rd h j := rfl

/-! `setCoupler` -/
@[simp] theorem State.setCoupler_regs (k : Nat) (x : Coupler) : (s.setCoupler k x).regs = s.regs := rfl
@[simp] theorem State.setCoupler_tiles (k : Nat) (x : Coupler) : (s.setCoupler k x).tiles = s.tiles := rfl
@[simp] theorem State.setCoupler_regions (k : Nat) (x : Coupler) : (s.setCoupler k x).regions = s.regions := rfl
@[simp] theorem State.setCoupler_links (k : Nat) (x : Coupler) : (s.setCoupler k x).links = s.links := rfl
@[simp] theorem State.setCoupler_barrs (k : Nat) (x : Coupler) : (s.setCoupler k x).barrs = s.barrs := rfl
@[simp] theorem State.setCoupler_dies (k : Nat) (x : Coupler) : (s.setCoupler k x).dies = s.dies := rfl
@[simp] theorem State.setCoupler_pool (k : Nat) (x : Coupler) : (s.setCoupler k x).pool = s.pool := rfl
@[simp] theorem State.setCoupler_fills (k : Nat) (x : Coupler) : (s.setCoupler k x).fills = s.fills := rfl
@[simp] theorem State.setCoupler_couplers (k : Nat) (x : Coupler) : (s.setCoupler k x).couplers = smSet (fun _ => Coupler.reset) s.couplers k x := rfl
@[simp] theorem State.setCoupler_bandTap (k : Nat) (x : Coupler) : (s.setCoupler k x).bandTap = s.bandTap := rfl
@[simp] theorem State.setCoupler_hbm (k : Nat) (x : Coupler) : (s.setCoupler k x).hbm = s.hbm := rfl
@[simp] theorem State.setCoupler_hbmPoison (k : Nat) (x : Coupler) : (s.setCoupler k x).hbmPoison = s.hbmPoison := rfl
@[simp] theorem State.setCoupler_undec (k : Nat) (x : Coupler) : (s.setCoupler k x).undec = s.undec := rfl
@[simp] theorem State.setCoupler_reqNo (k : Nat) (x : Coupler) : (s.setCoupler k x).reqNo = s.reqNo := rfl
@[simp] theorem State.setCoupler_mreqs (k : Nat) (x : Coupler) : (s.setCoupler k x).mreqs = s.mreqs := rfl
@[simp] theorem State.setCoupler_mwait (k : Nat) (x : Coupler) : (s.setCoupler k x).mwait = s.mwait := rfl
@[simp] theorem State.setCoupler_ridHold (k : Nat) (x : Coupler) : (s.setCoupler k x).ridHold = s.ridHold := rfl
@[simp] theorem State.setCoupler_hrbDone (k : Nat) (x : Coupler) : (s.setCoupler k x).hrbDone = s.hrbDone := rfl
@[simp] theorem State.setCoupler_kvs (k : Nat) (x : Coupler) : (s.setCoupler k x).kvs = s.kvs := rfl
@[simp] theorem State.setCoupler_kvUndo (k : Nat) (x : Coupler) : (s.setCoupler k x).kvUndo = s.kvUndo := rfl
@[simp] theorem State.setCoupler_mout (k : Nat) (x : Coupler) : (s.setCoupler k x).mout = s.mout := rfl
@[simp] theorem State.setCoupler_inbox (k : Nat) (x : Coupler) : (s.setCoupler k x).inbox = s.inbox := rfl
@[simp] theorem State.setCoupler_jobs (k : Nat) (x : Coupler) : (s.setCoupler k x).jobs = s.jobs := rfl
@[simp] theorem State.setCoupler_shgs (k : Nat) (x : Coupler) : (s.setCoupler k x).shgs = s.shgs := rfl
@[simp] theorem State.setCoupler_stns (k : Nat) (x : Coupler) : (s.setCoupler k x).stns = s.stns := rfl
@[simp] theorem State.setCoupler_air (k : Nat) (x : Coupler) : (s.setCoupler k x).air = s.air := rfl
@[simp] theorem State.setCoupler_tide (k : Nat) (x : Coupler) : (s.setCoupler k x).tide = s.tide := rfl
@[simp] theorem State.setCoupler_notes (k : Nat) (x : Coupler) : (s.setCoupler k x).notes = s.notes := rfl
@[simp] theorem State.setCoupler_light (k : Nat) (x : Coupler) : (s.setCoupler k x).light = s.light := rfl
@[simp] theorem State.setCoupler_intake (k : Nat) (x : Coupler) : (s.setCoupler k x).intake = s.intake := rfl
@[simp] theorem State.setCoupler_smps (k : Nat) (x : Coupler) : (s.setCoupler k x).smps = s.smps := rfl
@[simp] theorem State.setCoupler_ports (k : Nat) (x : Coupler) : (s.setCoupler k x).ports = s.ports := rfl
@[simp] theorem State.setCoupler_frys (k : Nat) (x : Coupler) : (s.setCoupler k x).frys = s.frys := rfl
@[simp] theorem State.setCoupler_fryLast (k : Nat) (x : Coupler) : (s.setCoupler k x).fryLast = s.fryLast := rfl
@[simp] theorem State.setCoupler_rings (k : Nat) (x : Coupler) : (s.setCoupler k x).rings = s.rings := rfl
@[simp] theorem State.setCoupler_plans (k : Nat) (x : Coupler) : (s.setCoupler k x).plans = s.plans := rfl
@[simp] theorem State.setCoupler_calmSince (k : Nat) (x : Coupler) : (s.setCoupler k x).calmSince = s.calmSince := rfl
@[simp] theorem State.setCoupler_fw (k : Nat) (x : Coupler) : (s.setCoupler k x).fw = s.fw := rfl
@[simp] theorem State.setCoupler_flt (k : Nat) (x : Coupler) : (s.setCoupler k x).flt = s.flt := rfl
@[simp] theorem State.setCoupler_fab (k : Nat) (x : Coupler) : (s.setCoupler k x).fab = s.fab := rfl
@[simp] theorem State.setCoupler_stl (k : Nat) (x : Coupler) : (s.setCoupler k x).stl = s.stl := rfl
@[simp] theorem State.setCoupler_pwr (k : Nat) (x : Coupler) : (s.setCoupler k x).pwr = s.pwr := rfl
@[simp] theorem State.setCoupler_rst (k : Nat) (x : Coupler) : (s.setCoupler k x).rst = s.rst := rfl
@[simp] theorem State.setCoupler_sec (k : Nat) (x : Coupler) : (s.setCoupler k x).sec = s.sec := rfl
@[simp] theorem State.setCoupler_twn (k : Nat) (x : Coupler) : (s.setCoupler k x).twn = s.twn := rfl
@[simp] theorem State.setCoupler_out (k : Nat) (x : Coupler) : (s.setCoupler k x).out = s.out := rfl
@[simp] theorem State.setCoupler_raised (k : Nat) (x : Coupler) : (s.setCoupler k x).raised = s.raised := rfl
@[simp] theorem State.setCoupler_free (k : Nat) (x : Coupler) : (s.setCoupler k x).free = s.free := rfl
@[simp] theorem State.setCoupler_pending (k : Nat) (x : Coupler) : (s.setCoupler k x).pending = s.pending := rfl
@[simp] theorem State.setCoupler_rd (k : Nat) (x : Coupler) (h : Fld) (j : Nat) : (s.setCoupler k x).rd h j = s.rd h j := rfl

/-! `setLine` -/
@[simp] theorem State.setLine_regs (k l : Nat) (x : TLine) : (s.setLine k l x).regs = s.regs := rfl
@[simp] theorem State.setLine_tiles (k l : Nat) (x : TLine) : (s.setLine k l x).tiles = s.tiles := rfl
@[simp] theorem State.setLine_regions (k l : Nat) (x : TLine) : (s.setLine k l x).regions = s.regions := rfl
@[simp] theorem State.setLine_links (k l : Nat) (x : TLine) : (s.setLine k l x).links = s.links := rfl
@[simp] theorem State.setLine_barrs (k l : Nat) (x : TLine) : (s.setLine k l x).barrs = s.barrs := rfl
@[simp] theorem State.setLine_dies (k l : Nat) (x : TLine) : (s.setLine k l x).dies = s.dies := rfl
@[simp] theorem State.setLine_pool (k l : Nat) (x : TLine) : (s.setLine k l x).pool = smSet (fun _ => TLine.absent) s.pool (poolKey k l) (if x.valid = 0 ∧ !x.moor then TLine.absent else x) := rfl
@[simp] theorem State.setLine_fills (k l : Nat) (x : TLine) : (s.setLine k l x).fills = s.fills := rfl
@[simp] theorem State.setLine_couplers (k l : Nat) (x : TLine) : (s.setLine k l x).couplers = s.couplers := rfl
@[simp] theorem State.setLine_bandTap (k l : Nat) (x : TLine) : (s.setLine k l x).bandTap = s.bandTap := rfl
@[simp] theorem State.setLine_hbm (k l : Nat) (x : TLine) : (s.setLine k l x).hbm = s.hbm := rfl
@[simp] theorem State.setLine_hbmPoison (k l : Nat) (x : TLine) : (s.setLine k l x).hbmPoison = s.hbmPoison := rfl
@[simp] theorem State.setLine_undec (k l : Nat) (x : TLine) : (s.setLine k l x).undec = s.undec := rfl
@[simp] theorem State.setLine_reqNo (k l : Nat) (x : TLine) : (s.setLine k l x).reqNo = s.reqNo := rfl
@[simp] theorem State.setLine_mreqs (k l : Nat) (x : TLine) : (s.setLine k l x).mreqs = s.mreqs := rfl
@[simp] theorem State.setLine_mwait (k l : Nat) (x : TLine) : (s.setLine k l x).mwait = s.mwait := rfl
@[simp] theorem State.setLine_ridHold (k l : Nat) (x : TLine) : (s.setLine k l x).ridHold = s.ridHold := rfl
@[simp] theorem State.setLine_hrbDone (k l : Nat) (x : TLine) : (s.setLine k l x).hrbDone = s.hrbDone := rfl
@[simp] theorem State.setLine_kvs (k l : Nat) (x : TLine) : (s.setLine k l x).kvs = s.kvs := rfl
@[simp] theorem State.setLine_kvUndo (k l : Nat) (x : TLine) : (s.setLine k l x).kvUndo = s.kvUndo := rfl
@[simp] theorem State.setLine_mout (k l : Nat) (x : TLine) : (s.setLine k l x).mout = s.mout := rfl
@[simp] theorem State.setLine_inbox (k l : Nat) (x : TLine) : (s.setLine k l x).inbox = s.inbox := rfl
@[simp] theorem State.setLine_jobs (k l : Nat) (x : TLine) : (s.setLine k l x).jobs = s.jobs := rfl
@[simp] theorem State.setLine_shgs (k l : Nat) (x : TLine) : (s.setLine k l x).shgs = s.shgs := rfl
@[simp] theorem State.setLine_stns (k l : Nat) (x : TLine) : (s.setLine k l x).stns = s.stns := rfl
@[simp] theorem State.setLine_air (k l : Nat) (x : TLine) : (s.setLine k l x).air = s.air := rfl
@[simp] theorem State.setLine_tide (k l : Nat) (x : TLine) : (s.setLine k l x).tide = s.tide := rfl
@[simp] theorem State.setLine_notes (k l : Nat) (x : TLine) : (s.setLine k l x).notes = s.notes := rfl
@[simp] theorem State.setLine_light (k l : Nat) (x : TLine) : (s.setLine k l x).light = s.light := rfl
@[simp] theorem State.setLine_intake (k l : Nat) (x : TLine) : (s.setLine k l x).intake = s.intake := rfl
@[simp] theorem State.setLine_smps (k l : Nat) (x : TLine) : (s.setLine k l x).smps = s.smps := rfl
@[simp] theorem State.setLine_ports (k l : Nat) (x : TLine) : (s.setLine k l x).ports = s.ports := rfl
@[simp] theorem State.setLine_frys (k l : Nat) (x : TLine) : (s.setLine k l x).frys = s.frys := rfl
@[simp] theorem State.setLine_fryLast (k l : Nat) (x : TLine) : (s.setLine k l x).fryLast = s.fryLast := rfl
@[simp] theorem State.setLine_rings (k l : Nat) (x : TLine) : (s.setLine k l x).rings = s.rings := rfl
@[simp] theorem State.setLine_plans (k l : Nat) (x : TLine) : (s.setLine k l x).plans = s.plans := rfl
@[simp] theorem State.setLine_calmSince (k l : Nat) (x : TLine) : (s.setLine k l x).calmSince = s.calmSince := rfl
@[simp] theorem State.setLine_fw (k l : Nat) (x : TLine) : (s.setLine k l x).fw = s.fw := rfl
@[simp] theorem State.setLine_flt (k l : Nat) (x : TLine) : (s.setLine k l x).flt = s.flt := rfl
@[simp] theorem State.setLine_fab (k l : Nat) (x : TLine) : (s.setLine k l x).fab = s.fab := rfl
@[simp] theorem State.setLine_stl (k l : Nat) (x : TLine) : (s.setLine k l x).stl = s.stl := rfl
@[simp] theorem State.setLine_pwr (k l : Nat) (x : TLine) : (s.setLine k l x).pwr = s.pwr := rfl
@[simp] theorem State.setLine_rst (k l : Nat) (x : TLine) : (s.setLine k l x).rst = s.rst := rfl
@[simp] theorem State.setLine_sec (k l : Nat) (x : TLine) : (s.setLine k l x).sec = s.sec := rfl
@[simp] theorem State.setLine_twn (k l : Nat) (x : TLine) : (s.setLine k l x).twn = s.twn := rfl
@[simp] theorem State.setLine_out (k l : Nat) (x : TLine) : (s.setLine k l x).out = s.out := rfl
@[simp] theorem State.setLine_raised (k l : Nat) (x : TLine) : (s.setLine k l x).raised = s.raised := rfl
@[simp] theorem State.setLine_free (k l : Nat) (x : TLine) : (s.setLine k l x).free = s.free := rfl
@[simp] theorem State.setLine_pending (k l : Nat) (x : TLine) : (s.setLine k l x).pending = s.pending := rfl
@[simp] theorem State.setLine_rd (k l : Nat) (x : TLine) (h : Fld) (j : Nat) : (s.setLine k l x).rd h j = s.rd h j := rfl

/-! `setPort` -/
@[simp] theorem State.setPort_regs (k : Nat) (x : Port) : (s.setPort k x).regs = s.regs := rfl
@[simp] theorem State.setPort_tiles (k : Nat) (x : Port) : (s.setPort k x).tiles = s.tiles := rfl
@[simp] theorem State.setPort_regions (k : Nat) (x : Port) : (s.setPort k x).regions = s.regions := rfl
@[simp] theorem State.setPort_links (k : Nat) (x : Port) : (s.setPort k x).links = s.links := rfl
@[simp] theorem State.setPort_barrs (k : Nat) (x : Port) : (s.setPort k x).barrs = s.barrs := rfl
@[simp] theorem State.setPort_dies (k : Nat) (x : Port) : (s.setPort k x).dies = s.dies := rfl
@[simp] theorem State.setPort_pool (k : Nat) (x : Port) : (s.setPort k x).pool = s.pool := rfl
@[simp] theorem State.setPort_fills (k : Nat) (x : Port) : (s.setPort k x).fills = s.fills := rfl
@[simp] theorem State.setPort_couplers (k : Nat) (x : Port) : (s.setPort k x).couplers = s.couplers := rfl
@[simp] theorem State.setPort_bandTap (k : Nat) (x : Port) : (s.setPort k x).bandTap = s.bandTap := rfl
@[simp] theorem State.setPort_hbm (k : Nat) (x : Port) : (s.setPort k x).hbm = s.hbm := rfl
@[simp] theorem State.setPort_hbmPoison (k : Nat) (x : Port) : (s.setPort k x).hbmPoison = s.hbmPoison := rfl
@[simp] theorem State.setPort_undec (k : Nat) (x : Port) : (s.setPort k x).undec = s.undec := rfl
@[simp] theorem State.setPort_reqNo (k : Nat) (x : Port) : (s.setPort k x).reqNo = s.reqNo := rfl
@[simp] theorem State.setPort_mreqs (k : Nat) (x : Port) : (s.setPort k x).mreqs = s.mreqs := rfl
@[simp] theorem State.setPort_mwait (k : Nat) (x : Port) : (s.setPort k x).mwait = s.mwait := rfl
@[simp] theorem State.setPort_ridHold (k : Nat) (x : Port) : (s.setPort k x).ridHold = s.ridHold := rfl
@[simp] theorem State.setPort_hrbDone (k : Nat) (x : Port) : (s.setPort k x).hrbDone = s.hrbDone := rfl
@[simp] theorem State.setPort_kvs (k : Nat) (x : Port) : (s.setPort k x).kvs = s.kvs := rfl
@[simp] theorem State.setPort_kvUndo (k : Nat) (x : Port) : (s.setPort k x).kvUndo = s.kvUndo := rfl
@[simp] theorem State.setPort_mout (k : Nat) (x : Port) : (s.setPort k x).mout = s.mout := rfl
@[simp] theorem State.setPort_inbox (k : Nat) (x : Port) : (s.setPort k x).inbox = s.inbox := rfl
@[simp] theorem State.setPort_jobs (k : Nat) (x : Port) : (s.setPort k x).jobs = s.jobs := rfl
@[simp] theorem State.setPort_shgs (k : Nat) (x : Port) : (s.setPort k x).shgs = s.shgs := rfl
@[simp] theorem State.setPort_stns (k : Nat) (x : Port) : (s.setPort k x).stns = s.stns := rfl
@[simp] theorem State.setPort_air (k : Nat) (x : Port) : (s.setPort k x).air = s.air := rfl
@[simp] theorem State.setPort_tide (k : Nat) (x : Port) : (s.setPort k x).tide = s.tide := rfl
@[simp] theorem State.setPort_notes (k : Nat) (x : Port) : (s.setPort k x).notes = s.notes := rfl
@[simp] theorem State.setPort_light (k : Nat) (x : Port) : (s.setPort k x).light = s.light := rfl
@[simp] theorem State.setPort_intake (k : Nat) (x : Port) : (s.setPort k x).intake = s.intake := rfl
@[simp] theorem State.setPort_smps (k : Nat) (x : Port) : (s.setPort k x).smps = s.smps := rfl
@[simp] theorem State.setPort_ports (k : Nat) (x : Port) : (s.setPort k x).ports = smSet (fun _ => Port.reset) s.ports k x := rfl
@[simp] theorem State.setPort_frys (k : Nat) (x : Port) : (s.setPort k x).frys = s.frys := rfl
@[simp] theorem State.setPort_fryLast (k : Nat) (x : Port) : (s.setPort k x).fryLast = s.fryLast := rfl
@[simp] theorem State.setPort_rings (k : Nat) (x : Port) : (s.setPort k x).rings = s.rings := rfl
@[simp] theorem State.setPort_plans (k : Nat) (x : Port) : (s.setPort k x).plans = s.plans := rfl
@[simp] theorem State.setPort_calmSince (k : Nat) (x : Port) : (s.setPort k x).calmSince = s.calmSince := rfl
@[simp] theorem State.setPort_fw (k : Nat) (x : Port) : (s.setPort k x).fw = s.fw := rfl
@[simp] theorem State.setPort_flt (k : Nat) (x : Port) : (s.setPort k x).flt = s.flt := rfl
@[simp] theorem State.setPort_fab (k : Nat) (x : Port) : (s.setPort k x).fab = s.fab := rfl
@[simp] theorem State.setPort_stl (k : Nat) (x : Port) : (s.setPort k x).stl = s.stl := rfl
@[simp] theorem State.setPort_pwr (k : Nat) (x : Port) : (s.setPort k x).pwr = s.pwr := rfl
@[simp] theorem State.setPort_rst (k : Nat) (x : Port) : (s.setPort k x).rst = s.rst := rfl
@[simp] theorem State.setPort_sec (k : Nat) (x : Port) : (s.setPort k x).sec = s.sec := rfl
@[simp] theorem State.setPort_twn (k : Nat) (x : Port) : (s.setPort k x).twn = s.twn := rfl
@[simp] theorem State.setPort_out (k : Nat) (x : Port) : (s.setPort k x).out = s.out := rfl
@[simp] theorem State.setPort_raised (k : Nat) (x : Port) : (s.setPort k x).raised = s.raised := rfl
@[simp] theorem State.setPort_free (k : Nat) (x : Port) : (s.setPort k x).free = s.free := rfl
@[simp] theorem State.setPort_pending (k : Nat) (x : Port) : (s.setPort k x).pending = s.pending := rfl
@[simp] theorem State.setPort_rd (k : Nat) (x : Port) (h : Fld) (j : Nat) : (s.setPort k x).rd h j = s.rd h j := rfl

/-! `setFry` -/
@[simp] theorem State.setFry_regs (k : Nat) (x : Fry) : (s.setFry k x).regs = s.regs := rfl
@[simp] theorem State.setFry_tiles (k : Nat) (x : Fry) : (s.setFry k x).tiles = s.tiles := rfl
@[simp] theorem State.setFry_regions (k : Nat) (x : Fry) : (s.setFry k x).regions = s.regions := rfl
@[simp] theorem State.setFry_links (k : Nat) (x : Fry) : (s.setFry k x).links = s.links := rfl
@[simp] theorem State.setFry_barrs (k : Nat) (x : Fry) : (s.setFry k x).barrs = s.barrs := rfl
@[simp] theorem State.setFry_dies (k : Nat) (x : Fry) : (s.setFry k x).dies = s.dies := rfl
@[simp] theorem State.setFry_pool (k : Nat) (x : Fry) : (s.setFry k x).pool = s.pool := rfl
@[simp] theorem State.setFry_fills (k : Nat) (x : Fry) : (s.setFry k x).fills = s.fills := rfl
@[simp] theorem State.setFry_couplers (k : Nat) (x : Fry) : (s.setFry k x).couplers = s.couplers := rfl
@[simp] theorem State.setFry_bandTap (k : Nat) (x : Fry) : (s.setFry k x).bandTap = s.bandTap := rfl
@[simp] theorem State.setFry_hbm (k : Nat) (x : Fry) : (s.setFry k x).hbm = s.hbm := rfl
@[simp] theorem State.setFry_hbmPoison (k : Nat) (x : Fry) : (s.setFry k x).hbmPoison = s.hbmPoison := rfl
@[simp] theorem State.setFry_undec (k : Nat) (x : Fry) : (s.setFry k x).undec = s.undec := rfl
@[simp] theorem State.setFry_reqNo (k : Nat) (x : Fry) : (s.setFry k x).reqNo = s.reqNo := rfl
@[simp] theorem State.setFry_mreqs (k : Nat) (x : Fry) : (s.setFry k x).mreqs = s.mreqs := rfl
@[simp] theorem State.setFry_mwait (k : Nat) (x : Fry) : (s.setFry k x).mwait = s.mwait := rfl
@[simp] theorem State.setFry_ridHold (k : Nat) (x : Fry) : (s.setFry k x).ridHold = s.ridHold := rfl
@[simp] theorem State.setFry_hrbDone (k : Nat) (x : Fry) : (s.setFry k x).hrbDone = s.hrbDone := rfl
@[simp] theorem State.setFry_kvs (k : Nat) (x : Fry) : (s.setFry k x).kvs = s.kvs := rfl
@[simp] theorem State.setFry_kvUndo (k : Nat) (x : Fry) : (s.setFry k x).kvUndo = s.kvUndo := rfl
@[simp] theorem State.setFry_mout (k : Nat) (x : Fry) : (s.setFry k x).mout = s.mout := rfl
@[simp] theorem State.setFry_inbox (k : Nat) (x : Fry) : (s.setFry k x).inbox = s.inbox := rfl
@[simp] theorem State.setFry_jobs (k : Nat) (x : Fry) : (s.setFry k x).jobs = s.jobs := rfl
@[simp] theorem State.setFry_shgs (k : Nat) (x : Fry) : (s.setFry k x).shgs = s.shgs := rfl
@[simp] theorem State.setFry_stns (k : Nat) (x : Fry) : (s.setFry k x).stns = s.stns := rfl
@[simp] theorem State.setFry_air (k : Nat) (x : Fry) : (s.setFry k x).air = s.air := rfl
@[simp] theorem State.setFry_tide (k : Nat) (x : Fry) : (s.setFry k x).tide = s.tide := rfl
@[simp] theorem State.setFry_notes (k : Nat) (x : Fry) : (s.setFry k x).notes = s.notes := rfl
@[simp] theorem State.setFry_light (k : Nat) (x : Fry) : (s.setFry k x).light = s.light := rfl
@[simp] theorem State.setFry_intake (k : Nat) (x : Fry) : (s.setFry k x).intake = s.intake := rfl
@[simp] theorem State.setFry_smps (k : Nat) (x : Fry) : (s.setFry k x).smps = s.smps := rfl
@[simp] theorem State.setFry_ports (k : Nat) (x : Fry) : (s.setFry k x).ports = s.ports := rfl
@[simp] theorem State.setFry_frys (k : Nat) (x : Fry) : (s.setFry k x).frys = smSet (fun _ => Fry.reset) s.frys k x := rfl
@[simp] theorem State.setFry_fryLast (k : Nat) (x : Fry) : (s.setFry k x).fryLast = s.fryLast := rfl
@[simp] theorem State.setFry_rings (k : Nat) (x : Fry) : (s.setFry k x).rings = s.rings := rfl
@[simp] theorem State.setFry_plans (k : Nat) (x : Fry) : (s.setFry k x).plans = s.plans := rfl
@[simp] theorem State.setFry_calmSince (k : Nat) (x : Fry) : (s.setFry k x).calmSince = s.calmSince := rfl
@[simp] theorem State.setFry_fw (k : Nat) (x : Fry) : (s.setFry k x).fw = s.fw := rfl
@[simp] theorem State.setFry_flt (k : Nat) (x : Fry) : (s.setFry k x).flt = s.flt := rfl
@[simp] theorem State.setFry_fab (k : Nat) (x : Fry) : (s.setFry k x).fab = s.fab := rfl
@[simp] theorem State.setFry_stl (k : Nat) (x : Fry) : (s.setFry k x).stl = s.stl := rfl
@[simp] theorem State.setFry_pwr (k : Nat) (x : Fry) : (s.setFry k x).pwr = s.pwr := rfl
@[simp] theorem State.setFry_rst (k : Nat) (x : Fry) : (s.setFry k x).rst = s.rst := rfl
@[simp] theorem State.setFry_sec (k : Nat) (x : Fry) : (s.setFry k x).sec = s.sec := rfl
@[simp] theorem State.setFry_twn (k : Nat) (x : Fry) : (s.setFry k x).twn = s.twn := rfl
@[simp] theorem State.setFry_out (k : Nat) (x : Fry) : (s.setFry k x).out = s.out := rfl
@[simp] theorem State.setFry_raised (k : Nat) (x : Fry) : (s.setFry k x).raised = s.raised := rfl
@[simp] theorem State.setFry_free (k : Nat) (x : Fry) : (s.setFry k x).free = s.free := rfl
@[simp] theorem State.setFry_pending (k : Nat) (x : Fry) : (s.setFry k x).pending = s.pending := rfl
@[simp] theorem State.setFry_rd (k : Nat) (x : Fry) (h : Fld) (j : Nat) : (s.setFry k x).rd h j = s.rd h j := rfl

/-! `setRing` -/
@[simp] theorem State.setRing_regs (k : Nat) (x : Ring) : (s.setRing k x).regs = s.regs := rfl
@[simp] theorem State.setRing_tiles (k : Nat) (x : Ring) : (s.setRing k x).tiles = s.tiles := rfl
@[simp] theorem State.setRing_regions (k : Nat) (x : Ring) : (s.setRing k x).regions = s.regions := rfl
@[simp] theorem State.setRing_links (k : Nat) (x : Ring) : (s.setRing k x).links = s.links := rfl
@[simp] theorem State.setRing_barrs (k : Nat) (x : Ring) : (s.setRing k x).barrs = s.barrs := rfl
@[simp] theorem State.setRing_dies (k : Nat) (x : Ring) : (s.setRing k x).dies = s.dies := rfl
@[simp] theorem State.setRing_pool (k : Nat) (x : Ring) : (s.setRing k x).pool = s.pool := rfl
@[simp] theorem State.setRing_fills (k : Nat) (x : Ring) : (s.setRing k x).fills = s.fills := rfl
@[simp] theorem State.setRing_couplers (k : Nat) (x : Ring) : (s.setRing k x).couplers = s.couplers := rfl
@[simp] theorem State.setRing_bandTap (k : Nat) (x : Ring) : (s.setRing k x).bandTap = s.bandTap := rfl
@[simp] theorem State.setRing_hbm (k : Nat) (x : Ring) : (s.setRing k x).hbm = s.hbm := rfl
@[simp] theorem State.setRing_hbmPoison (k : Nat) (x : Ring) : (s.setRing k x).hbmPoison = s.hbmPoison := rfl
@[simp] theorem State.setRing_undec (k : Nat) (x : Ring) : (s.setRing k x).undec = s.undec := rfl
@[simp] theorem State.setRing_reqNo (k : Nat) (x : Ring) : (s.setRing k x).reqNo = s.reqNo := rfl
@[simp] theorem State.setRing_mreqs (k : Nat) (x : Ring) : (s.setRing k x).mreqs = s.mreqs := rfl
@[simp] theorem State.setRing_mwait (k : Nat) (x : Ring) : (s.setRing k x).mwait = s.mwait := rfl
@[simp] theorem State.setRing_ridHold (k : Nat) (x : Ring) : (s.setRing k x).ridHold = s.ridHold := rfl
@[simp] theorem State.setRing_hrbDone (k : Nat) (x : Ring) : (s.setRing k x).hrbDone = s.hrbDone := rfl
@[simp] theorem State.setRing_kvs (k : Nat) (x : Ring) : (s.setRing k x).kvs = s.kvs := rfl
@[simp] theorem State.setRing_kvUndo (k : Nat) (x : Ring) : (s.setRing k x).kvUndo = s.kvUndo := rfl
@[simp] theorem State.setRing_mout (k : Nat) (x : Ring) : (s.setRing k x).mout = s.mout := rfl
@[simp] theorem State.setRing_inbox (k : Nat) (x : Ring) : (s.setRing k x).inbox = s.inbox := rfl
@[simp] theorem State.setRing_jobs (k : Nat) (x : Ring) : (s.setRing k x).jobs = s.jobs := rfl
@[simp] theorem State.setRing_shgs (k : Nat) (x : Ring) : (s.setRing k x).shgs = s.shgs := rfl
@[simp] theorem State.setRing_stns (k : Nat) (x : Ring) : (s.setRing k x).stns = s.stns := rfl
@[simp] theorem State.setRing_air (k : Nat) (x : Ring) : (s.setRing k x).air = s.air := rfl
@[simp] theorem State.setRing_tide (k : Nat) (x : Ring) : (s.setRing k x).tide = s.tide := rfl
@[simp] theorem State.setRing_notes (k : Nat) (x : Ring) : (s.setRing k x).notes = s.notes := rfl
@[simp] theorem State.setRing_light (k : Nat) (x : Ring) : (s.setRing k x).light = s.light := rfl
@[simp] theorem State.setRing_intake (k : Nat) (x : Ring) : (s.setRing k x).intake = s.intake := rfl
@[simp] theorem State.setRing_smps (k : Nat) (x : Ring) : (s.setRing k x).smps = s.smps := rfl
@[simp] theorem State.setRing_ports (k : Nat) (x : Ring) : (s.setRing k x).ports = s.ports := rfl
@[simp] theorem State.setRing_frys (k : Nat) (x : Ring) : (s.setRing k x).frys = s.frys := rfl
@[simp] theorem State.setRing_fryLast (k : Nat) (x : Ring) : (s.setRing k x).fryLast = s.fryLast := rfl
@[simp] theorem State.setRing_rings (k : Nat) (x : Ring) : (s.setRing k x).rings = smSet (fun _ => Ring.reset) s.rings k x := rfl
@[simp] theorem State.setRing_plans (k : Nat) (x : Ring) : (s.setRing k x).plans = s.plans := rfl
@[simp] theorem State.setRing_calmSince (k : Nat) (x : Ring) : (s.setRing k x).calmSince = s.calmSince := rfl
@[simp] theorem State.setRing_fw (k : Nat) (x : Ring) : (s.setRing k x).fw = s.fw := rfl
@[simp] theorem State.setRing_flt (k : Nat) (x : Ring) : (s.setRing k x).flt = s.flt := rfl
@[simp] theorem State.setRing_fab (k : Nat) (x : Ring) : (s.setRing k x).fab = s.fab := rfl
@[simp] theorem State.setRing_stl (k : Nat) (x : Ring) : (s.setRing k x).stl = s.stl := rfl
@[simp] theorem State.setRing_pwr (k : Nat) (x : Ring) : (s.setRing k x).pwr = s.pwr := rfl
@[simp] theorem State.setRing_rst (k : Nat) (x : Ring) : (s.setRing k x).rst = s.rst := rfl
@[simp] theorem State.setRing_sec (k : Nat) (x : Ring) : (s.setRing k x).sec = s.sec := rfl
@[simp] theorem State.setRing_twn (k : Nat) (x : Ring) : (s.setRing k x).twn = s.twn := rfl
@[simp] theorem State.setRing_out (k : Nat) (x : Ring) : (s.setRing k x).out = s.out := rfl
@[simp] theorem State.setRing_raised (k : Nat) (x : Ring) : (s.setRing k x).raised = s.raised := rfl
@[simp] theorem State.setRing_free (k : Nat) (x : Ring) : (s.setRing k x).free = s.free := rfl
@[simp] theorem State.setRing_pending (k : Nat) (x : Ring) : (s.setRing k x).pending = s.pending := rfl
@[simp] theorem State.setRing_rd (k : Nat) (x : Ring) (h : Fld) (j : Nat) : (s.setRing k x).rd h j = s.rd h j := rfl

/-! `setSmp` -/
@[simp] theorem State.setSmp_regs (k : Nat) (x : Smp) : (s.setSmp k x).regs = s.regs := rfl
@[simp] theorem State.setSmp_tiles (k : Nat) (x : Smp) : (s.setSmp k x).tiles = s.tiles := rfl
@[simp] theorem State.setSmp_regions (k : Nat) (x : Smp) : (s.setSmp k x).regions = s.regions := rfl
@[simp] theorem State.setSmp_links (k : Nat) (x : Smp) : (s.setSmp k x).links = s.links := rfl
@[simp] theorem State.setSmp_barrs (k : Nat) (x : Smp) : (s.setSmp k x).barrs = s.barrs := rfl
@[simp] theorem State.setSmp_dies (k : Nat) (x : Smp) : (s.setSmp k x).dies = s.dies := rfl
@[simp] theorem State.setSmp_pool (k : Nat) (x : Smp) : (s.setSmp k x).pool = s.pool := rfl
@[simp] theorem State.setSmp_fills (k : Nat) (x : Smp) : (s.setSmp k x).fills = s.fills := rfl
@[simp] theorem State.setSmp_couplers (k : Nat) (x : Smp) : (s.setSmp k x).couplers = s.couplers := rfl
@[simp] theorem State.setSmp_bandTap (k : Nat) (x : Smp) : (s.setSmp k x).bandTap = s.bandTap := rfl
@[simp] theorem State.setSmp_hbm (k : Nat) (x : Smp) : (s.setSmp k x).hbm = s.hbm := rfl
@[simp] theorem State.setSmp_hbmPoison (k : Nat) (x : Smp) : (s.setSmp k x).hbmPoison = s.hbmPoison := rfl
@[simp] theorem State.setSmp_undec (k : Nat) (x : Smp) : (s.setSmp k x).undec = s.undec := rfl
@[simp] theorem State.setSmp_reqNo (k : Nat) (x : Smp) : (s.setSmp k x).reqNo = s.reqNo := rfl
@[simp] theorem State.setSmp_mreqs (k : Nat) (x : Smp) : (s.setSmp k x).mreqs = s.mreqs := rfl
@[simp] theorem State.setSmp_mwait (k : Nat) (x : Smp) : (s.setSmp k x).mwait = s.mwait := rfl
@[simp] theorem State.setSmp_ridHold (k : Nat) (x : Smp) : (s.setSmp k x).ridHold = s.ridHold := rfl
@[simp] theorem State.setSmp_hrbDone (k : Nat) (x : Smp) : (s.setSmp k x).hrbDone = s.hrbDone := rfl
@[simp] theorem State.setSmp_kvs (k : Nat) (x : Smp) : (s.setSmp k x).kvs = s.kvs := rfl
@[simp] theorem State.setSmp_kvUndo (k : Nat) (x : Smp) : (s.setSmp k x).kvUndo = s.kvUndo := rfl
@[simp] theorem State.setSmp_mout (k : Nat) (x : Smp) : (s.setSmp k x).mout = s.mout := rfl
@[simp] theorem State.setSmp_inbox (k : Nat) (x : Smp) : (s.setSmp k x).inbox = s.inbox := rfl
@[simp] theorem State.setSmp_jobs (k : Nat) (x : Smp) : (s.setSmp k x).jobs = s.jobs := rfl
@[simp] theorem State.setSmp_shgs (k : Nat) (x : Smp) : (s.setSmp k x).shgs = s.shgs := rfl
@[simp] theorem State.setSmp_stns (k : Nat) (x : Smp) : (s.setSmp k x).stns = s.stns := rfl
@[simp] theorem State.setSmp_air (k : Nat) (x : Smp) : (s.setSmp k x).air = s.air := rfl
@[simp] theorem State.setSmp_tide (k : Nat) (x : Smp) : (s.setSmp k x).tide = s.tide := rfl
@[simp] theorem State.setSmp_notes (k : Nat) (x : Smp) : (s.setSmp k x).notes = s.notes := rfl
@[simp] theorem State.setSmp_light (k : Nat) (x : Smp) : (s.setSmp k x).light = s.light := rfl
@[simp] theorem State.setSmp_intake (k : Nat) (x : Smp) : (s.setSmp k x).intake = s.intake := rfl
@[simp] theorem State.setSmp_smps (k : Nat) (x : Smp) : (s.setSmp k x).smps = smSet (fun _ => Smp.reset) s.smps k x := rfl
@[simp] theorem State.setSmp_ports (k : Nat) (x : Smp) : (s.setSmp k x).ports = s.ports := rfl
@[simp] theorem State.setSmp_frys (k : Nat) (x : Smp) : (s.setSmp k x).frys = s.frys := rfl
@[simp] theorem State.setSmp_fryLast (k : Nat) (x : Smp) : (s.setSmp k x).fryLast = s.fryLast := rfl
@[simp] theorem State.setSmp_rings (k : Nat) (x : Smp) : (s.setSmp k x).rings = s.rings := rfl
@[simp] theorem State.setSmp_plans (k : Nat) (x : Smp) : (s.setSmp k x).plans = s.plans := rfl
@[simp] theorem State.setSmp_calmSince (k : Nat) (x : Smp) : (s.setSmp k x).calmSince = s.calmSince := rfl
@[simp] theorem State.setSmp_fw (k : Nat) (x : Smp) : (s.setSmp k x).fw = s.fw := rfl
@[simp] theorem State.setSmp_flt (k : Nat) (x : Smp) : (s.setSmp k x).flt = s.flt := rfl
@[simp] theorem State.setSmp_fab (k : Nat) (x : Smp) : (s.setSmp k x).fab = s.fab := rfl
@[simp] theorem State.setSmp_stl (k : Nat) (x : Smp) : (s.setSmp k x).stl = s.stl := rfl
@[simp] theorem State.setSmp_pwr (k : Nat) (x : Smp) : (s.setSmp k x).pwr = s.pwr := rfl
@[simp] theorem State.setSmp_rst (k : Nat) (x : Smp) : (s.setSmp k x).rst = s.rst := rfl
@[simp] theorem State.setSmp_sec (k : Nat) (x : Smp) : (s.setSmp k x).sec = s.sec := rfl
@[simp] theorem State.setSmp_twn (k : Nat) (x : Smp) : (s.setSmp k x).twn = s.twn := rfl
@[simp] theorem State.setSmp_out (k : Nat) (x : Smp) : (s.setSmp k x).out = s.out := rfl
@[simp] theorem State.setSmp_raised (k : Nat) (x : Smp) : (s.setSmp k x).raised = s.raised := rfl
@[simp] theorem State.setSmp_free (k : Nat) (x : Smp) : (s.setSmp k x).free = s.free := rfl
@[simp] theorem State.setSmp_pending (k : Nat) (x : Smp) : (s.setSmp k x).pending = s.pending := rfl
@[simp] theorem State.setSmp_rd (k : Nat) (x : Smp) (h : Fld) (j : Nat) : (s.setSmp k x).rd h j = s.rd h j := rfl

/-! `setBarr` -/
@[simp] theorem State.setBarr_regs (k b : Nat) (x : List BarrEnt) : (s.setBarr k b x).regs = s.regs := rfl
@[simp] theorem State.setBarr_tiles (k b : Nat) (x : List BarrEnt) : (s.setBarr k b x).tiles = s.tiles := rfl
@[simp] theorem State.setBarr_regions (k b : Nat) (x : List BarrEnt) : (s.setBarr k b x).regions = s.regions := rfl
@[simp] theorem State.setBarr_links (k b : Nat) (x : List BarrEnt) : (s.setBarr k b x).links = s.links := rfl
@[simp] theorem State.setBarr_barrs (k b : Nat) (x : List BarrEnt) : (s.setBarr k b x).barrs = smSet (fun _ => []) s.barrs (k * 16 + b) x := rfl
@[simp] theorem State.setBarr_dies (k b : Nat) (x : List BarrEnt) : (s.setBarr k b x).dies = s.dies := rfl
@[simp] theorem State.setBarr_pool (k b : Nat) (x : List BarrEnt) : (s.setBarr k b x).pool = s.pool := rfl
@[simp] theorem State.setBarr_fills (k b : Nat) (x : List BarrEnt) : (s.setBarr k b x).fills = s.fills := rfl
@[simp] theorem State.setBarr_couplers (k b : Nat) (x : List BarrEnt) : (s.setBarr k b x).couplers = s.couplers := rfl
@[simp] theorem State.setBarr_bandTap (k b : Nat) (x : List BarrEnt) : (s.setBarr k b x).bandTap = s.bandTap := rfl
@[simp] theorem State.setBarr_hbm (k b : Nat) (x : List BarrEnt) : (s.setBarr k b x).hbm = s.hbm := rfl
@[simp] theorem State.setBarr_hbmPoison (k b : Nat) (x : List BarrEnt) : (s.setBarr k b x).hbmPoison = s.hbmPoison := rfl
@[simp] theorem State.setBarr_undec (k b : Nat) (x : List BarrEnt) : (s.setBarr k b x).undec = s.undec := rfl
@[simp] theorem State.setBarr_reqNo (k b : Nat) (x : List BarrEnt) : (s.setBarr k b x).reqNo = s.reqNo := rfl
@[simp] theorem State.setBarr_mreqs (k b : Nat) (x : List BarrEnt) : (s.setBarr k b x).mreqs = s.mreqs := rfl
@[simp] theorem State.setBarr_mwait (k b : Nat) (x : List BarrEnt) : (s.setBarr k b x).mwait = s.mwait := rfl
@[simp] theorem State.setBarr_ridHold (k b : Nat) (x : List BarrEnt) : (s.setBarr k b x).ridHold = s.ridHold := rfl
@[simp] theorem State.setBarr_hrbDone (k b : Nat) (x : List BarrEnt) : (s.setBarr k b x).hrbDone = s.hrbDone := rfl
@[simp] theorem State.setBarr_kvs (k b : Nat) (x : List BarrEnt) : (s.setBarr k b x).kvs = s.kvs := rfl
@[simp] theorem State.setBarr_kvUndo (k b : Nat) (x : List BarrEnt) : (s.setBarr k b x).kvUndo = s.kvUndo := rfl
@[simp] theorem State.setBarr_mout (k b : Nat) (x : List BarrEnt) : (s.setBarr k b x).mout = s.mout := rfl
@[simp] theorem State.setBarr_inbox (k b : Nat) (x : List BarrEnt) : (s.setBarr k b x).inbox = s.inbox := rfl
@[simp] theorem State.setBarr_jobs (k b : Nat) (x : List BarrEnt) : (s.setBarr k b x).jobs = s.jobs := rfl
@[simp] theorem State.setBarr_shgs (k b : Nat) (x : List BarrEnt) : (s.setBarr k b x).shgs = s.shgs := rfl
@[simp] theorem State.setBarr_stns (k b : Nat) (x : List BarrEnt) : (s.setBarr k b x).stns = s.stns := rfl
@[simp] theorem State.setBarr_air (k b : Nat) (x : List BarrEnt) : (s.setBarr k b x).air = s.air := rfl
@[simp] theorem State.setBarr_tide (k b : Nat) (x : List BarrEnt) : (s.setBarr k b x).tide = s.tide := rfl
@[simp] theorem State.setBarr_notes (k b : Nat) (x : List BarrEnt) : (s.setBarr k b x).notes = s.notes := rfl
@[simp] theorem State.setBarr_light (k b : Nat) (x : List BarrEnt) : (s.setBarr k b x).light = s.light := rfl
@[simp] theorem State.setBarr_intake (k b : Nat) (x : List BarrEnt) : (s.setBarr k b x).intake = s.intake := rfl
@[simp] theorem State.setBarr_smps (k b : Nat) (x : List BarrEnt) : (s.setBarr k b x).smps = s.smps := rfl
@[simp] theorem State.setBarr_ports (k b : Nat) (x : List BarrEnt) : (s.setBarr k b x).ports = s.ports := rfl
@[simp] theorem State.setBarr_frys (k b : Nat) (x : List BarrEnt) : (s.setBarr k b x).frys = s.frys := rfl
@[simp] theorem State.setBarr_fryLast (k b : Nat) (x : List BarrEnt) : (s.setBarr k b x).fryLast = s.fryLast := rfl
@[simp] theorem State.setBarr_rings (k b : Nat) (x : List BarrEnt) : (s.setBarr k b x).rings = s.rings := rfl
@[simp] theorem State.setBarr_plans (k b : Nat) (x : List BarrEnt) : (s.setBarr k b x).plans = s.plans := rfl
@[simp] theorem State.setBarr_calmSince (k b : Nat) (x : List BarrEnt) : (s.setBarr k b x).calmSince = s.calmSince := rfl
@[simp] theorem State.setBarr_fw (k b : Nat) (x : List BarrEnt) : (s.setBarr k b x).fw = s.fw := rfl
@[simp] theorem State.setBarr_flt (k b : Nat) (x : List BarrEnt) : (s.setBarr k b x).flt = s.flt := rfl
@[simp] theorem State.setBarr_fab (k b : Nat) (x : List BarrEnt) : (s.setBarr k b x).fab = s.fab := rfl
@[simp] theorem State.setBarr_stl (k b : Nat) (x : List BarrEnt) : (s.setBarr k b x).stl = s.stl := rfl
@[simp] theorem State.setBarr_pwr (k b : Nat) (x : List BarrEnt) : (s.setBarr k b x).pwr = s.pwr := rfl
@[simp] theorem State.setBarr_rst (k b : Nat) (x : List BarrEnt) : (s.setBarr k b x).rst = s.rst := rfl
@[simp] theorem State.setBarr_sec (k b : Nat) (x : List BarrEnt) : (s.setBarr k b x).sec = s.sec := rfl
@[simp] theorem State.setBarr_twn (k b : Nat) (x : List BarrEnt) : (s.setBarr k b x).twn = s.twn := rfl
@[simp] theorem State.setBarr_out (k b : Nat) (x : List BarrEnt) : (s.setBarr k b x).out = s.out := rfl
@[simp] theorem State.setBarr_raised (k b : Nat) (x : List BarrEnt) : (s.setBarr k b x).raised = s.raised := rfl
@[simp] theorem State.setBarr_free (k b : Nat) (x : List BarrEnt) : (s.setBarr k b x).free = s.free := rfl
@[simp] theorem State.setBarr_pending (k b : Nat) (x : List BarrEnt) : (s.setBarr k b x).pending = s.pending := rfl
@[simp] theorem State.setBarr_rd (k b : Nat) (x : List BarrEnt) (h : Fld) (j : Nat) : (s.setBarr k b x).rd h j = s.rd h j := rfl

/-! `onTide` -/
@[simp] theorem State.onTide_regs (g : Tide → Tide) : (s.onTide g).regs = s.regs := rfl
@[simp] theorem State.onTide_tiles (g : Tide → Tide) : (s.onTide g).tiles = s.tiles := rfl
@[simp] theorem State.onTide_regions (g : Tide → Tide) : (s.onTide g).regions = s.regions := rfl
@[simp] theorem State.onTide_links (g : Tide → Tide) : (s.onTide g).links = s.links := rfl
@[simp] theorem State.onTide_barrs (g : Tide → Tide) : (s.onTide g).barrs = s.barrs := rfl
@[simp] theorem State.onTide_dies (g : Tide → Tide) : (s.onTide g).dies = s.dies := rfl
@[simp] theorem State.onTide_pool (g : Tide → Tide) : (s.onTide g).pool = s.pool := rfl
@[simp] theorem State.onTide_fills (g : Tide → Tide) : (s.onTide g).fills = s.fills := rfl
@[simp] theorem State.onTide_couplers (g : Tide → Tide) : (s.onTide g).couplers = s.couplers := rfl
@[simp] theorem State.onTide_bandTap (g : Tide → Tide) : (s.onTide g).bandTap = s.bandTap := rfl
@[simp] theorem State.onTide_hbm (g : Tide → Tide) : (s.onTide g).hbm = s.hbm := rfl
@[simp] theorem State.onTide_hbmPoison (g : Tide → Tide) : (s.onTide g).hbmPoison = s.hbmPoison := rfl
@[simp] theorem State.onTide_undec (g : Tide → Tide) : (s.onTide g).undec = s.undec := rfl
@[simp] theorem State.onTide_reqNo (g : Tide → Tide) : (s.onTide g).reqNo = s.reqNo := rfl
@[simp] theorem State.onTide_mreqs (g : Tide → Tide) : (s.onTide g).mreqs = s.mreqs := rfl
@[simp] theorem State.onTide_mwait (g : Tide → Tide) : (s.onTide g).mwait = s.mwait := rfl
@[simp] theorem State.onTide_ridHold (g : Tide → Tide) : (s.onTide g).ridHold = s.ridHold := rfl
@[simp] theorem State.onTide_hrbDone (g : Tide → Tide) : (s.onTide g).hrbDone = s.hrbDone := rfl
@[simp] theorem State.onTide_kvs (g : Tide → Tide) : (s.onTide g).kvs = s.kvs := rfl
@[simp] theorem State.onTide_kvUndo (g : Tide → Tide) : (s.onTide g).kvUndo = s.kvUndo := rfl
@[simp] theorem State.onTide_mout (g : Tide → Tide) : (s.onTide g).mout = s.mout := rfl
@[simp] theorem State.onTide_inbox (g : Tide → Tide) : (s.onTide g).inbox = s.inbox := rfl
@[simp] theorem State.onTide_jobs (g : Tide → Tide) : (s.onTide g).jobs = s.jobs := rfl
@[simp] theorem State.onTide_shgs (g : Tide → Tide) : (s.onTide g).shgs = s.shgs := rfl
@[simp] theorem State.onTide_stns (g : Tide → Tide) : (s.onTide g).stns = s.stns := rfl
@[simp] theorem State.onTide_air (g : Tide → Tide) : (s.onTide g).air = s.air := rfl
@[simp] theorem State.onTide_tide (g : Tide → Tide) : (s.onTide g).tide = g s.tide := rfl
@[simp] theorem State.onTide_notes (g : Tide → Tide) : (s.onTide g).notes = s.notes := rfl
@[simp] theorem State.onTide_light (g : Tide → Tide) : (s.onTide g).light = s.light := rfl
@[simp] theorem State.onTide_intake (g : Tide → Tide) : (s.onTide g).intake = s.intake := rfl
@[simp] theorem State.onTide_smps (g : Tide → Tide) : (s.onTide g).smps = s.smps := rfl
@[simp] theorem State.onTide_ports (g : Tide → Tide) : (s.onTide g).ports = s.ports := rfl
@[simp] theorem State.onTide_frys (g : Tide → Tide) : (s.onTide g).frys = s.frys := rfl
@[simp] theorem State.onTide_fryLast (g : Tide → Tide) : (s.onTide g).fryLast = s.fryLast := rfl
@[simp] theorem State.onTide_rings (g : Tide → Tide) : (s.onTide g).rings = s.rings := rfl
@[simp] theorem State.onTide_plans (g : Tide → Tide) : (s.onTide g).plans = s.plans := rfl
@[simp] theorem State.onTide_calmSince (g : Tide → Tide) : (s.onTide g).calmSince = s.calmSince := rfl
@[simp] theorem State.onTide_fw (g : Tide → Tide) : (s.onTide g).fw = s.fw := rfl
@[simp] theorem State.onTide_flt (g : Tide → Tide) : (s.onTide g).flt = s.flt := rfl
@[simp] theorem State.onTide_fab (g : Tide → Tide) : (s.onTide g).fab = s.fab := rfl
@[simp] theorem State.onTide_stl (g : Tide → Tide) : (s.onTide g).stl = s.stl := rfl
@[simp] theorem State.onTide_pwr (g : Tide → Tide) : (s.onTide g).pwr = s.pwr := rfl
@[simp] theorem State.onTide_rst (g : Tide → Tide) : (s.onTide g).rst = s.rst := rfl
@[simp] theorem State.onTide_sec (g : Tide → Tide) : (s.onTide g).sec = s.sec := rfl
@[simp] theorem State.onTide_twn (g : Tide → Tide) : (s.onTide g).twn = s.twn := rfl
@[simp] theorem State.onTide_out (g : Tide → Tide) : (s.onTide g).out = s.out := rfl
@[simp] theorem State.onTide_raised (g : Tide → Tide) : (s.onTide g).raised = s.raised := rfl
@[simp] theorem State.onTide_free (g : Tide → Tide) : (s.onTide g).free = s.free := rfl
@[simp] theorem State.onTide_pending (g : Tide → Tide) : (s.onTide g).pending = s.pending := rfl
@[simp] theorem State.onTide_rd (g : Tide → Tide) (h : Fld) (j : Nat) : (s.onTide g).rd h j = s.rd h j := rfl

/-! `onLight` -/
@[simp] theorem State.onLight_regs (g : Light → Light) : (s.onLight g).regs = s.regs := rfl
@[simp] theorem State.onLight_tiles (g : Light → Light) : (s.onLight g).tiles = s.tiles := rfl
@[simp] theorem State.onLight_regions (g : Light → Light) : (s.onLight g).regions = s.regions := rfl
@[simp] theorem State.onLight_links (g : Light → Light) : (s.onLight g).links = s.links := rfl
@[simp] theorem State.onLight_barrs (g : Light → Light) : (s.onLight g).barrs = s.barrs := rfl
@[simp] theorem State.onLight_dies (g : Light → Light) : (s.onLight g).dies = s.dies := rfl
@[simp] theorem State.onLight_pool (g : Light → Light) : (s.onLight g).pool = s.pool := rfl
@[simp] theorem State.onLight_fills (g : Light → Light) : (s.onLight g).fills = s.fills := rfl
@[simp] theorem State.onLight_couplers (g : Light → Light) : (s.onLight g).couplers = s.couplers := rfl
@[simp] theorem State.onLight_bandTap (g : Light → Light) : (s.onLight g).bandTap = s.bandTap := rfl
@[simp] theorem State.onLight_hbm (g : Light → Light) : (s.onLight g).hbm = s.hbm := rfl
@[simp] theorem State.onLight_hbmPoison (g : Light → Light) : (s.onLight g).hbmPoison = s.hbmPoison := rfl
@[simp] theorem State.onLight_undec (g : Light → Light) : (s.onLight g).undec = s.undec := rfl
@[simp] theorem State.onLight_reqNo (g : Light → Light) : (s.onLight g).reqNo = s.reqNo := rfl
@[simp] theorem State.onLight_mreqs (g : Light → Light) : (s.onLight g).mreqs = s.mreqs := rfl
@[simp] theorem State.onLight_mwait (g : Light → Light) : (s.onLight g).mwait = s.mwait := rfl
@[simp] theorem State.onLight_ridHold (g : Light → Light) : (s.onLight g).ridHold = s.ridHold := rfl
@[simp] theorem State.onLight_hrbDone (g : Light → Light) : (s.onLight g).hrbDone = s.hrbDone := rfl
@[simp] theorem State.onLight_kvs (g : Light → Light) : (s.onLight g).kvs = s.kvs := rfl
@[simp] theorem State.onLight_kvUndo (g : Light → Light) : (s.onLight g).kvUndo = s.kvUndo := rfl
@[simp] theorem State.onLight_mout (g : Light → Light) : (s.onLight g).mout = s.mout := rfl
@[simp] theorem State.onLight_inbox (g : Light → Light) : (s.onLight g).inbox = s.inbox := rfl
@[simp] theorem State.onLight_jobs (g : Light → Light) : (s.onLight g).jobs = s.jobs := rfl
@[simp] theorem State.onLight_shgs (g : Light → Light) : (s.onLight g).shgs = s.shgs := rfl
@[simp] theorem State.onLight_stns (g : Light → Light) : (s.onLight g).stns = s.stns := rfl
@[simp] theorem State.onLight_air (g : Light → Light) : (s.onLight g).air = s.air := rfl
@[simp] theorem State.onLight_tide (g : Light → Light) : (s.onLight g).tide = s.tide := rfl
@[simp] theorem State.onLight_notes (g : Light → Light) : (s.onLight g).notes = s.notes := rfl
@[simp] theorem State.onLight_light (g : Light → Light) : (s.onLight g).light = g s.light := rfl
@[simp] theorem State.onLight_intake (g : Light → Light) : (s.onLight g).intake = s.intake := rfl
@[simp] theorem State.onLight_smps (g : Light → Light) : (s.onLight g).smps = s.smps := rfl
@[simp] theorem State.onLight_ports (g : Light → Light) : (s.onLight g).ports = s.ports := rfl
@[simp] theorem State.onLight_frys (g : Light → Light) : (s.onLight g).frys = s.frys := rfl
@[simp] theorem State.onLight_fryLast (g : Light → Light) : (s.onLight g).fryLast = s.fryLast := rfl
@[simp] theorem State.onLight_rings (g : Light → Light) : (s.onLight g).rings = s.rings := rfl
@[simp] theorem State.onLight_plans (g : Light → Light) : (s.onLight g).plans = s.plans := rfl
@[simp] theorem State.onLight_calmSince (g : Light → Light) : (s.onLight g).calmSince = s.calmSince := rfl
@[simp] theorem State.onLight_fw (g : Light → Light) : (s.onLight g).fw = s.fw := rfl
@[simp] theorem State.onLight_flt (g : Light → Light) : (s.onLight g).flt = s.flt := rfl
@[simp] theorem State.onLight_fab (g : Light → Light) : (s.onLight g).fab = s.fab := rfl
@[simp] theorem State.onLight_stl (g : Light → Light) : (s.onLight g).stl = s.stl := rfl
@[simp] theorem State.onLight_pwr (g : Light → Light) : (s.onLight g).pwr = s.pwr := rfl
@[simp] theorem State.onLight_rst (g : Light → Light) : (s.onLight g).rst = s.rst := rfl
@[simp] theorem State.onLight_sec (g : Light → Light) : (s.onLight g).sec = s.sec := rfl
@[simp] theorem State.onLight_twn (g : Light → Light) : (s.onLight g).twn = s.twn := rfl
@[simp] theorem State.onLight_out (g : Light → Light) : (s.onLight g).out = s.out := rfl
@[simp] theorem State.onLight_raised (g : Light → Light) : (s.onLight g).raised = s.raised := rfl
@[simp] theorem State.onLight_free (g : Light → Light) : (s.onLight g).free = s.free := rfl
@[simp] theorem State.onLight_pending (g : Light → Light) : (s.onLight g).pending = s.pending := rfl
@[simp] theorem State.onLight_rd (g : Light → Light) (h : Fld) (j : Nat) : (s.onLight g).rd h j = s.rd h j := rfl

/-! `onFw` -/
@[simp] theorem State.onFw_regs (g : Fw → Fw) : (s.onFw g).regs = s.regs := rfl
@[simp] theorem State.onFw_tiles (g : Fw → Fw) : (s.onFw g).tiles = s.tiles := rfl
@[simp] theorem State.onFw_regions (g : Fw → Fw) : (s.onFw g).regions = s.regions := rfl
@[simp] theorem State.onFw_links (g : Fw → Fw) : (s.onFw g).links = s.links := rfl
@[simp] theorem State.onFw_barrs (g : Fw → Fw) : (s.onFw g).barrs = s.barrs := rfl
@[simp] theorem State.onFw_dies (g : Fw → Fw) : (s.onFw g).dies = s.dies := rfl
@[simp] theorem State.onFw_pool (g : Fw → Fw) : (s.onFw g).pool = s.pool := rfl
@[simp] theorem State.onFw_fills (g : Fw → Fw) : (s.onFw g).fills = s.fills := rfl
@[simp] theorem State.onFw_couplers (g : Fw → Fw) : (s.onFw g).couplers = s.couplers := rfl
@[simp] theorem State.onFw_bandTap (g : Fw → Fw) : (s.onFw g).bandTap = s.bandTap := rfl
@[simp] theorem State.onFw_hbm (g : Fw → Fw) : (s.onFw g).hbm = s.hbm := rfl
@[simp] theorem State.onFw_hbmPoison (g : Fw → Fw) : (s.onFw g).hbmPoison = s.hbmPoison := rfl
@[simp] theorem State.onFw_undec (g : Fw → Fw) : (s.onFw g).undec = s.undec := rfl
@[simp] theorem State.onFw_reqNo (g : Fw → Fw) : (s.onFw g).reqNo = s.reqNo := rfl
@[simp] theorem State.onFw_mreqs (g : Fw → Fw) : (s.onFw g).mreqs = s.mreqs := rfl
@[simp] theorem State.onFw_mwait (g : Fw → Fw) : (s.onFw g).mwait = s.mwait := rfl
@[simp] theorem State.onFw_ridHold (g : Fw → Fw) : (s.onFw g).ridHold = s.ridHold := rfl
@[simp] theorem State.onFw_hrbDone (g : Fw → Fw) : (s.onFw g).hrbDone = s.hrbDone := rfl
@[simp] theorem State.onFw_kvs (g : Fw → Fw) : (s.onFw g).kvs = s.kvs := rfl
@[simp] theorem State.onFw_kvUndo (g : Fw → Fw) : (s.onFw g).kvUndo = s.kvUndo := rfl
@[simp] theorem State.onFw_mout (g : Fw → Fw) : (s.onFw g).mout = s.mout := rfl
@[simp] theorem State.onFw_inbox (g : Fw → Fw) : (s.onFw g).inbox = s.inbox := rfl
@[simp] theorem State.onFw_jobs (g : Fw → Fw) : (s.onFw g).jobs = s.jobs := rfl
@[simp] theorem State.onFw_shgs (g : Fw → Fw) : (s.onFw g).shgs = s.shgs := rfl
@[simp] theorem State.onFw_stns (g : Fw → Fw) : (s.onFw g).stns = s.stns := rfl
@[simp] theorem State.onFw_air (g : Fw → Fw) : (s.onFw g).air = s.air := rfl
@[simp] theorem State.onFw_tide (g : Fw → Fw) : (s.onFw g).tide = s.tide := rfl
@[simp] theorem State.onFw_notes (g : Fw → Fw) : (s.onFw g).notes = s.notes := rfl
@[simp] theorem State.onFw_light (g : Fw → Fw) : (s.onFw g).light = s.light := rfl
@[simp] theorem State.onFw_intake (g : Fw → Fw) : (s.onFw g).intake = s.intake := rfl
@[simp] theorem State.onFw_smps (g : Fw → Fw) : (s.onFw g).smps = s.smps := rfl
@[simp] theorem State.onFw_ports (g : Fw → Fw) : (s.onFw g).ports = s.ports := rfl
@[simp] theorem State.onFw_frys (g : Fw → Fw) : (s.onFw g).frys = s.frys := rfl
@[simp] theorem State.onFw_fryLast (g : Fw → Fw) : (s.onFw g).fryLast = s.fryLast := rfl
@[simp] theorem State.onFw_rings (g : Fw → Fw) : (s.onFw g).rings = s.rings := rfl
@[simp] theorem State.onFw_plans (g : Fw → Fw) : (s.onFw g).plans = s.plans := rfl
@[simp] theorem State.onFw_calmSince (g : Fw → Fw) : (s.onFw g).calmSince = s.calmSince := rfl
@[simp] theorem State.onFw_fw (g : Fw → Fw) : (s.onFw g).fw = g s.fw := rfl
@[simp] theorem State.onFw_flt (g : Fw → Fw) : (s.onFw g).flt = s.flt := rfl
@[simp] theorem State.onFw_fab (g : Fw → Fw) : (s.onFw g).fab = s.fab := rfl
@[simp] theorem State.onFw_stl (g : Fw → Fw) : (s.onFw g).stl = s.stl := rfl
@[simp] theorem State.onFw_pwr (g : Fw → Fw) : (s.onFw g).pwr = s.pwr := rfl
@[simp] theorem State.onFw_rst (g : Fw → Fw) : (s.onFw g).rst = s.rst := rfl
@[simp] theorem State.onFw_sec (g : Fw → Fw) : (s.onFw g).sec = s.sec := rfl
@[simp] theorem State.onFw_twn (g : Fw → Fw) : (s.onFw g).twn = s.twn := rfl
@[simp] theorem State.onFw_out (g : Fw → Fw) : (s.onFw g).out = s.out := rfl
@[simp] theorem State.onFw_raised (g : Fw → Fw) : (s.onFw g).raised = s.raised := rfl
@[simp] theorem State.onFw_free (g : Fw → Fw) : (s.onFw g).free = s.free := rfl
@[simp] theorem State.onFw_pending (g : Fw → Fw) : (s.onFw g).pending = s.pending := rfl
@[simp] theorem State.onFw_rd (g : Fw → Fw) (h : Fld) (j : Nat) : (s.onFw g).rd h j = s.rd h j := rfl

/-! `onSec` -/
@[simp] theorem State.onSec_regs (g : Sec → Sec) : (s.onSec g).regs = s.regs := rfl
@[simp] theorem State.onSec_tiles (g : Sec → Sec) : (s.onSec g).tiles = s.tiles := rfl
@[simp] theorem State.onSec_regions (g : Sec → Sec) : (s.onSec g).regions = s.regions := rfl
@[simp] theorem State.onSec_links (g : Sec → Sec) : (s.onSec g).links = s.links := rfl
@[simp] theorem State.onSec_barrs (g : Sec → Sec) : (s.onSec g).barrs = s.barrs := rfl
@[simp] theorem State.onSec_dies (g : Sec → Sec) : (s.onSec g).dies = s.dies := rfl
@[simp] theorem State.onSec_pool (g : Sec → Sec) : (s.onSec g).pool = s.pool := rfl
@[simp] theorem State.onSec_fills (g : Sec → Sec) : (s.onSec g).fills = s.fills := rfl
@[simp] theorem State.onSec_couplers (g : Sec → Sec) : (s.onSec g).couplers = s.couplers := rfl
@[simp] theorem State.onSec_bandTap (g : Sec → Sec) : (s.onSec g).bandTap = s.bandTap := rfl
@[simp] theorem State.onSec_hbm (g : Sec → Sec) : (s.onSec g).hbm = s.hbm := rfl
@[simp] theorem State.onSec_hbmPoison (g : Sec → Sec) : (s.onSec g).hbmPoison = s.hbmPoison := rfl
@[simp] theorem State.onSec_undec (g : Sec → Sec) : (s.onSec g).undec = s.undec := rfl
@[simp] theorem State.onSec_reqNo (g : Sec → Sec) : (s.onSec g).reqNo = s.reqNo := rfl
@[simp] theorem State.onSec_mreqs (g : Sec → Sec) : (s.onSec g).mreqs = s.mreqs := rfl
@[simp] theorem State.onSec_mwait (g : Sec → Sec) : (s.onSec g).mwait = s.mwait := rfl
@[simp] theorem State.onSec_ridHold (g : Sec → Sec) : (s.onSec g).ridHold = s.ridHold := rfl
@[simp] theorem State.onSec_hrbDone (g : Sec → Sec) : (s.onSec g).hrbDone = s.hrbDone := rfl
@[simp] theorem State.onSec_kvs (g : Sec → Sec) : (s.onSec g).kvs = s.kvs := rfl
@[simp] theorem State.onSec_kvUndo (g : Sec → Sec) : (s.onSec g).kvUndo = s.kvUndo := rfl
@[simp] theorem State.onSec_mout (g : Sec → Sec) : (s.onSec g).mout = s.mout := rfl
@[simp] theorem State.onSec_inbox (g : Sec → Sec) : (s.onSec g).inbox = s.inbox := rfl
@[simp] theorem State.onSec_jobs (g : Sec → Sec) : (s.onSec g).jobs = s.jobs := rfl
@[simp] theorem State.onSec_shgs (g : Sec → Sec) : (s.onSec g).shgs = s.shgs := rfl
@[simp] theorem State.onSec_stns (g : Sec → Sec) : (s.onSec g).stns = s.stns := rfl
@[simp] theorem State.onSec_air (g : Sec → Sec) : (s.onSec g).air = s.air := rfl
@[simp] theorem State.onSec_tide (g : Sec → Sec) : (s.onSec g).tide = s.tide := rfl
@[simp] theorem State.onSec_notes (g : Sec → Sec) : (s.onSec g).notes = s.notes := rfl
@[simp] theorem State.onSec_light (g : Sec → Sec) : (s.onSec g).light = s.light := rfl
@[simp] theorem State.onSec_intake (g : Sec → Sec) : (s.onSec g).intake = s.intake := rfl
@[simp] theorem State.onSec_smps (g : Sec → Sec) : (s.onSec g).smps = s.smps := rfl
@[simp] theorem State.onSec_ports (g : Sec → Sec) : (s.onSec g).ports = s.ports := rfl
@[simp] theorem State.onSec_frys (g : Sec → Sec) : (s.onSec g).frys = s.frys := rfl
@[simp] theorem State.onSec_fryLast (g : Sec → Sec) : (s.onSec g).fryLast = s.fryLast := rfl
@[simp] theorem State.onSec_rings (g : Sec → Sec) : (s.onSec g).rings = s.rings := rfl
@[simp] theorem State.onSec_plans (g : Sec → Sec) : (s.onSec g).plans = s.plans := rfl
@[simp] theorem State.onSec_calmSince (g : Sec → Sec) : (s.onSec g).calmSince = s.calmSince := rfl
@[simp] theorem State.onSec_fw (g : Sec → Sec) : (s.onSec g).fw = s.fw := rfl
@[simp] theorem State.onSec_flt (g : Sec → Sec) : (s.onSec g).flt = s.flt := rfl
@[simp] theorem State.onSec_fab (g : Sec → Sec) : (s.onSec g).fab = s.fab := rfl
@[simp] theorem State.onSec_stl (g : Sec → Sec) : (s.onSec g).stl = s.stl := rfl
@[simp] theorem State.onSec_pwr (g : Sec → Sec) : (s.onSec g).pwr = s.pwr := rfl
@[simp] theorem State.onSec_rst (g : Sec → Sec) : (s.onSec g).rst = s.rst := rfl
@[simp] theorem State.onSec_sec (g : Sec → Sec) : (s.onSec g).sec = g s.sec := rfl
@[simp] theorem State.onSec_twn (g : Sec → Sec) : (s.onSec g).twn = s.twn := rfl
@[simp] theorem State.onSec_out (g : Sec → Sec) : (s.onSec g).out = s.out := rfl
@[simp] theorem State.onSec_raised (g : Sec → Sec) : (s.onSec g).raised = s.raised := rfl
@[simp] theorem State.onSec_free (g : Sec → Sec) : (s.onSec g).free = s.free := rfl
@[simp] theorem State.onSec_pending (g : Sec → Sec) : (s.onSec g).pending = s.pending := rfl
@[simp] theorem State.onSec_rd (g : Sec → Sec) (h : Fld) (j : Nat) : (s.onSec g).rd h j = s.rd h j := rfl

/-! `onStl` -/
@[simp] theorem State.onStl_regs (g : Stl → Stl) : (s.onStl g).regs = s.regs := rfl
@[simp] theorem State.onStl_tiles (g : Stl → Stl) : (s.onStl g).tiles = s.tiles := rfl
@[simp] theorem State.onStl_regions (g : Stl → Stl) : (s.onStl g).regions = s.regions := rfl
@[simp] theorem State.onStl_links (g : Stl → Stl) : (s.onStl g).links = s.links := rfl
@[simp] theorem State.onStl_barrs (g : Stl → Stl) : (s.onStl g).barrs = s.barrs := rfl
@[simp] theorem State.onStl_dies (g : Stl → Stl) : (s.onStl g).dies = s.dies := rfl
@[simp] theorem State.onStl_pool (g : Stl → Stl) : (s.onStl g).pool = s.pool := rfl
@[simp] theorem State.onStl_fills (g : Stl → Stl) : (s.onStl g).fills = s.fills := rfl
@[simp] theorem State.onStl_couplers (g : Stl → Stl) : (s.onStl g).couplers = s.couplers := rfl
@[simp] theorem State.onStl_bandTap (g : Stl → Stl) : (s.onStl g).bandTap = s.bandTap := rfl
@[simp] theorem State.onStl_hbm (g : Stl → Stl) : (s.onStl g).hbm = s.hbm := rfl
@[simp] theorem State.onStl_hbmPoison (g : Stl → Stl) : (s.onStl g).hbmPoison = s.hbmPoison := rfl
@[simp] theorem State.onStl_undec (g : Stl → Stl) : (s.onStl g).undec = s.undec := rfl
@[simp] theorem State.onStl_reqNo (g : Stl → Stl) : (s.onStl g).reqNo = s.reqNo := rfl
@[simp] theorem State.onStl_mreqs (g : Stl → Stl) : (s.onStl g).mreqs = s.mreqs := rfl
@[simp] theorem State.onStl_mwait (g : Stl → Stl) : (s.onStl g).mwait = s.mwait := rfl
@[simp] theorem State.onStl_ridHold (g : Stl → Stl) : (s.onStl g).ridHold = s.ridHold := rfl
@[simp] theorem State.onStl_hrbDone (g : Stl → Stl) : (s.onStl g).hrbDone = s.hrbDone := rfl
@[simp] theorem State.onStl_kvs (g : Stl → Stl) : (s.onStl g).kvs = s.kvs := rfl
@[simp] theorem State.onStl_kvUndo (g : Stl → Stl) : (s.onStl g).kvUndo = s.kvUndo := rfl
@[simp] theorem State.onStl_mout (g : Stl → Stl) : (s.onStl g).mout = s.mout := rfl
@[simp] theorem State.onStl_inbox (g : Stl → Stl) : (s.onStl g).inbox = s.inbox := rfl
@[simp] theorem State.onStl_jobs (g : Stl → Stl) : (s.onStl g).jobs = s.jobs := rfl
@[simp] theorem State.onStl_shgs (g : Stl → Stl) : (s.onStl g).shgs = s.shgs := rfl
@[simp] theorem State.onStl_stns (g : Stl → Stl) : (s.onStl g).stns = s.stns := rfl
@[simp] theorem State.onStl_air (g : Stl → Stl) : (s.onStl g).air = s.air := rfl
@[simp] theorem State.onStl_tide (g : Stl → Stl) : (s.onStl g).tide = s.tide := rfl
@[simp] theorem State.onStl_notes (g : Stl → Stl) : (s.onStl g).notes = s.notes := rfl
@[simp] theorem State.onStl_light (g : Stl → Stl) : (s.onStl g).light = s.light := rfl
@[simp] theorem State.onStl_intake (g : Stl → Stl) : (s.onStl g).intake = s.intake := rfl
@[simp] theorem State.onStl_smps (g : Stl → Stl) : (s.onStl g).smps = s.smps := rfl
@[simp] theorem State.onStl_ports (g : Stl → Stl) : (s.onStl g).ports = s.ports := rfl
@[simp] theorem State.onStl_frys (g : Stl → Stl) : (s.onStl g).frys = s.frys := rfl
@[simp] theorem State.onStl_fryLast (g : Stl → Stl) : (s.onStl g).fryLast = s.fryLast := rfl
@[simp] theorem State.onStl_rings (g : Stl → Stl) : (s.onStl g).rings = s.rings := rfl
@[simp] theorem State.onStl_plans (g : Stl → Stl) : (s.onStl g).plans = s.plans := rfl
@[simp] theorem State.onStl_calmSince (g : Stl → Stl) : (s.onStl g).calmSince = s.calmSince := rfl
@[simp] theorem State.onStl_fw (g : Stl → Stl) : (s.onStl g).fw = s.fw := rfl
@[simp] theorem State.onStl_flt (g : Stl → Stl) : (s.onStl g).flt = s.flt := rfl
@[simp] theorem State.onStl_fab (g : Stl → Stl) : (s.onStl g).fab = s.fab := rfl
@[simp] theorem State.onStl_stl (g : Stl → Stl) : (s.onStl g).stl = g s.stl := rfl
@[simp] theorem State.onStl_pwr (g : Stl → Stl) : (s.onStl g).pwr = s.pwr := rfl
@[simp] theorem State.onStl_rst (g : Stl → Stl) : (s.onStl g).rst = s.rst := rfl
@[simp] theorem State.onStl_sec (g : Stl → Stl) : (s.onStl g).sec = s.sec := rfl
@[simp] theorem State.onStl_twn (g : Stl → Stl) : (s.onStl g).twn = s.twn := rfl
@[simp] theorem State.onStl_out (g : Stl → Stl) : (s.onStl g).out = s.out := rfl
@[simp] theorem State.onStl_raised (g : Stl → Stl) : (s.onStl g).raised = s.raised := rfl
@[simp] theorem State.onStl_free (g : Stl → Stl) : (s.onStl g).free = s.free := rfl
@[simp] theorem State.onStl_pending (g : Stl → Stl) : (s.onStl g).pending = s.pending := rfl
@[simp] theorem State.onStl_rd (g : Stl → Stl) (h : Fld) (j : Nat) : (s.onStl g).rd h j = s.rd h j := rfl

/-! `onPwr` -/
@[simp] theorem State.onPwr_regs (g : Pwr → Pwr) : (s.onPwr g).regs = s.regs := rfl
@[simp] theorem State.onPwr_tiles (g : Pwr → Pwr) : (s.onPwr g).tiles = s.tiles := rfl
@[simp] theorem State.onPwr_regions (g : Pwr → Pwr) : (s.onPwr g).regions = s.regions := rfl
@[simp] theorem State.onPwr_links (g : Pwr → Pwr) : (s.onPwr g).links = s.links := rfl
@[simp] theorem State.onPwr_barrs (g : Pwr → Pwr) : (s.onPwr g).barrs = s.barrs := rfl
@[simp] theorem State.onPwr_dies (g : Pwr → Pwr) : (s.onPwr g).dies = s.dies := rfl
@[simp] theorem State.onPwr_pool (g : Pwr → Pwr) : (s.onPwr g).pool = s.pool := rfl
@[simp] theorem State.onPwr_fills (g : Pwr → Pwr) : (s.onPwr g).fills = s.fills := rfl
@[simp] theorem State.onPwr_couplers (g : Pwr → Pwr) : (s.onPwr g).couplers = s.couplers := rfl
@[simp] theorem State.onPwr_bandTap (g : Pwr → Pwr) : (s.onPwr g).bandTap = s.bandTap := rfl
@[simp] theorem State.onPwr_hbm (g : Pwr → Pwr) : (s.onPwr g).hbm = s.hbm := rfl
@[simp] theorem State.onPwr_hbmPoison (g : Pwr → Pwr) : (s.onPwr g).hbmPoison = s.hbmPoison := rfl
@[simp] theorem State.onPwr_undec (g : Pwr → Pwr) : (s.onPwr g).undec = s.undec := rfl
@[simp] theorem State.onPwr_reqNo (g : Pwr → Pwr) : (s.onPwr g).reqNo = s.reqNo := rfl
@[simp] theorem State.onPwr_mreqs (g : Pwr → Pwr) : (s.onPwr g).mreqs = s.mreqs := rfl
@[simp] theorem State.onPwr_mwait (g : Pwr → Pwr) : (s.onPwr g).mwait = s.mwait := rfl
@[simp] theorem State.onPwr_ridHold (g : Pwr → Pwr) : (s.onPwr g).ridHold = s.ridHold := rfl
@[simp] theorem State.onPwr_hrbDone (g : Pwr → Pwr) : (s.onPwr g).hrbDone = s.hrbDone := rfl
@[simp] theorem State.onPwr_kvs (g : Pwr → Pwr) : (s.onPwr g).kvs = s.kvs := rfl
@[simp] theorem State.onPwr_kvUndo (g : Pwr → Pwr) : (s.onPwr g).kvUndo = s.kvUndo := rfl
@[simp] theorem State.onPwr_mout (g : Pwr → Pwr) : (s.onPwr g).mout = s.mout := rfl
@[simp] theorem State.onPwr_inbox (g : Pwr → Pwr) : (s.onPwr g).inbox = s.inbox := rfl
@[simp] theorem State.onPwr_jobs (g : Pwr → Pwr) : (s.onPwr g).jobs = s.jobs := rfl
@[simp] theorem State.onPwr_shgs (g : Pwr → Pwr) : (s.onPwr g).shgs = s.shgs := rfl
@[simp] theorem State.onPwr_stns (g : Pwr → Pwr) : (s.onPwr g).stns = s.stns := rfl
@[simp] theorem State.onPwr_air (g : Pwr → Pwr) : (s.onPwr g).air = s.air := rfl
@[simp] theorem State.onPwr_tide (g : Pwr → Pwr) : (s.onPwr g).tide = s.tide := rfl
@[simp] theorem State.onPwr_notes (g : Pwr → Pwr) : (s.onPwr g).notes = s.notes := rfl
@[simp] theorem State.onPwr_light (g : Pwr → Pwr) : (s.onPwr g).light = s.light := rfl
@[simp] theorem State.onPwr_intake (g : Pwr → Pwr) : (s.onPwr g).intake = s.intake := rfl
@[simp] theorem State.onPwr_smps (g : Pwr → Pwr) : (s.onPwr g).smps = s.smps := rfl
@[simp] theorem State.onPwr_ports (g : Pwr → Pwr) : (s.onPwr g).ports = s.ports := rfl
@[simp] theorem State.onPwr_frys (g : Pwr → Pwr) : (s.onPwr g).frys = s.frys := rfl
@[simp] theorem State.onPwr_fryLast (g : Pwr → Pwr) : (s.onPwr g).fryLast = s.fryLast := rfl
@[simp] theorem State.onPwr_rings (g : Pwr → Pwr) : (s.onPwr g).rings = s.rings := rfl
@[simp] theorem State.onPwr_plans (g : Pwr → Pwr) : (s.onPwr g).plans = s.plans := rfl
@[simp] theorem State.onPwr_calmSince (g : Pwr → Pwr) : (s.onPwr g).calmSince = s.calmSince := rfl
@[simp] theorem State.onPwr_fw (g : Pwr → Pwr) : (s.onPwr g).fw = s.fw := rfl
@[simp] theorem State.onPwr_flt (g : Pwr → Pwr) : (s.onPwr g).flt = s.flt := rfl
@[simp] theorem State.onPwr_fab (g : Pwr → Pwr) : (s.onPwr g).fab = s.fab := rfl
@[simp] theorem State.onPwr_stl (g : Pwr → Pwr) : (s.onPwr g).stl = s.stl := rfl
@[simp] theorem State.onPwr_pwr (g : Pwr → Pwr) : (s.onPwr g).pwr = g s.pwr := rfl
@[simp] theorem State.onPwr_rst (g : Pwr → Pwr) : (s.onPwr g).rst = s.rst := rfl
@[simp] theorem State.onPwr_sec (g : Pwr → Pwr) : (s.onPwr g).sec = s.sec := rfl
@[simp] theorem State.onPwr_twn (g : Pwr → Pwr) : (s.onPwr g).twn = s.twn := rfl
@[simp] theorem State.onPwr_out (g : Pwr → Pwr) : (s.onPwr g).out = s.out := rfl
@[simp] theorem State.onPwr_raised (g : Pwr → Pwr) : (s.onPwr g).raised = s.raised := rfl
@[simp] theorem State.onPwr_free (g : Pwr → Pwr) : (s.onPwr g).free = s.free := rfl
@[simp] theorem State.onPwr_pending (g : Pwr → Pwr) : (s.onPwr g).pending = s.pending := rfl
@[simp] theorem State.onPwr_rd (g : Pwr → Pwr) (h : Fld) (j : Nat) : (s.onPwr g).rd h j = s.rd h j := rfl

/-! `onRst` -/
@[simp] theorem State.onRst_regs (g : Rst → Rst) : (s.onRst g).regs = s.regs := rfl
@[simp] theorem State.onRst_tiles (g : Rst → Rst) : (s.onRst g).tiles = s.tiles := rfl
@[simp] theorem State.onRst_regions (g : Rst → Rst) : (s.onRst g).regions = s.regions := rfl
@[simp] theorem State.onRst_links (g : Rst → Rst) : (s.onRst g).links = s.links := rfl
@[simp] theorem State.onRst_barrs (g : Rst → Rst) : (s.onRst g).barrs = s.barrs := rfl
@[simp] theorem State.onRst_dies (g : Rst → Rst) : (s.onRst g).dies = s.dies := rfl
@[simp] theorem State.onRst_pool (g : Rst → Rst) : (s.onRst g).pool = s.pool := rfl
@[simp] theorem State.onRst_fills (g : Rst → Rst) : (s.onRst g).fills = s.fills := rfl
@[simp] theorem State.onRst_couplers (g : Rst → Rst) : (s.onRst g).couplers = s.couplers := rfl
@[simp] theorem State.onRst_bandTap (g : Rst → Rst) : (s.onRst g).bandTap = s.bandTap := rfl
@[simp] theorem State.onRst_hbm (g : Rst → Rst) : (s.onRst g).hbm = s.hbm := rfl
@[simp] theorem State.onRst_hbmPoison (g : Rst → Rst) : (s.onRst g).hbmPoison = s.hbmPoison := rfl
@[simp] theorem State.onRst_undec (g : Rst → Rst) : (s.onRst g).undec = s.undec := rfl
@[simp] theorem State.onRst_reqNo (g : Rst → Rst) : (s.onRst g).reqNo = s.reqNo := rfl
@[simp] theorem State.onRst_mreqs (g : Rst → Rst) : (s.onRst g).mreqs = s.mreqs := rfl
@[simp] theorem State.onRst_mwait (g : Rst → Rst) : (s.onRst g).mwait = s.mwait := rfl
@[simp] theorem State.onRst_ridHold (g : Rst → Rst) : (s.onRst g).ridHold = s.ridHold := rfl
@[simp] theorem State.onRst_hrbDone (g : Rst → Rst) : (s.onRst g).hrbDone = s.hrbDone := rfl
@[simp] theorem State.onRst_kvs (g : Rst → Rst) : (s.onRst g).kvs = s.kvs := rfl
@[simp] theorem State.onRst_kvUndo (g : Rst → Rst) : (s.onRst g).kvUndo = s.kvUndo := rfl
@[simp] theorem State.onRst_mout (g : Rst → Rst) : (s.onRst g).mout = s.mout := rfl
@[simp] theorem State.onRst_inbox (g : Rst → Rst) : (s.onRst g).inbox = s.inbox := rfl
@[simp] theorem State.onRst_jobs (g : Rst → Rst) : (s.onRst g).jobs = s.jobs := rfl
@[simp] theorem State.onRst_shgs (g : Rst → Rst) : (s.onRst g).shgs = s.shgs := rfl
@[simp] theorem State.onRst_stns (g : Rst → Rst) : (s.onRst g).stns = s.stns := rfl
@[simp] theorem State.onRst_air (g : Rst → Rst) : (s.onRst g).air = s.air := rfl
@[simp] theorem State.onRst_tide (g : Rst → Rst) : (s.onRst g).tide = s.tide := rfl
@[simp] theorem State.onRst_notes (g : Rst → Rst) : (s.onRst g).notes = s.notes := rfl
@[simp] theorem State.onRst_light (g : Rst → Rst) : (s.onRst g).light = s.light := rfl
@[simp] theorem State.onRst_intake (g : Rst → Rst) : (s.onRst g).intake = s.intake := rfl
@[simp] theorem State.onRst_smps (g : Rst → Rst) : (s.onRst g).smps = s.smps := rfl
@[simp] theorem State.onRst_ports (g : Rst → Rst) : (s.onRst g).ports = s.ports := rfl
@[simp] theorem State.onRst_frys (g : Rst → Rst) : (s.onRst g).frys = s.frys := rfl
@[simp] theorem State.onRst_fryLast (g : Rst → Rst) : (s.onRst g).fryLast = s.fryLast := rfl
@[simp] theorem State.onRst_rings (g : Rst → Rst) : (s.onRst g).rings = s.rings := rfl
@[simp] theorem State.onRst_plans (g : Rst → Rst) : (s.onRst g).plans = s.plans := rfl
@[simp] theorem State.onRst_calmSince (g : Rst → Rst) : (s.onRst g).calmSince = s.calmSince := rfl
@[simp] theorem State.onRst_fw (g : Rst → Rst) : (s.onRst g).fw = s.fw := rfl
@[simp] theorem State.onRst_flt (g : Rst → Rst) : (s.onRst g).flt = s.flt := rfl
@[simp] theorem State.onRst_fab (g : Rst → Rst) : (s.onRst g).fab = s.fab := rfl
@[simp] theorem State.onRst_stl (g : Rst → Rst) : (s.onRst g).stl = s.stl := rfl
@[simp] theorem State.onRst_pwr (g : Rst → Rst) : (s.onRst g).pwr = s.pwr := rfl
@[simp] theorem State.onRst_rst (g : Rst → Rst) : (s.onRst g).rst = g s.rst := rfl
@[simp] theorem State.onRst_sec (g : Rst → Rst) : (s.onRst g).sec = s.sec := rfl
@[simp] theorem State.onRst_twn (g : Rst → Rst) : (s.onRst g).twn = s.twn := rfl
@[simp] theorem State.onRst_out (g : Rst → Rst) : (s.onRst g).out = s.out := rfl
@[simp] theorem State.onRst_raised (g : Rst → Rst) : (s.onRst g).raised = s.raised := rfl
@[simp] theorem State.onRst_free (g : Rst → Rst) : (s.onRst g).free = s.free := rfl
@[simp] theorem State.onRst_pending (g : Rst → Rst) : (s.onRst g).pending = s.pending := rfl
@[simp] theorem State.onRst_rd (g : Rst → Rst) (h : Fld) (j : Nat) : (s.onRst g).rd h j = s.rd h j := rfl

/-! `onFlt` -/
@[simp] theorem State.onFlt_regs (g : Flt → Flt) : (s.onFlt g).regs = s.regs := rfl
@[simp] theorem State.onFlt_tiles (g : Flt → Flt) : (s.onFlt g).tiles = s.tiles := rfl
@[simp] theorem State.onFlt_regions (g : Flt → Flt) : (s.onFlt g).regions = s.regions := rfl
@[simp] theorem State.onFlt_links (g : Flt → Flt) : (s.onFlt g).links = s.links := rfl
@[simp] theorem State.onFlt_barrs (g : Flt → Flt) : (s.onFlt g).barrs = s.barrs := rfl
@[simp] theorem State.onFlt_dies (g : Flt → Flt) : (s.onFlt g).dies = s.dies := rfl
@[simp] theorem State.onFlt_pool (g : Flt → Flt) : (s.onFlt g).pool = s.pool := rfl
@[simp] theorem State.onFlt_fills (g : Flt → Flt) : (s.onFlt g).fills = s.fills := rfl
@[simp] theorem State.onFlt_couplers (g : Flt → Flt) : (s.onFlt g).couplers = s.couplers := rfl
@[simp] theorem State.onFlt_bandTap (g : Flt → Flt) : (s.onFlt g).bandTap = s.bandTap := rfl
@[simp] theorem State.onFlt_hbm (g : Flt → Flt) : (s.onFlt g).hbm = s.hbm := rfl
@[simp] theorem State.onFlt_hbmPoison (g : Flt → Flt) : (s.onFlt g).hbmPoison = s.hbmPoison := rfl
@[simp] theorem State.onFlt_undec (g : Flt → Flt) : (s.onFlt g).undec = s.undec := rfl
@[simp] theorem State.onFlt_reqNo (g : Flt → Flt) : (s.onFlt g).reqNo = s.reqNo := rfl
@[simp] theorem State.onFlt_mreqs (g : Flt → Flt) : (s.onFlt g).mreqs = s.mreqs := rfl
@[simp] theorem State.onFlt_mwait (g : Flt → Flt) : (s.onFlt g).mwait = s.mwait := rfl
@[simp] theorem State.onFlt_ridHold (g : Flt → Flt) : (s.onFlt g).ridHold = s.ridHold := rfl
@[simp] theorem State.onFlt_hrbDone (g : Flt → Flt) : (s.onFlt g).hrbDone = s.hrbDone := rfl
@[simp] theorem State.onFlt_kvs (g : Flt → Flt) : (s.onFlt g).kvs = s.kvs := rfl
@[simp] theorem State.onFlt_kvUndo (g : Flt → Flt) : (s.onFlt g).kvUndo = s.kvUndo := rfl
@[simp] theorem State.onFlt_mout (g : Flt → Flt) : (s.onFlt g).mout = s.mout := rfl
@[simp] theorem State.onFlt_inbox (g : Flt → Flt) : (s.onFlt g).inbox = s.inbox := rfl
@[simp] theorem State.onFlt_jobs (g : Flt → Flt) : (s.onFlt g).jobs = s.jobs := rfl
@[simp] theorem State.onFlt_shgs (g : Flt → Flt) : (s.onFlt g).shgs = s.shgs := rfl
@[simp] theorem State.onFlt_stns (g : Flt → Flt) : (s.onFlt g).stns = s.stns := rfl
@[simp] theorem State.onFlt_air (g : Flt → Flt) : (s.onFlt g).air = s.air := rfl
@[simp] theorem State.onFlt_tide (g : Flt → Flt) : (s.onFlt g).tide = s.tide := rfl
@[simp] theorem State.onFlt_notes (g : Flt → Flt) : (s.onFlt g).notes = s.notes := rfl
@[simp] theorem State.onFlt_light (g : Flt → Flt) : (s.onFlt g).light = s.light := rfl
@[simp] theorem State.onFlt_intake (g : Flt → Flt) : (s.onFlt g).intake = s.intake := rfl
@[simp] theorem State.onFlt_smps (g : Flt → Flt) : (s.onFlt g).smps = s.smps := rfl
@[simp] theorem State.onFlt_ports (g : Flt → Flt) : (s.onFlt g).ports = s.ports := rfl
@[simp] theorem State.onFlt_frys (g : Flt → Flt) : (s.onFlt g).frys = s.frys := rfl
@[simp] theorem State.onFlt_fryLast (g : Flt → Flt) : (s.onFlt g).fryLast = s.fryLast := rfl
@[simp] theorem State.onFlt_rings (g : Flt → Flt) : (s.onFlt g).rings = s.rings := rfl
@[simp] theorem State.onFlt_plans (g : Flt → Flt) : (s.onFlt g).plans = s.plans := rfl
@[simp] theorem State.onFlt_calmSince (g : Flt → Flt) : (s.onFlt g).calmSince = s.calmSince := rfl
@[simp] theorem State.onFlt_fw (g : Flt → Flt) : (s.onFlt g).fw = s.fw := rfl
@[simp] theorem State.onFlt_flt (g : Flt → Flt) : (s.onFlt g).flt = g s.flt := rfl
@[simp] theorem State.onFlt_fab (g : Flt → Flt) : (s.onFlt g).fab = s.fab := rfl
@[simp] theorem State.onFlt_stl (g : Flt → Flt) : (s.onFlt g).stl = s.stl := rfl
@[simp] theorem State.onFlt_pwr (g : Flt → Flt) : (s.onFlt g).pwr = s.pwr := rfl
@[simp] theorem State.onFlt_rst (g : Flt → Flt) : (s.onFlt g).rst = s.rst := rfl
@[simp] theorem State.onFlt_sec (g : Flt → Flt) : (s.onFlt g).sec = s.sec := rfl
@[simp] theorem State.onFlt_twn (g : Flt → Flt) : (s.onFlt g).twn = s.twn := rfl
@[simp] theorem State.onFlt_out (g : Flt → Flt) : (s.onFlt g).out = s.out := rfl
@[simp] theorem State.onFlt_raised (g : Flt → Flt) : (s.onFlt g).raised = s.raised := rfl
@[simp] theorem State.onFlt_free (g : Flt → Flt) : (s.onFlt g).free = s.free := rfl
@[simp] theorem State.onFlt_pending (g : Flt → Flt) : (s.onFlt g).pending = s.pending := rfl
@[simp] theorem State.onFlt_rd (g : Flt → Flt) (h : Fld) (j : Nat) : (s.onFlt g).rd h j = s.rd h j := rfl

/-! `onFab` -/
@[simp] theorem State.onFab_regs (g : Fab → Fab) : (s.onFab g).regs = s.regs := rfl
@[simp] theorem State.onFab_tiles (g : Fab → Fab) : (s.onFab g).tiles = s.tiles := rfl
@[simp] theorem State.onFab_regions (g : Fab → Fab) : (s.onFab g).regions = s.regions := rfl
@[simp] theorem State.onFab_links (g : Fab → Fab) : (s.onFab g).links = s.links := rfl
@[simp] theorem State.onFab_barrs (g : Fab → Fab) : (s.onFab g).barrs = s.barrs := rfl
@[simp] theorem State.onFab_dies (g : Fab → Fab) : (s.onFab g).dies = s.dies := rfl
@[simp] theorem State.onFab_pool (g : Fab → Fab) : (s.onFab g).pool = s.pool := rfl
@[simp] theorem State.onFab_fills (g : Fab → Fab) : (s.onFab g).fills = s.fills := rfl
@[simp] theorem State.onFab_couplers (g : Fab → Fab) : (s.onFab g).couplers = s.couplers := rfl
@[simp] theorem State.onFab_bandTap (g : Fab → Fab) : (s.onFab g).bandTap = s.bandTap := rfl
@[simp] theorem State.onFab_hbm (g : Fab → Fab) : (s.onFab g).hbm = s.hbm := rfl
@[simp] theorem State.onFab_hbmPoison (g : Fab → Fab) : (s.onFab g).hbmPoison = s.hbmPoison := rfl
@[simp] theorem State.onFab_undec (g : Fab → Fab) : (s.onFab g).undec = s.undec := rfl
@[simp] theorem State.onFab_reqNo (g : Fab → Fab) : (s.onFab g).reqNo = s.reqNo := rfl
@[simp] theorem State.onFab_mreqs (g : Fab → Fab) : (s.onFab g).mreqs = s.mreqs := rfl
@[simp] theorem State.onFab_mwait (g : Fab → Fab) : (s.onFab g).mwait = s.mwait := rfl
@[simp] theorem State.onFab_ridHold (g : Fab → Fab) : (s.onFab g).ridHold = s.ridHold := rfl
@[simp] theorem State.onFab_hrbDone (g : Fab → Fab) : (s.onFab g).hrbDone = s.hrbDone := rfl
@[simp] theorem State.onFab_kvs (g : Fab → Fab) : (s.onFab g).kvs = s.kvs := rfl
@[simp] theorem State.onFab_kvUndo (g : Fab → Fab) : (s.onFab g).kvUndo = s.kvUndo := rfl
@[simp] theorem State.onFab_mout (g : Fab → Fab) : (s.onFab g).mout = s.mout := rfl
@[simp] theorem State.onFab_inbox (g : Fab → Fab) : (s.onFab g).inbox = s.inbox := rfl
@[simp] theorem State.onFab_jobs (g : Fab → Fab) : (s.onFab g).jobs = s.jobs := rfl
@[simp] theorem State.onFab_shgs (g : Fab → Fab) : (s.onFab g).shgs = s.shgs := rfl
@[simp] theorem State.onFab_stns (g : Fab → Fab) : (s.onFab g).stns = s.stns := rfl
@[simp] theorem State.onFab_air (g : Fab → Fab) : (s.onFab g).air = s.air := rfl
@[simp] theorem State.onFab_tide (g : Fab → Fab) : (s.onFab g).tide = s.tide := rfl
@[simp] theorem State.onFab_notes (g : Fab → Fab) : (s.onFab g).notes = s.notes := rfl
@[simp] theorem State.onFab_light (g : Fab → Fab) : (s.onFab g).light = s.light := rfl
@[simp] theorem State.onFab_intake (g : Fab → Fab) : (s.onFab g).intake = s.intake := rfl
@[simp] theorem State.onFab_smps (g : Fab → Fab) : (s.onFab g).smps = s.smps := rfl
@[simp] theorem State.onFab_ports (g : Fab → Fab) : (s.onFab g).ports = s.ports := rfl
@[simp] theorem State.onFab_frys (g : Fab → Fab) : (s.onFab g).frys = s.frys := rfl
@[simp] theorem State.onFab_fryLast (g : Fab → Fab) : (s.onFab g).fryLast = s.fryLast := rfl
@[simp] theorem State.onFab_rings (g : Fab → Fab) : (s.onFab g).rings = s.rings := rfl
@[simp] theorem State.onFab_plans (g : Fab → Fab) : (s.onFab g).plans = s.plans := rfl
@[simp] theorem State.onFab_calmSince (g : Fab → Fab) : (s.onFab g).calmSince = s.calmSince := rfl
@[simp] theorem State.onFab_fw (g : Fab → Fab) : (s.onFab g).fw = s.fw := rfl
@[simp] theorem State.onFab_flt (g : Fab → Fab) : (s.onFab g).flt = s.flt := rfl
@[simp] theorem State.onFab_fab (g : Fab → Fab) : (s.onFab g).fab = g s.fab := rfl
@[simp] theorem State.onFab_stl (g : Fab → Fab) : (s.onFab g).stl = s.stl := rfl
@[simp] theorem State.onFab_pwr (g : Fab → Fab) : (s.onFab g).pwr = s.pwr := rfl
@[simp] theorem State.onFab_rst (g : Fab → Fab) : (s.onFab g).rst = s.rst := rfl
@[simp] theorem State.onFab_sec (g : Fab → Fab) : (s.onFab g).sec = s.sec := rfl
@[simp] theorem State.onFab_twn (g : Fab → Fab) : (s.onFab g).twn = s.twn := rfl
@[simp] theorem State.onFab_out (g : Fab → Fab) : (s.onFab g).out = s.out := rfl
@[simp] theorem State.onFab_raised (g : Fab → Fab) : (s.onFab g).raised = s.raised := rfl
@[simp] theorem State.onFab_free (g : Fab → Fab) : (s.onFab g).free = s.free := rfl
@[simp] theorem State.onFab_pending (g : Fab → Fab) : (s.onFab g).pending = s.pending := rfl
@[simp] theorem State.onFab_rd (g : Fab → Fab) (h : Fld) (j : Nat) : (s.onFab g).rd h j = s.rd h j := rfl

/-! `onTwn` -/
@[simp] theorem State.onTwn_regs (g : Twn → Twn) : (s.onTwn g).regs = s.regs := rfl
@[simp] theorem State.onTwn_tiles (g : Twn → Twn) : (s.onTwn g).tiles = s.tiles := rfl
@[simp] theorem State.onTwn_regions (g : Twn → Twn) : (s.onTwn g).regions = s.regions := rfl
@[simp] theorem State.onTwn_links (g : Twn → Twn) : (s.onTwn g).links = s.links := rfl
@[simp] theorem State.onTwn_barrs (g : Twn → Twn) : (s.onTwn g).barrs = s.barrs := rfl
@[simp] theorem State.onTwn_dies (g : Twn → Twn) : (s.onTwn g).dies = s.dies := rfl
@[simp] theorem State.onTwn_pool (g : Twn → Twn) : (s.onTwn g).pool = s.pool := rfl
@[simp] theorem State.onTwn_fills (g : Twn → Twn) : (s.onTwn g).fills = s.fills := rfl
@[simp] theorem State.onTwn_couplers (g : Twn → Twn) : (s.onTwn g).couplers = s.couplers := rfl
@[simp] theorem State.onTwn_bandTap (g : Twn → Twn) : (s.onTwn g).bandTap = s.bandTap := rfl
@[simp] theorem State.onTwn_hbm (g : Twn → Twn) : (s.onTwn g).hbm = s.hbm := rfl
@[simp] theorem State.onTwn_hbmPoison (g : Twn → Twn) : (s.onTwn g).hbmPoison = s.hbmPoison := rfl
@[simp] theorem State.onTwn_undec (g : Twn → Twn) : (s.onTwn g).undec = s.undec := rfl
@[simp] theorem State.onTwn_reqNo (g : Twn → Twn) : (s.onTwn g).reqNo = s.reqNo := rfl
@[simp] theorem State.onTwn_mreqs (g : Twn → Twn) : (s.onTwn g).mreqs = s.mreqs := rfl
@[simp] theorem State.onTwn_mwait (g : Twn → Twn) : (s.onTwn g).mwait = s.mwait := rfl
@[simp] theorem State.onTwn_ridHold (g : Twn → Twn) : (s.onTwn g).ridHold = s.ridHold := rfl
@[simp] theorem State.onTwn_hrbDone (g : Twn → Twn) : (s.onTwn g).hrbDone = s.hrbDone := rfl
@[simp] theorem State.onTwn_kvs (g : Twn → Twn) : (s.onTwn g).kvs = s.kvs := rfl
@[simp] theorem State.onTwn_kvUndo (g : Twn → Twn) : (s.onTwn g).kvUndo = s.kvUndo := rfl
@[simp] theorem State.onTwn_mout (g : Twn → Twn) : (s.onTwn g).mout = s.mout := rfl
@[simp] theorem State.onTwn_inbox (g : Twn → Twn) : (s.onTwn g).inbox = s.inbox := rfl
@[simp] theorem State.onTwn_jobs (g : Twn → Twn) : (s.onTwn g).jobs = s.jobs := rfl
@[simp] theorem State.onTwn_shgs (g : Twn → Twn) : (s.onTwn g).shgs = s.shgs := rfl
@[simp] theorem State.onTwn_stns (g : Twn → Twn) : (s.onTwn g).stns = s.stns := rfl
@[simp] theorem State.onTwn_air (g : Twn → Twn) : (s.onTwn g).air = s.air := rfl
@[simp] theorem State.onTwn_tide (g : Twn → Twn) : (s.onTwn g).tide = s.tide := rfl
@[simp] theorem State.onTwn_notes (g : Twn → Twn) : (s.onTwn g).notes = s.notes := rfl
@[simp] theorem State.onTwn_light (g : Twn → Twn) : (s.onTwn g).light = s.light := rfl
@[simp] theorem State.onTwn_intake (g : Twn → Twn) : (s.onTwn g).intake = s.intake := rfl
@[simp] theorem State.onTwn_smps (g : Twn → Twn) : (s.onTwn g).smps = s.smps := rfl
@[simp] theorem State.onTwn_ports (g : Twn → Twn) : (s.onTwn g).ports = s.ports := rfl
@[simp] theorem State.onTwn_frys (g : Twn → Twn) : (s.onTwn g).frys = s.frys := rfl
@[simp] theorem State.onTwn_fryLast (g : Twn → Twn) : (s.onTwn g).fryLast = s.fryLast := rfl
@[simp] theorem State.onTwn_rings (g : Twn → Twn) : (s.onTwn g).rings = s.rings := rfl
@[simp] theorem State.onTwn_plans (g : Twn → Twn) : (s.onTwn g).plans = s.plans := rfl
@[simp] theorem State.onTwn_calmSince (g : Twn → Twn) : (s.onTwn g).calmSince = s.calmSince := rfl
@[simp] theorem State.onTwn_fw (g : Twn → Twn) : (s.onTwn g).fw = s.fw := rfl
@[simp] theorem State.onTwn_flt (g : Twn → Twn) : (s.onTwn g).flt = s.flt := rfl
@[simp] theorem State.onTwn_fab (g : Twn → Twn) : (s.onTwn g).fab = s.fab := rfl
@[simp] theorem State.onTwn_stl (g : Twn → Twn) : (s.onTwn g).stl = s.stl := rfl
@[simp] theorem State.onTwn_pwr (g : Twn → Twn) : (s.onTwn g).pwr = s.pwr := rfl
@[simp] theorem State.onTwn_rst (g : Twn → Twn) : (s.onTwn g).rst = s.rst := rfl
@[simp] theorem State.onTwn_sec (g : Twn → Twn) : (s.onTwn g).sec = s.sec := rfl
@[simp] theorem State.onTwn_twn (g : Twn → Twn) : (s.onTwn g).twn = g s.twn := rfl
@[simp] theorem State.onTwn_out (g : Twn → Twn) : (s.onTwn g).out = s.out := rfl
@[simp] theorem State.onTwn_raised (g : Twn → Twn) : (s.onTwn g).raised = s.raised := rfl
@[simp] theorem State.onTwn_free (g : Twn → Twn) : (s.onTwn g).free = s.free := rfl
@[simp] theorem State.onTwn_pending (g : Twn → Twn) : (s.onTwn g).pending = s.pending := rfl
@[simp] theorem State.onTwn_rd (g : Twn → Twn) (h : Fld) (j : Nat) : (s.onTwn g).rd h j = s.rd h j := rfl

/-! One entry of a table, read after another update. -/
@[simp] theorem State.wr_read_die (f : Fld) (i v : Nat) (j : Nat) : (s.wr f i v).die j = s.die j := rfl
@[simp] theorem State.wrWord_read_die (no i : Nat) (v : W64) (j : Nat) : (s.wrWord no i v).die j = s.die j := rfl
@[simp] theorem State.raise_read_die (e : FaultEvt) (j : Nat) : (s.raise e).die j = s.die j := rfl
@[simp] theorem State.emit_read_die (o : Out) (j : Nat) : (s.emit o).die j = s.die j := rfl
@[simp] theorem State.setTile_read_die (k : Nat) (x : Tile) (j : Nat) : (s.setTile k x).die j = s.die j := rfl
@[simp] theorem State.setRegion_read_die (k : Nat) (x : Region) (j : Nat) : (s.setRegion k x).die j = s.die j := rfl
@[simp] theorem State.setStn_read_die (k : Nat) (x : Stn) (j : Nat) : (s.setStn k x).die j = s.die j := rfl
@[simp] theorem State.setShg_read_die (k : Nat) (x : Shg) (j : Nat) : (s.setShg k x).die j = s.die j := rfl
@[simp] theorem State.setCoupler_read_die (k : Nat) (x : Coupler) (j : Nat) : (s.setCoupler k x).die j = s.die j := rfl
@[simp] theorem State.setLine_read_die (k l : Nat) (x : TLine) (j : Nat) : (s.setLine k l x).die j = s.die j := rfl
@[simp] theorem State.setPort_read_die (k : Nat) (x : Port) (j : Nat) : (s.setPort k x).die j = s.die j := rfl
@[simp] theorem State.setFry_read_die (k : Nat) (x : Fry) (j : Nat) : (s.setFry k x).die j = s.die j := rfl
@[simp] theorem State.setRing_read_die (k : Nat) (x : Ring) (j : Nat) : (s.setRing k x).die j = s.die j := rfl
@[simp] theorem State.setSmp_read_die (k : Nat) (x : Smp) (j : Nat) : (s.setSmp k x).die j = s.die j := rfl
@[simp] theorem State.setBarr_read_die (k b : Nat) (x : List BarrEnt) (j : Nat) : (s.setBarr k b x).die j = s.die j := rfl
@[simp] theorem State.onTide_read_die (g : Tide → Tide) (j : Nat) : (s.onTide g).die j = s.die j := rfl
@[simp] theorem State.onLight_read_die (g : Light → Light) (j : Nat) : (s.onLight g).die j = s.die j := rfl
@[simp] theorem State.onFw_read_die (g : Fw → Fw) (j : Nat) : (s.onFw g).die j = s.die j := rfl
@[simp] theorem State.onSec_read_die (g : Sec → Sec) (j : Nat) : (s.onSec g).die j = s.die j := rfl
@[simp] theorem State.onStl_read_die (g : Stl → Stl) (j : Nat) : (s.onStl g).die j = s.die j := rfl
@[simp] theorem State.onPwr_read_die (g : Pwr → Pwr) (j : Nat) : (s.onPwr g).die j = s.die j := rfl
@[simp] theorem State.onRst_read_die (g : Rst → Rst) (j : Nat) : (s.onRst g).die j = s.die j := rfl
@[simp] theorem State.onFlt_read_die (g : Flt → Flt) (j : Nat) : (s.onFlt g).die j = s.die j := rfl
@[simp] theorem State.onFab_read_die (g : Fab → Fab) (j : Nat) : (s.onFab g).die j = s.die j := rfl
@[simp] theorem State.onTwn_read_die (g : Twn → Twn) (j : Nat) : (s.onTwn g).die j = s.die j := rfl
@[simp] theorem State.wr_read_stn (f : Fld) (i v : Nat) (j : Nat) : (s.wr f i v).stn j = s.stn j := rfl
@[simp] theorem State.wrWord_read_stn (no i : Nat) (v : W64) (j : Nat) : (s.wrWord no i v).stn j = s.stn j := rfl
@[simp] theorem State.raise_read_stn (e : FaultEvt) (j : Nat) : (s.raise e).stn j = s.stn j := rfl
@[simp] theorem State.emit_read_stn (o : Out) (j : Nat) : (s.emit o).stn j = s.stn j := rfl
@[simp] theorem State.setTile_read_stn (k : Nat) (x : Tile) (j : Nat) : (s.setTile k x).stn j = s.stn j := rfl
@[simp] theorem State.setRegion_read_stn (k : Nat) (x : Region) (j : Nat) : (s.setRegion k x).stn j = s.stn j := rfl
@[simp] theorem State.setDie_read_stn (k : Nat) (x : Die) (j : Nat) : (s.setDie k x).stn j = s.stn j := rfl
@[simp] theorem State.setShg_read_stn (k : Nat) (x : Shg) (j : Nat) : (s.setShg k x).stn j = s.stn j := rfl
@[simp] theorem State.setCoupler_read_stn (k : Nat) (x : Coupler) (j : Nat) : (s.setCoupler k x).stn j = s.stn j := rfl
@[simp] theorem State.setLine_read_stn (k l : Nat) (x : TLine) (j : Nat) : (s.setLine k l x).stn j = s.stn j := rfl
@[simp] theorem State.setPort_read_stn (k : Nat) (x : Port) (j : Nat) : (s.setPort k x).stn j = s.stn j := rfl
@[simp] theorem State.setFry_read_stn (k : Nat) (x : Fry) (j : Nat) : (s.setFry k x).stn j = s.stn j := rfl
@[simp] theorem State.setRing_read_stn (k : Nat) (x : Ring) (j : Nat) : (s.setRing k x).stn j = s.stn j := rfl
@[simp] theorem State.setSmp_read_stn (k : Nat) (x : Smp) (j : Nat) : (s.setSmp k x).stn j = s.stn j := rfl
@[simp] theorem State.setBarr_read_stn (k b : Nat) (x : List BarrEnt) (j : Nat) : (s.setBarr k b x).stn j = s.stn j := rfl
@[simp] theorem State.onTide_read_stn (g : Tide → Tide) (j : Nat) : (s.onTide g).stn j = s.stn j := rfl
@[simp] theorem State.onLight_read_stn (g : Light → Light) (j : Nat) : (s.onLight g).stn j = s.stn j := rfl
@[simp] theorem State.onFw_read_stn (g : Fw → Fw) (j : Nat) : (s.onFw g).stn j = s.stn j := rfl
@[simp] theorem State.onSec_read_stn (g : Sec → Sec) (j : Nat) : (s.onSec g).stn j = s.stn j := rfl
@[simp] theorem State.onStl_read_stn (g : Stl → Stl) (j : Nat) : (s.onStl g).stn j = s.stn j := rfl
@[simp] theorem State.onPwr_read_stn (g : Pwr → Pwr) (j : Nat) : (s.onPwr g).stn j = s.stn j := rfl
@[simp] theorem State.onRst_read_stn (g : Rst → Rst) (j : Nat) : (s.onRst g).stn j = s.stn j := rfl
@[simp] theorem State.onFlt_read_stn (g : Flt → Flt) (j : Nat) : (s.onFlt g).stn j = s.stn j := rfl
@[simp] theorem State.onFab_read_stn (g : Fab → Fab) (j : Nat) : (s.onFab g).stn j = s.stn j := rfl
@[simp] theorem State.onTwn_read_stn (g : Twn → Twn) (j : Nat) : (s.onTwn g).stn j = s.stn j := rfl
@[simp] theorem State.wr_read_shg (f : Fld) (i v : Nat) (j : Nat) : (s.wr f i v).shg j = s.shg j := rfl
@[simp] theorem State.wrWord_read_shg (no i : Nat) (v : W64) (j : Nat) : (s.wrWord no i v).shg j = s.shg j := rfl
@[simp] theorem State.raise_read_shg (e : FaultEvt) (j : Nat) : (s.raise e).shg j = s.shg j := rfl
@[simp] theorem State.emit_read_shg (o : Out) (j : Nat) : (s.emit o).shg j = s.shg j := rfl
@[simp] theorem State.setTile_read_shg (k : Nat) (x : Tile) (j : Nat) : (s.setTile k x).shg j = s.shg j := rfl
@[simp] theorem State.setRegion_read_shg (k : Nat) (x : Region) (j : Nat) : (s.setRegion k x).shg j = s.shg j := rfl
@[simp] theorem State.setDie_read_shg (k : Nat) (x : Die) (j : Nat) : (s.setDie k x).shg j = s.shg j := rfl
@[simp] theorem State.setStn_read_shg (k : Nat) (x : Stn) (j : Nat) : (s.setStn k x).shg j = s.shg j := rfl
@[simp] theorem State.setCoupler_read_shg (k : Nat) (x : Coupler) (j : Nat) : (s.setCoupler k x).shg j = s.shg j := rfl
@[simp] theorem State.setLine_read_shg (k l : Nat) (x : TLine) (j : Nat) : (s.setLine k l x).shg j = s.shg j := rfl
@[simp] theorem State.setPort_read_shg (k : Nat) (x : Port) (j : Nat) : (s.setPort k x).shg j = s.shg j := rfl
@[simp] theorem State.setFry_read_shg (k : Nat) (x : Fry) (j : Nat) : (s.setFry k x).shg j = s.shg j := rfl
@[simp] theorem State.setRing_read_shg (k : Nat) (x : Ring) (j : Nat) : (s.setRing k x).shg j = s.shg j := rfl
@[simp] theorem State.setSmp_read_shg (k : Nat) (x : Smp) (j : Nat) : (s.setSmp k x).shg j = s.shg j := rfl
@[simp] theorem State.setBarr_read_shg (k b : Nat) (x : List BarrEnt) (j : Nat) : (s.setBarr k b x).shg j = s.shg j := rfl
@[simp] theorem State.onTide_read_shg (g : Tide → Tide) (j : Nat) : (s.onTide g).shg j = s.shg j := rfl
@[simp] theorem State.onLight_read_shg (g : Light → Light) (j : Nat) : (s.onLight g).shg j = s.shg j := rfl
@[simp] theorem State.onFw_read_shg (g : Fw → Fw) (j : Nat) : (s.onFw g).shg j = s.shg j := rfl
@[simp] theorem State.onSec_read_shg (g : Sec → Sec) (j : Nat) : (s.onSec g).shg j = s.shg j := rfl
@[simp] theorem State.onStl_read_shg (g : Stl → Stl) (j : Nat) : (s.onStl g).shg j = s.shg j := rfl
@[simp] theorem State.onPwr_read_shg (g : Pwr → Pwr) (j : Nat) : (s.onPwr g).shg j = s.shg j := rfl
@[simp] theorem State.onRst_read_shg (g : Rst → Rst) (j : Nat) : (s.onRst g).shg j = s.shg j := rfl
@[simp] theorem State.onFlt_read_shg (g : Flt → Flt) (j : Nat) : (s.onFlt g).shg j = s.shg j := rfl
@[simp] theorem State.onFab_read_shg (g : Fab → Fab) (j : Nat) : (s.onFab g).shg j = s.shg j := rfl
@[simp] theorem State.onTwn_read_shg (g : Twn → Twn) (j : Nat) : (s.onTwn g).shg j = s.shg j := rfl
@[simp] theorem State.wr_read_coupler (f : Fld) (i v : Nat) (j : Nat) : (s.wr f i v).coupler j = s.coupler j := rfl
@[simp] theorem State.wrWord_read_coupler (no i : Nat) (v : W64) (j : Nat) : (s.wrWord no i v).coupler j = s.coupler j := rfl
@[simp] theorem State.raise_read_coupler (e : FaultEvt) (j : Nat) : (s.raise e).coupler j = s.coupler j := rfl
@[simp] theorem State.emit_read_coupler (o : Out) (j : Nat) : (s.emit o).coupler j = s.coupler j := rfl
@[simp] theorem State.setTile_read_coupler (k : Nat) (x : Tile) (j : Nat) : (s.setTile k x).coupler j = s.coupler j := rfl
@[simp] theorem State.setRegion_read_coupler (k : Nat) (x : Region) (j : Nat) : (s.setRegion k x).coupler j = s.coupler j := rfl
@[simp] theorem State.setDie_read_coupler (k : Nat) (x : Die) (j : Nat) : (s.setDie k x).coupler j = s.coupler j := rfl
@[simp] theorem State.setStn_read_coupler (k : Nat) (x : Stn) (j : Nat) : (s.setStn k x).coupler j = s.coupler j := rfl
@[simp] theorem State.setShg_read_coupler (k : Nat) (x : Shg) (j : Nat) : (s.setShg k x).coupler j = s.coupler j := rfl
@[simp] theorem State.setLine_read_coupler (k l : Nat) (x : TLine) (j : Nat) : (s.setLine k l x).coupler j = s.coupler j := rfl
@[simp] theorem State.setPort_read_coupler (k : Nat) (x : Port) (j : Nat) : (s.setPort k x).coupler j = s.coupler j := rfl
@[simp] theorem State.setFry_read_coupler (k : Nat) (x : Fry) (j : Nat) : (s.setFry k x).coupler j = s.coupler j := rfl
@[simp] theorem State.setRing_read_coupler (k : Nat) (x : Ring) (j : Nat) : (s.setRing k x).coupler j = s.coupler j := rfl
@[simp] theorem State.setSmp_read_coupler (k : Nat) (x : Smp) (j : Nat) : (s.setSmp k x).coupler j = s.coupler j := rfl
@[simp] theorem State.setBarr_read_coupler (k b : Nat) (x : List BarrEnt) (j : Nat) : (s.setBarr k b x).coupler j = s.coupler j := rfl
@[simp] theorem State.onTide_read_coupler (g : Tide → Tide) (j : Nat) : (s.onTide g).coupler j = s.coupler j := rfl
@[simp] theorem State.onLight_read_coupler (g : Light → Light) (j : Nat) : (s.onLight g).coupler j = s.coupler j := rfl
@[simp] theorem State.onFw_read_coupler (g : Fw → Fw) (j : Nat) : (s.onFw g).coupler j = s.coupler j := rfl
@[simp] theorem State.onSec_read_coupler (g : Sec → Sec) (j : Nat) : (s.onSec g).coupler j = s.coupler j := rfl
@[simp] theorem State.onStl_read_coupler (g : Stl → Stl) (j : Nat) : (s.onStl g).coupler j = s.coupler j := rfl
@[simp] theorem State.onPwr_read_coupler (g : Pwr → Pwr) (j : Nat) : (s.onPwr g).coupler j = s.coupler j := rfl
@[simp] theorem State.onRst_read_coupler (g : Rst → Rst) (j : Nat) : (s.onRst g).coupler j = s.coupler j := rfl
@[simp] theorem State.onFlt_read_coupler (g : Flt → Flt) (j : Nat) : (s.onFlt g).coupler j = s.coupler j := rfl
@[simp] theorem State.onFab_read_coupler (g : Fab → Fab) (j : Nat) : (s.onFab g).coupler j = s.coupler j := rfl
@[simp] theorem State.onTwn_read_coupler (g : Twn → Twn) (j : Nat) : (s.onTwn g).coupler j = s.coupler j := rfl
@[simp] theorem State.wr_read_region (f : Fld) (i v : Nat) (j : Nat) : (s.wr f i v).region j = s.region j := rfl
@[simp] theorem State.wrWord_read_region (no i : Nat) (v : W64) (j : Nat) : (s.wrWord no i v).region j = s.region j := rfl
@[simp] theorem State.raise_read_region (e : FaultEvt) (j : Nat) : (s.raise e).region j = s.region j := rfl
@[simp] theorem State.emit_read_region (o : Out) (j : Nat) : (s.emit o).region j = s.region j := rfl
@[simp] theorem State.setTile_read_region (k : Nat) (x : Tile) (j : Nat) : (s.setTile k x).region j = s.region j := rfl
@[simp] theorem State.setDie_read_region (k : Nat) (x : Die) (j : Nat) : (s.setDie k x).region j = s.region j := rfl
@[simp] theorem State.setStn_read_region (k : Nat) (x : Stn) (j : Nat) : (s.setStn k x).region j = s.region j := rfl
@[simp] theorem State.setShg_read_region (k : Nat) (x : Shg) (j : Nat) : (s.setShg k x).region j = s.region j := rfl
@[simp] theorem State.setCoupler_read_region (k : Nat) (x : Coupler) (j : Nat) : (s.setCoupler k x).region j = s.region j := rfl
@[simp] theorem State.setLine_read_region (k l : Nat) (x : TLine) (j : Nat) : (s.setLine k l x).region j = s.region j := rfl
@[simp] theorem State.setPort_read_region (k : Nat) (x : Port) (j : Nat) : (s.setPort k x).region j = s.region j := rfl
@[simp] theorem State.setFry_read_region (k : Nat) (x : Fry) (j : Nat) : (s.setFry k x).region j = s.region j := rfl
@[simp] theorem State.setRing_read_region (k : Nat) (x : Ring) (j : Nat) : (s.setRing k x).region j = s.region j := rfl
@[simp] theorem State.setSmp_read_region (k : Nat) (x : Smp) (j : Nat) : (s.setSmp k x).region j = s.region j := rfl
@[simp] theorem State.setBarr_read_region (k b : Nat) (x : List BarrEnt) (j : Nat) : (s.setBarr k b x).region j = s.region j := rfl
@[simp] theorem State.onTide_read_region (g : Tide → Tide) (j : Nat) : (s.onTide g).region j = s.region j := rfl
@[simp] theorem State.onLight_read_region (g : Light → Light) (j : Nat) : (s.onLight g).region j = s.region j := rfl
@[simp] theorem State.onFw_read_region (g : Fw → Fw) (j : Nat) : (s.onFw g).region j = s.region j := rfl
@[simp] theorem State.onSec_read_region (g : Sec → Sec) (j : Nat) : (s.onSec g).region j = s.region j := rfl
@[simp] theorem State.onStl_read_region (g : Stl → Stl) (j : Nat) : (s.onStl g).region j = s.region j := rfl
@[simp] theorem State.onPwr_read_region (g : Pwr → Pwr) (j : Nat) : (s.onPwr g).region j = s.region j := rfl
@[simp] theorem State.onRst_read_region (g : Rst → Rst) (j : Nat) : (s.onRst g).region j = s.region j := rfl
@[simp] theorem State.onFlt_read_region (g : Flt → Flt) (j : Nat) : (s.onFlt g).region j = s.region j := rfl
@[simp] theorem State.onFab_read_region (g : Fab → Fab) (j : Nat) : (s.onFab g).region j = s.region j := rfl
@[simp] theorem State.onTwn_read_region (g : Twn → Twn) (j : Nat) : (s.onTwn g).region j = s.region j := rfl
@[simp] theorem State.wr_read_tile (f : Fld) (i v : Nat) (j : Nat) : (s.wr f i v).tile j = s.tile j := rfl
@[simp] theorem State.wrWord_read_tile (no i : Nat) (v : W64) (j : Nat) : (s.wrWord no i v).tile j = s.tile j := rfl
@[simp] theorem State.raise_read_tile (e : FaultEvt) (j : Nat) : (s.raise e).tile j = s.tile j := rfl
@[simp] theorem State.emit_read_tile (o : Out) (j : Nat) : (s.emit o).tile j = s.tile j := rfl
@[simp] theorem State.setRegion_read_tile (k : Nat) (x : Region) (j : Nat) : (s.setRegion k x).tile j = s.tile j := rfl
@[simp] theorem State.setDie_read_tile (k : Nat) (x : Die) (j : Nat) : (s.setDie k x).tile j = s.tile j := rfl
@[simp] theorem State.setStn_read_tile (k : Nat) (x : Stn) (j : Nat) : (s.setStn k x).tile j = s.tile j := rfl
@[simp] theorem State.setShg_read_tile (k : Nat) (x : Shg) (j : Nat) : (s.setShg k x).tile j = s.tile j := rfl
@[simp] theorem State.setCoupler_read_tile (k : Nat) (x : Coupler) (j : Nat) : (s.setCoupler k x).tile j = s.tile j := rfl
@[simp] theorem State.setLine_read_tile (k l : Nat) (x : TLine) (j : Nat) : (s.setLine k l x).tile j = s.tile j := rfl
@[simp] theorem State.setPort_read_tile (k : Nat) (x : Port) (j : Nat) : (s.setPort k x).tile j = s.tile j := rfl
@[simp] theorem State.setFry_read_tile (k : Nat) (x : Fry) (j : Nat) : (s.setFry k x).tile j = s.tile j := rfl
@[simp] theorem State.setRing_read_tile (k : Nat) (x : Ring) (j : Nat) : (s.setRing k x).tile j = s.tile j := rfl
@[simp] theorem State.setSmp_read_tile (k : Nat) (x : Smp) (j : Nat) : (s.setSmp k x).tile j = s.tile j := rfl
@[simp] theorem State.setBarr_read_tile (k b : Nat) (x : List BarrEnt) (j : Nat) : (s.setBarr k b x).tile j = s.tile j := rfl
@[simp] theorem State.onTide_read_tile (g : Tide → Tide) (j : Nat) : (s.onTide g).tile j = s.tile j := rfl
@[simp] theorem State.onLight_read_tile (g : Light → Light) (j : Nat) : (s.onLight g).tile j = s.tile j := rfl
@[simp] theorem State.onFw_read_tile (g : Fw → Fw) (j : Nat) : (s.onFw g).tile j = s.tile j := rfl
@[simp] theorem State.onSec_read_tile (g : Sec → Sec) (j : Nat) : (s.onSec g).tile j = s.tile j := rfl
@[simp] theorem State.onStl_read_tile (g : Stl → Stl) (j : Nat) : (s.onStl g).tile j = s.tile j := rfl
@[simp] theorem State.onPwr_read_tile (g : Pwr → Pwr) (j : Nat) : (s.onPwr g).tile j = s.tile j := rfl
@[simp] theorem State.onRst_read_tile (g : Rst → Rst) (j : Nat) : (s.onRst g).tile j = s.tile j := rfl
@[simp] theorem State.onFlt_read_tile (g : Flt → Flt) (j : Nat) : (s.onFlt g).tile j = s.tile j := rfl
@[simp] theorem State.onFab_read_tile (g : Fab → Fab) (j : Nat) : (s.onFab g).tile j = s.tile j := rfl
@[simp] theorem State.onTwn_read_tile (g : Twn → Twn) (j : Nat) : (s.onTwn g).tile j = s.tile j := rfl
@[simp] theorem State.wr_read_port (f : Fld) (i v : Nat) (j : Nat) : (s.wr f i v).port j = s.port j := rfl
@[simp] theorem State.wrWord_read_port (no i : Nat) (v : W64) (j : Nat) : (s.wrWord no i v).port j = s.port j := rfl
@[simp] theorem State.raise_read_port (e : FaultEvt) (j : Nat) : (s.raise e).port j = s.port j := rfl
@[simp] theorem State.emit_read_port (o : Out) (j : Nat) : (s.emit o).port j = s.port j := rfl
@[simp] theorem State.setTile_read_port (k : Nat) (x : Tile) (j : Nat) : (s.setTile k x).port j = s.port j := rfl
@[simp] theorem State.setRegion_read_port (k : Nat) (x : Region) (j : Nat) : (s.setRegion k x).port j = s.port j := rfl
@[simp] theorem State.setDie_read_port (k : Nat) (x : Die) (j : Nat) : (s.setDie k x).port j = s.port j := rfl
@[simp] theorem State.setStn_read_port (k : Nat) (x : Stn) (j : Nat) : (s.setStn k x).port j = s.port j := rfl
@[simp] theorem State.setShg_read_port (k : Nat) (x : Shg) (j : Nat) : (s.setShg k x).port j = s.port j := rfl
@[simp] theorem State.setCoupler_read_port (k : Nat) (x : Coupler) (j : Nat) : (s.setCoupler k x).port j = s.port j := rfl
@[simp] theorem State.setLine_read_port (k l : Nat) (x : TLine) (j : Nat) : (s.setLine k l x).port j = s.port j := rfl
@[simp] theorem State.setFry_read_port (k : Nat) (x : Fry) (j : Nat) : (s.setFry k x).port j = s.port j := rfl
@[simp] theorem State.setRing_read_port (k : Nat) (x : Ring) (j : Nat) : (s.setRing k x).port j = s.port j := rfl
@[simp] theorem State.setSmp_read_port (k : Nat) (x : Smp) (j : Nat) : (s.setSmp k x).port j = s.port j := rfl
@[simp] theorem State.setBarr_read_port (k b : Nat) (x : List BarrEnt) (j : Nat) : (s.setBarr k b x).port j = s.port j := rfl
@[simp] theorem State.onTide_read_port (g : Tide → Tide) (j : Nat) : (s.onTide g).port j = s.port j := rfl
@[simp] theorem State.onLight_read_port (g : Light → Light) (j : Nat) : (s.onLight g).port j = s.port j := rfl
@[simp] theorem State.onFw_read_port (g : Fw → Fw) (j : Nat) : (s.onFw g).port j = s.port j := rfl
@[simp] theorem State.onSec_read_port (g : Sec → Sec) (j : Nat) : (s.onSec g).port j = s.port j := rfl
@[simp] theorem State.onStl_read_port (g : Stl → Stl) (j : Nat) : (s.onStl g).port j = s.port j := rfl
@[simp] theorem State.onPwr_read_port (g : Pwr → Pwr) (j : Nat) : (s.onPwr g).port j = s.port j := rfl
@[simp] theorem State.onRst_read_port (g : Rst → Rst) (j : Nat) : (s.onRst g).port j = s.port j := rfl
@[simp] theorem State.onFlt_read_port (g : Flt → Flt) (j : Nat) : (s.onFlt g).port j = s.port j := rfl
@[simp] theorem State.onFab_read_port (g : Fab → Fab) (j : Nat) : (s.onFab g).port j = s.port j := rfl
@[simp] theorem State.onTwn_read_port (g : Twn → Twn) (j : Nat) : (s.onTwn g).port j = s.port j := rfl
@[simp] theorem State.wr_read_fry (f : Fld) (i v : Nat) (j : Nat) : (s.wr f i v).fry j = s.fry j := rfl
@[simp] theorem State.wrWord_read_fry (no i : Nat) (v : W64) (j : Nat) : (s.wrWord no i v).fry j = s.fry j := rfl
@[simp] theorem State.raise_read_fry (e : FaultEvt) (j : Nat) : (s.raise e).fry j = s.fry j := rfl
@[simp] theorem State.emit_read_fry (o : Out) (j : Nat) : (s.emit o).fry j = s.fry j := rfl
@[simp] theorem State.setTile_read_fry (k : Nat) (x : Tile) (j : Nat) : (s.setTile k x).fry j = s.fry j := rfl
@[simp] theorem State.setRegion_read_fry (k : Nat) (x : Region) (j : Nat) : (s.setRegion k x).fry j = s.fry j := rfl
@[simp] theorem State.setDie_read_fry (k : Nat) (x : Die) (j : Nat) : (s.setDie k x).fry j = s.fry j := rfl
@[simp] theorem State.setStn_read_fry (k : Nat) (x : Stn) (j : Nat) : (s.setStn k x).fry j = s.fry j := rfl
@[simp] theorem State.setShg_read_fry (k : Nat) (x : Shg) (j : Nat) : (s.setShg k x).fry j = s.fry j := rfl
@[simp] theorem State.setCoupler_read_fry (k : Nat) (x : Coupler) (j : Nat) : (s.setCoupler k x).fry j = s.fry j := rfl
@[simp] theorem State.setLine_read_fry (k l : Nat) (x : TLine) (j : Nat) : (s.setLine k l x).fry j = s.fry j := rfl
@[simp] theorem State.setPort_read_fry (k : Nat) (x : Port) (j : Nat) : (s.setPort k x).fry j = s.fry j := rfl
@[simp] theorem State.setRing_read_fry (k : Nat) (x : Ring) (j : Nat) : (s.setRing k x).fry j = s.fry j := rfl
@[simp] theorem State.setSmp_read_fry (k : Nat) (x : Smp) (j : Nat) : (s.setSmp k x).fry j = s.fry j := rfl
@[simp] theorem State.setBarr_read_fry (k b : Nat) (x : List BarrEnt) (j : Nat) : (s.setBarr k b x).fry j = s.fry j := rfl
@[simp] theorem State.onTide_read_fry (g : Tide → Tide) (j : Nat) : (s.onTide g).fry j = s.fry j := rfl
@[simp] theorem State.onLight_read_fry (g : Light → Light) (j : Nat) : (s.onLight g).fry j = s.fry j := rfl
@[simp] theorem State.onFw_read_fry (g : Fw → Fw) (j : Nat) : (s.onFw g).fry j = s.fry j := rfl
@[simp] theorem State.onSec_read_fry (g : Sec → Sec) (j : Nat) : (s.onSec g).fry j = s.fry j := rfl
@[simp] theorem State.onStl_read_fry (g : Stl → Stl) (j : Nat) : (s.onStl g).fry j = s.fry j := rfl
@[simp] theorem State.onPwr_read_fry (g : Pwr → Pwr) (j : Nat) : (s.onPwr g).fry j = s.fry j := rfl
@[simp] theorem State.onRst_read_fry (g : Rst → Rst) (j : Nat) : (s.onRst g).fry j = s.fry j := rfl
@[simp] theorem State.onFlt_read_fry (g : Flt → Flt) (j : Nat) : (s.onFlt g).fry j = s.fry j := rfl
@[simp] theorem State.onFab_read_fry (g : Fab → Fab) (j : Nat) : (s.onFab g).fry j = s.fry j := rfl
@[simp] theorem State.onTwn_read_fry (g : Twn → Twn) (j : Nat) : (s.onTwn g).fry j = s.fry j := rfl
@[simp] theorem State.wr_read_ring (f : Fld) (i v : Nat) (j : Nat) : (s.wr f i v).ring j = s.ring j := rfl
@[simp] theorem State.wrWord_read_ring (no i : Nat) (v : W64) (j : Nat) : (s.wrWord no i v).ring j = s.ring j := rfl
@[simp] theorem State.raise_read_ring (e : FaultEvt) (j : Nat) : (s.raise e).ring j = s.ring j := rfl
@[simp] theorem State.emit_read_ring (o : Out) (j : Nat) : (s.emit o).ring j = s.ring j := rfl
@[simp] theorem State.setTile_read_ring (k : Nat) (x : Tile) (j : Nat) : (s.setTile k x).ring j = s.ring j := rfl
@[simp] theorem State.setRegion_read_ring (k : Nat) (x : Region) (j : Nat) : (s.setRegion k x).ring j = s.ring j := rfl
@[simp] theorem State.setDie_read_ring (k : Nat) (x : Die) (j : Nat) : (s.setDie k x).ring j = s.ring j := rfl
@[simp] theorem State.setStn_read_ring (k : Nat) (x : Stn) (j : Nat) : (s.setStn k x).ring j = s.ring j := rfl
@[simp] theorem State.setShg_read_ring (k : Nat) (x : Shg) (j : Nat) : (s.setShg k x).ring j = s.ring j := rfl
@[simp] theorem State.setCoupler_read_ring (k : Nat) (x : Coupler) (j : Nat) : (s.setCoupler k x).ring j = s.ring j := rfl
@[simp] theorem State.setLine_read_ring (k l : Nat) (x : TLine) (j : Nat) : (s.setLine k l x).ring j = s.ring j := rfl
@[simp] theorem State.setPort_read_ring (k : Nat) (x : Port) (j : Nat) : (s.setPort k x).ring j = s.ring j := rfl
@[simp] theorem State.setFry_read_ring (k : Nat) (x : Fry) (j : Nat) : (s.setFry k x).ring j = s.ring j := rfl
@[simp] theorem State.setSmp_read_ring (k : Nat) (x : Smp) (j : Nat) : (s.setSmp k x).ring j = s.ring j := rfl
@[simp] theorem State.setBarr_read_ring (k b : Nat) (x : List BarrEnt) (j : Nat) : (s.setBarr k b x).ring j = s.ring j := rfl
@[simp] theorem State.onTide_read_ring (g : Tide → Tide) (j : Nat) : (s.onTide g).ring j = s.ring j := rfl
@[simp] theorem State.onLight_read_ring (g : Light → Light) (j : Nat) : (s.onLight g).ring j = s.ring j := rfl
@[simp] theorem State.onFw_read_ring (g : Fw → Fw) (j : Nat) : (s.onFw g).ring j = s.ring j := rfl
@[simp] theorem State.onSec_read_ring (g : Sec → Sec) (j : Nat) : (s.onSec g).ring j = s.ring j := rfl
@[simp] theorem State.onStl_read_ring (g : Stl → Stl) (j : Nat) : (s.onStl g).ring j = s.ring j := rfl
@[simp] theorem State.onPwr_read_ring (g : Pwr → Pwr) (j : Nat) : (s.onPwr g).ring j = s.ring j := rfl
@[simp] theorem State.onRst_read_ring (g : Rst → Rst) (j : Nat) : (s.onRst g).ring j = s.ring j := rfl
@[simp] theorem State.onFlt_read_ring (g : Flt → Flt) (j : Nat) : (s.onFlt g).ring j = s.ring j := rfl
@[simp] theorem State.onFab_read_ring (g : Fab → Fab) (j : Nat) : (s.onFab g).ring j = s.ring j := rfl
@[simp] theorem State.onTwn_read_ring (g : Twn → Twn) (j : Nat) : (s.onTwn g).ring j = s.ring j := rfl
@[simp] theorem State.wr_read_smp (f : Fld) (i v : Nat) (j : Nat) : (s.wr f i v).smp j = s.smp j := rfl
@[simp] theorem State.wrWord_read_smp (no i : Nat) (v : W64) (j : Nat) : (s.wrWord no i v).smp j = s.smp j := rfl
@[simp] theorem State.raise_read_smp (e : FaultEvt) (j : Nat) : (s.raise e).smp j = s.smp j := rfl
@[simp] theorem State.emit_read_smp (o : Out) (j : Nat) : (s.emit o).smp j = s.smp j := rfl
@[simp] theorem State.setTile_read_smp (k : Nat) (x : Tile) (j : Nat) : (s.setTile k x).smp j = s.smp j := rfl
@[simp] theorem State.setRegion_read_smp (k : Nat) (x : Region) (j : Nat) : (s.setRegion k x).smp j = s.smp j := rfl
@[simp] theorem State.setDie_read_smp (k : Nat) (x : Die) (j : Nat) : (s.setDie k x).smp j = s.smp j := rfl
@[simp] theorem State.setStn_read_smp (k : Nat) (x : Stn) (j : Nat) : (s.setStn k x).smp j = s.smp j := rfl
@[simp] theorem State.setShg_read_smp (k : Nat) (x : Shg) (j : Nat) : (s.setShg k x).smp j = s.smp j := rfl
@[simp] theorem State.setCoupler_read_smp (k : Nat) (x : Coupler) (j : Nat) : (s.setCoupler k x).smp j = s.smp j := rfl
@[simp] theorem State.setLine_read_smp (k l : Nat) (x : TLine) (j : Nat) : (s.setLine k l x).smp j = s.smp j := rfl
@[simp] theorem State.setPort_read_smp (k : Nat) (x : Port) (j : Nat) : (s.setPort k x).smp j = s.smp j := rfl
@[simp] theorem State.setFry_read_smp (k : Nat) (x : Fry) (j : Nat) : (s.setFry k x).smp j = s.smp j := rfl
@[simp] theorem State.setRing_read_smp (k : Nat) (x : Ring) (j : Nat) : (s.setRing k x).smp j = s.smp j := rfl
@[simp] theorem State.setBarr_read_smp (k b : Nat) (x : List BarrEnt) (j : Nat) : (s.setBarr k b x).smp j = s.smp j := rfl
@[simp] theorem State.onTide_read_smp (g : Tide → Tide) (j : Nat) : (s.onTide g).smp j = s.smp j := rfl
@[simp] theorem State.onLight_read_smp (g : Light → Light) (j : Nat) : (s.onLight g).smp j = s.smp j := rfl
@[simp] theorem State.onFw_read_smp (g : Fw → Fw) (j : Nat) : (s.onFw g).smp j = s.smp j := rfl
@[simp] theorem State.onSec_read_smp (g : Sec → Sec) (j : Nat) : (s.onSec g).smp j = s.smp j := rfl
@[simp] theorem State.onStl_read_smp (g : Stl → Stl) (j : Nat) : (s.onStl g).smp j = s.smp j := rfl
@[simp] theorem State.onPwr_read_smp (g : Pwr → Pwr) (j : Nat) : (s.onPwr g).smp j = s.smp j := rfl
@[simp] theorem State.onRst_read_smp (g : Rst → Rst) (j : Nat) : (s.onRst g).smp j = s.smp j := rfl
@[simp] theorem State.onFlt_read_smp (g : Flt → Flt) (j : Nat) : (s.onFlt g).smp j = s.smp j := rfl
@[simp] theorem State.onFab_read_smp (g : Fab → Fab) (j : Nat) : (s.onFab g).smp j = s.smp j := rfl
@[simp] theorem State.onTwn_read_smp (g : Twn → Twn) (j : Nat) : (s.onTwn g).smp j = s.smp j := rfl

end Sys2Proof.Machine
end

