-- ==== Sys2Proof/Laws/Tile.lean ====
section
/-! SUPPORT. Laws of one tile: a quiet tile over time, and a result on its way in it. -/
namespace Sys2Proof.Machine

theorem Tile.quiet_iff (t : Tile) : t.quiet = true ↔ t.pend = [] ∧ t.mats = [] ∧ t.delayed = [] ∧ t.held = [] ∧ t.rep = [] := by
  simp only [Tile.quiet, Bool.and_eq_true, List.isEmpty_iff, and_assoc]

/-- A quiet tile only sees the cycle pass. -/
theorem Tile.settle_quiet {t : Tile} (h : t.quiet = true) (c : Nat) : t.settle c = { t with now := max t.now c } := by
  obtain ⟨h1, h2, h3, h4, h5⟩ := t.quiet_iff.mp h
  cases t
  simp only at h1 h2 h3 h4 h5
  subst h1 h2 h3 h4 h5
  rfl

theorem Tile.quiet_settle {t : Tile} (h : t.quiet = true) (c : Nat) : (t.settle c).quiet = true := by
  rw [Tile.settle_quiet h]; exact h

theorem State.tile_setTile (s : State) (k : Nat) (x : Tile) (j : Nat) :
    (s.setTile k x).tile j = if j = k then x else s.tile j := smGet_smSet _ _ _ _ _

theorem State.here_putTile (s : State) (pt : At) (x : Tile) :
    (s.putTile pt.die.val pt.tile.val x).here pt = { x with rep := [] } := by
  have : (s.putTile pt.die.val pt.tile.val x).here pt = (s.setTile (pt.die.val * 256 + pt.tile.val) { x with rep := [] }).tile (tileKey pt.die pt.tile) := rfl
  rw [this, State.tile_setTile]; exact if_pos rfl

theorem State.tile_putTile_ne (s : State) (pt : At) (x : Tile) (k : Nat) (h : k ≠ tileKey pt.die pt.tile) :
    (s.putTile pt.die.val pt.tile.val x).tile k = s.tile k := by
  have : (s.putTile pt.die.val pt.tile.val x).tile k = (s.setTile (pt.die.val * 256 + pt.tile.val) { x with rep := [] }).tile k := rfl
  rw [this, State.tile_setTile]; exact if_neg h

/-- Storing a tile that raised nothing changes nothing else. -/
theorem State.onlyTile_putTile (s : State) (pt : At) (x : Tile) (h : x.rep = []) :
    OnlyTile pt s (s.putTile pt.die.val pt.tile.val x) := by
  refine ⟨?_, fun k hk => s.tile_putTile_ne pt x k hk⟩
  simp only [State.putTile, State.setTile, h, List.map_nil, List.append_nil]

/-- A slot operation without a cause acts on the settled tile. -/
theorem slotOp_ok (pt : At) (slot : Nat) (f : Tile → Tile) (s : State) :
    slotOp pt slot 0 f s = s.putTile pt.die.val pt.tile.val (f ((s.here pt).settle pt.cyc)) := rfl

/-- Results on their way, all due in one cycle, stay so until the cycle is over. -/
theorem Tile.settle_pend_before {t : Tile} (h : t.quiet = true) (ps : List Pend) (e c : Nat) (hp : ∀ p ∈ ps, p.due = e)
    (hc : c ≤ e) : ({ t with pend := ps } : Tile).settle c = { t with pend := ps, now := max t.now c } := by
  obtain ⟨h1, h2, h3, h4, h5⟩ := t.quiet_iff.mp h
  cases t
  simp only at h1 h2 h3 h4 h5
  subst h1 h2 h3 h4 h5
  have ha : ∀ x : Tile, applyPends c ps x = x := by
    clear h
    intro x
    induction ps with
    | nil => rfl
    | cons p ps ih =>
      have hn : ¬(p.due < c) := by have := hp p (List.mem_cons_self ..); omega
      rw [applyPends, if_neg hn]; exact ih fun q hq => hp q (List.mem_cons_of_mem _ hq)
  have hf : (ps.filter fun p => !decide (p.due < c)) = ps := by
    rw [List.filter_eq_self]
    intro p hq
    have hn : ¬(p.due < c) := by have := hp p hq; omega
    simp only [decide_eq_false hn, Bool.not_false]
  simp only [Tile.settle, forceHeld, Tile.applyBefore, ha, hf, Tile.engine, List.isEmpty_nil, if_true, List.filter]

/-- Applying a list of results in order. -/
def Tile.applyAll (e : Nat) : List Pend → Tile → Tile
  | [], t => t
  | p :: ps, t => Tile.applyAll e ps (t.apply e p.wr)

/-- Results on their way, all due in one cycle, are applied in order once it is over. -/
theorem Tile.settle_pend_after {t : Tile} (h : t.quiet = true) (ps : List Pend) (e c : Nat) (hp : ∀ p ∈ ps, p.due = e)
    (hc : e < c)
    (hh : ∀ x : Tile, x.held = [] → (Tile.applyAll e ps x).held = []) :
    ({ t with pend := ps } : Tile).settle c =
      { Tile.applyAll e ps { t with pend := ps } with pend := [], now := max (Tile.applyAll e ps { t with pend := ps }).now c } := by
  obtain ⟨h1, h2, h3, h4, h5⟩ := t.quiet_iff.mp h
  have ha : ∀ x : Tile, applyPends c ps x = Tile.applyAll e ps x := by
    clear hh
    intro x
    induction ps generalizing x with
    | nil => rfl
    | cons p ps ih =>
      have hd := hp p (List.mem_cons_self ..)
      have hn : p.due < c := by omega
      rw [applyPends, if_pos hn, Tile.applyAll, hd]; exact ih (fun q hq => hp q (List.mem_cons_of_mem _ hq)) _
  have hf : (ps.filter fun p => !decide (p.due < c)) = [] := by
    rw [List.filter_eq_nil_iff]
    intro p hq
    have hn : p.due < c := by have := hp p hq; omega
    simp only [decide_eq_true hn, Bool.not_true]; exact Bool.false_ne_true
  have e1 : ({ t with pend := ps } : Tile).settle c =
      (fun x : Tile => { x with now := max x.now c, held := x.held.filter fun h => decide (c < h.2) })
        (({ t with pend := ps } : Tile).applyBefore c) := by
    cases t; simp only at h2 h3; subst h2 h3; rfl
  have e2 : ({ t with pend := ps } : Tile).applyBefore c = { Tile.applyAll e ps { t with pend := ps } with pend := [] } := by
    simp only [Tile.applyBefore, ha, hf]
  rw [e1, e2]
  have hh' := hh { t with pend := ps } h4
  generalize Tile.applyAll e ps { t with pend := ps } = x at *
  cases x
  simp only at hh'
  subst hh'
  rfl

end Sys2Proof.Machine
end

