-- ==== Sys2Proof/Laws/Ops.lean ====
section
/-! SUPPORT. Laws of the shared operations: an entry read after it is set, counts, faults, free values, and what keeps the
canonical form. -/
namespace Sys2Proof.Machine

theorem State.die_setDie (s : State) (k j : Nat) (x : Die) : (s.setDie k x).die j = if j = k then x else s.die j := smGet_smSet _ _ _ _ _
theorem State.stn_setStn (s : State) (k j : Nat) (x : Stn) : (s.setStn k x).stn j = if j = k then x else s.stn j := smGet_smSet _ _ _ _ _
theorem State.shg_setShg (s : State) (k j : Nat) (x : Shg) : (s.setShg k x).shg j = if j = k then x else s.shg j := smGet_smSet _ _ _ _ _
theorem State.coupler_setCoupler (s : State) (k j : Nat) (x : Coupler) : (s.setCoupler k x).coupler j = if j = k then x else s.coupler j := smGet_smSet _ _ _ _ _
theorem State.region_setRegion (s : State) (k j : Nat) (x : Region) : (s.setRegion k x).region j = if j = k then x else s.region j := smGet_smSet _ _ _ _ _
theorem State.port_setPort (s : State) (k j : Nat) (x : Port) : (s.setPort k x).port j = if j = k then x else s.port j := smGet_smSet _ _ _ _ _
theorem State.fry_setFry (s : State) (k j : Nat) (x : Fry) : (s.setFry k x).fry j = if j = k then x else s.fry j := smGet_smSet _ _ _ _ _
theorem State.ring_setRing (s : State) (k j : Nat) (x : Ring) : (s.setRing k x).ring j = if j = k then x else s.ring j := smGet_smSet _ _ _ _ _
theorem State.smp_setSmp (s : State) (k j : Nat) (x : Smp) : (s.setSmp k x).smp j = if j = k then x else s.smp j := smGet_smSet _ _ _ _ _

/-! ### Counts and flags -/

/-- A count reads as the sum, or stops at its maximum. -/
theorem State.rd_bump_same (s : State) (f : Fld) (i n : Nat) (hf : f.fits = true) :
    (s.bump f i n).rd f i = satAdd f.wd (s.rd f i) n % 2 ^ f.wd := State.rd_wr_same s f i _ hf

theorem State.rd_flag_same (s : State) (f : Fld) (i : Nat) (b : Bool) (hf : f.fits = true) (hw : 0 < f.wd) :
    (s.flag f i b).on f i = b := by
  rw [State.on, State.flag, State.rd_wr_same s f i _ hf, Nat.mod_eq_of_lt]
  · cases b <;> rfl
  · have := Nat.pow_le_pow_right (n := 2) (by omega) hw
    split <;> omega

/-! ### Faults and free values -/

/-- A fault changes nothing but the events that wait for their collector. -/
theorem State.fault_eq (s : State) (k q u : Nat) :
    s.fault k q u = { s with raised := s.raised ++ [⟨k, q, u, none, 0, 0⟩] } := rfl

/-- A free value advances the occurrence counter and changes nothing else. -/
theorem State.fresh_eq (s : State) : s.fresh = (Config.freeNat s.free, { s with free := s.free + 1 }) := rfl

/-! ### Slot operations -/

/-- A slot operation changes its tile and adds what the tile reports. -/
theorem State.onTile_eq (s : State) (pt : At) (f : Tile → Tile) :
    s.onTile pt f = s.putTile pt.die.val pt.tile.val (f ((s.here pt).settle pt.cyc)) := rfl

/-- A slot operation with a cause is a bundle fault. -/
theorem slotOp_cause (pt : At) (slot cause : Nat) (f : Tile → Tile) (s : State) (h : cause ≠ 0) :
    slotOp pt slot cause f s = s.bundleFault pt slot cause := if_neg h

/-- A command on a quiet tile that reports nothing changes its tile only, to what it makes of it in the command's cycle. -/
theorem State.onTile_quiet (s : State) (pt : At) (f : Tile → Tile) (h : (s.here pt).quiet = true)
    (hf : (f { s.here pt with now := max (s.here pt).now pt.cyc }).rep = []) :
    OnlyTile pt s (s.onTile pt f) ∧ (s.onTile pt f).here pt = f { s.here pt with now := max (s.here pt).now pt.cyc } := by
  rw [State.onTile_eq, Tile.settle_quiet h]
  refine ⟨State.onlyTile_putTile s pt _ hf, ?_⟩
  rw [State.here_putTile]
  cases hx : f { s.here pt with now := max (s.here pt).now pt.cyc } with | _ => rw [hx] at hf; simp only at hf ⊢; rw [hf]

/-! ### Registers outside a list -/

theorem RegsBut.refl (fs : List (Fld × Nat)) (s : State) : RegsBut fs s s := fun _ _ _ => rfl

theorem RegsBut.trans {fs : List (Fld × Nat)} {a b c : State} (h : RegsBut fs a b) (g : RegsBut fs b c) : RegsBut fs a c :=
  fun k i h0 => (g k i h0).trans (h k i h0)

theorem RegsBut.mono {fs gs : List (Fld × Nat)} {a b : State} (h : RegsBut fs a b) (hs : ∀ x ∈ fs, x ∈ gs) : RegsBut gs a b :=
  fun k i h0 => h k i fun x hx => h0 x (hs x hx)

theorem RegsBut.of_regs {fs : List (Fld × Nat)} {a b : State} (h : b.regs = a.regs) : RegsBut fs a b := by
  intro k i _; rw [h]

/-! ### What a receiver sees of a swell (R227) -/

@[simp] theorem rxSwell_good (calm : Bool) (x : Swell) : rxSwell calm x .good = some x := rfl
@[simp] theorem rxSwell_fec (calm : Bool) (x : Swell) : rxSwell calm x .fec = none := rfl
@[simp] theorem rxSwell_other (calm : Bool) (x : Swell) (q : List Byte) : rxSwell calm x (.other q) = some { x with payload := q } := rfl
theorem crcGo_zeros (n : Nat) : crcGo (List.replicate n 0#8) 0 = 0 := by
  induction n with
  | zero => rfl
  | succ n ih => rw [List.replicate_succ, crcGo, show crcBits 8 (Nat.xor 0 (0#8).toNat) = 0 from rfl, ih]
theorem leNat_zeros (n : Nat) : leNat (List.replicate n 0#8) = 0 := by
  induction n with
  | zero => rfl
  | succ n ih => rw [List.replicate_succ, leNat, ih]; rfl
/-- Errors that every lane corrects leave no difference. -/
theorem wireDiff_corrected {calm : Bool} {es} (h : (wireLanes calm es).any Option.isNone = false) {n : Nat}
    (z : wireBlock calm (wireLanes calm es) = List.replicate n 0) : wireDiff calm es = some (List.replicate n 0) := by
  simp [wireDiff, h, z, crcGo_zeros, leNat_zeros, List.take_replicate, List.drop_replicate, List.replicate_append_replicate]
/-- Errors that a lane's code or the CRC does not survive are a failed swell. -/
theorem rxSwell_failed {calm : Bool} {es} (x : Swell) (h : wireDiff calm es = none) : rxSwell calm x (.errors es) = none := by
  simp [rxSwell, h]
/-- Errors that the codes correct leave the swell as sent. -/
theorem rxSwell_corrected {calm : Bool} {es d} (x : Swell) (h : wireDiff calm es = some d) (a : ∀ b ∈ d, b = 0) :
    rxSwell calm x (.errors es) = some x := by
  have a' : d.all (· == 0) = true := by simpa using a
  simp only [rxSwell, h, Option.map_some, a', if_true]

/-! ### The canonical form -/

theorem wf_rfSet {m : RegFile} (f : Fld) (i v : Nat) (w : smWf regDefault m = true) : smWf regDefault (rfSet m f i v) = true :=
  smWf_smSet _ _ _ w
theorem wf_rfSetWord {m : RegFile} (no i : Nat) (v : W64) (w : smWf regDefault m = true) :
    smWf regDefault (rfSetWord m no i v) = true := smWf_smSet _ _ _ w

/-- An entry put in front of a register file, unless it holds its default, keeps the canonical form. -/
theorem wfFrom_put {d : Nat → W64} {lo k : Nat} {v : W64} {m : RegFile} (hl : lo ≤ k) (h : smWfFrom d (k + 1) m = true) :
    smWfFrom d lo (if v = d k then m else (k, v) :: m) = true := by
  split
  · exact smWfFrom_mono _ (lo' := k + 1) (by omega) h
  · rename_i hd; rw [smWfFrom_cons]; exact ⟨hl, hd, h⟩

theorem wfFrom_rfReset (e : Nat) (r : Nat → Nat → Bool) (m : RegFile) :
    ∀ lo, smWfFrom regDefault lo m = true → smWfFrom regDefault lo (rfReset e r m) = true := by
  induction m with
  | nil => intro _ h; exact h
  | cons x m ih =>
    obtain ⟨k, v⟩ := x
    intro lo h
    rw [smWfFrom_cons] at h
    simp only [rfReset]
    split
    · split <;> exact wfFrom_put h.1 (ih _ h.2.2)
    · rw [smWfFrom_cons]; exact ⟨h.1, h.2.1, ih _ h.2.2⟩

/-- A reset event keeps the register file in canonical form. -/
theorem wf_rfReset {m : RegFile} (e : Nat) (r : Nat → Nat → Bool) (w : smWf regDefault m = true) :
    smWf regDefault (rfReset e r m) = true := wfFrom_rfReset e r m 0 w

end Sys2Proof.Machine
end

