-- ==== Sys2Proof/Laws/PerInstr.lean ====
section
/-! SUPPORT. One lemma for each command about its encoding. -/
namespace Sys2Proof.Laws

/-- What an encoding alone can meet: no cause of Table 4-12, or one of causes 0x3 to 0x8 (R84, R93, R103). -/
def Row.Statement (i : Instr) : Prop := ∀ caps, Instr.cause caps i = 0 ∨ 3 ≤ Instr.cause caps i ∧ Instr.cause caps i ≤ 8

/-- The first cause of a list is none, or one of its codes. -/
theorem firstCause_mem (l : List (Nat × Bool)) : firstCause l = 0 ∨ firstCause l ∈ l.map Prod.fst := by
  induction l with
  | nil => exact .inl rfl
  | cons x l ih =>
    obtain ⟨c, b⟩ := x
    cases b with
    | true => exact .inr (List.mem_cons_self ..)
    | false => exact ih.imp id (List.mem_cons_of_mem _)

theorem firstCause_range (l : List (Nat × Bool)) (h : ((l.map Prod.fst).all fun c => decide (3 ≤ c ∧ c ≤ 8)) = true) :
    firstCause l = 0 ∨ 3 ≤ firstCause l ∧ firstCause l ≤ 8 :=
  (firstCause_mem l).imp id fun m => of_decide_eq_true (List.all_eq_true.mp h _ m)

theorem Row.readClear (master : Master) (bar4 : Bool) (addr : BitVec 26) (size : Nat) : Row.Statement (.readClear master bar4 addr size) := fun _ => .inl rfl
theorem Row.registerWrite (master : Master) (target : WrTarget) : Row.Statement (.registerWrite master target) := fun _ => .inl rfl
theorem Row.bundleIssue (pt : At) : Row.Statement (.bundleIssue pt) := fun _ => .inl rfl
theorem Row.resultWrite (pt : At) : Row.Statement (.resultWrite pt) := fun _ => .inl rfl
theorem Row.delayedVectorAccess (pt : At) : Row.Statement (.delayedVectorAccess pt) := fun _ => .inl rfl
theorem Row.nop (pt : At) : Row.Statement (.nop pt) := fun _ => .inl rfl
theorem Row.brc (pt : At) (o : CBrc) : Row.Statement (.brc pt o) := fun _ => firstCause_range _ rfl
theorem Row.loop (pt : At) (o : CLoop) : Row.Statement (.loop pt o) := fun _ => .inl rfl
theorem Row.loopi (pt : At) (o : CLoopi) : Row.Statement (.loopi pt o) := fun _ => .inl rfl
theorem Row.waitc (pt : At) (o : CWaitc) : Row.Statement (.waitc pt o) := fun _ => firstCause_range _ rfl
theorem Row.tidew (pt : At) (o : CTidew) : Row.Statement (.tidew pt o) := fun _ => .inl rfl
theorem Row.fence (pt : At) (o : CFence) : Row.Statement (.fence pt o) := fun _ => firstCause_range _ rfl
theorem Row.fenceRecord (pt : At) : Row.Statement (.fenceRecord pt) := fun _ => .inl rfl
theorem Row.barr (pt : At) (o : CBarr) : Row.Statement (.barr pt o) := fun _ => .inl rfl
theorem Row.barrierRelease (die : Fin 24) (set : Fin 16) (cyc : Nat) : Row.Statement (.barrierRelease die set cyc) := fun _ => .inl rfl
theorem Row.epchk (pt : At) (o : CEpchk) : Row.Statement (.epchk pt o) := fun _ => .inl rfl
theorem Row.endIssue (pt : At) : Row.Statement (.endIssue pt) := fun _ => .inl rfl
theorem Row.add (pt : At) (o : SR) : Row.Statement (.add pt o) := fun _ => .inl rfl
theorem Row.sub (pt : At) (o : SR) : Row.Statement (.sub pt o) := fun _ => .inl rfl
theorem Row.and (pt : At) (o : SR) : Row.Statement (.and pt o) := fun _ => .inl rfl
theorem Row.or (pt : At) (o : SR) : Row.Statement (.or pt o) := fun _ => .inl rfl
theorem Row.xor (pt : At) (o : SR) : Row.Statement (.xor pt o) := fun _ => .inl rfl
theorem Row.sll (pt : At) (o : SR) : Row.Statement (.sll pt o) := fun _ => .inl rfl
theorem Row.srl (pt : At) (o : SR) : Row.Statement (.srl pt o) := fun _ => .inl rfl
theorem Row.sra (pt : At) (o : SR) : Row.Statement (.sra pt o) := fun _ => .inl rfl
theorem Row.slt (pt : At) (o : SR) : Row.Statement (.slt pt o) := fun _ => .inl rfl
theorem Row.sltu (pt : At) (o : SR) : Row.Statement (.sltu pt o) := fun _ => .inl rfl
theorem Row.min (pt : At) (o : SR) : Row.Statement (.min pt o) := fun _ => .inl rfl
theorem Row.max (pt : At) (o : SR) : Row.Statement (.max pt o) := fun _ => .inl rfl
theorem Row.minu (pt : At) (o : SR) : Row.Statement (.minu pt o) := fun _ => .inl rfl
theorem Row.maxu (pt : At) (o : SR) : Row.Statement (.maxu pt o) := fun _ => .inl rfl
theorem Row.mul (pt : At) (o : SR) : Row.Statement (.mul pt o) := fun _ => .inl rfl
theorem Row.mulh (pt : At) (o : SR) : Row.Statement (.mulh pt o) := fun _ => .inl rfl
theorem Row.mulhu (pt : At) (o : SR) : Row.Statement (.mulhu pt o) := fun _ => .inl rfl
theorem Row.div (pt : At) (o : SR) : Row.Statement (.div pt o) := fun _ => .inl rfl
theorem Row.divu (pt : At) (o : SR) : Row.Statement (.divu pt o) := fun _ => .inl rfl
theorem Row.rem (pt : At) (o : SR) : Row.Statement (.rem pt o) := fun _ => .inl rfl
theorem Row.remu (pt : At) (o : SR) : Row.Statement (.remu pt o) := fun _ => .inl rfl
theorem Row.lane (pt : At) (o : SR) : Row.Statement (.lane pt o) := fun _ => .inl rfl
theorem Row.addi (pt : At) (o : SI) : Row.Statement (.addi pt o) := fun _ => .inl rfl
theorem Row.andi (pt : At) (o : SI) : Row.Statement (.andi pt o) := fun _ => .inl rfl
theorem Row.ori (pt : At) (o : SI) : Row.Statement (.ori pt o) := fun _ => .inl rfl
theorem Row.xori (pt : At) (o : SI) : Row.Statement (.xori pt o) := fun _ => .inl rfl
theorem Row.slli (pt : At) (o : SI) : Row.Statement (.slli pt o) := fun _ => firstCause_range _ rfl
theorem Row.srli (pt : At) (o : SI) : Row.Statement (.srli pt o) := fun _ => firstCause_range _ rfl
theorem Row.srai (pt : At) (o : SI) : Row.Statement (.srai pt o) := fun _ => firstCause_range _ rfl
theorem Row.slti (pt : At) (o : SI) : Row.Statement (.slti pt o) := fun _ => .inl rfl
theorem Row.sltiu (pt : At) (o : SI) : Row.Statement (.sltiu pt o) := fun _ => .inl rfl
theorem Row.li (pt : At) (o : SL) : Row.Statement (.li pt o) := fun _ => .inl rfl
theorem Row.lih (pt : At) (o : SL) : Row.Statement (.lih pt o) := fun _ => .inl rfl
theorem Row.crr (pt : At) (o : SC) : Row.Statement (.crr pt o) := fun _ => firstCause_range _ rfl
theorem Row.crw (pt : At) (o : SC) : Row.Statement (.crw pt o) := fun _ => firstCause_range _ rfl
theorem Row.vld (pt : At) (o : VM) : Row.Statement (.vld pt o) := fun _ => .inl rfl
theorem Row.vst (pt : At) (o : VM) : Row.Statement (.vst pt o) := fun _ => .inl rfl
theorem Row.vmovi (pt : At) (o : VI) : Row.Statement (.vmovi pt o) := fun _ => firstCause_range _ rfl
theorem Row.vidx (pt : At) (o : VI) : Row.Statement (.vidx pt o) := fun _ => firstCause_range _ rfl
theorem Row.vadd (pt : At) (o : VR) : Row.Statement (.vadd pt o) := fun _ => firstCause_range _ rfl
theorem Row.vsub (pt : At) (o : VR) : Row.Statement (.vsub pt o) := fun _ => firstCause_range _ rfl
theorem Row.vmul (pt : At) (o : VR) : Row.Statement (.vmul pt o) := fun _ => firstCause_range _ rfl
theorem Row.vfma (pt : At) (o : VR) : Row.Statement (.vfma pt o) := fun _ => firstCause_range _ rfl
theorem Row.vmin (pt : At) (o : VR) : Row.Statement (.vmin pt o) := fun _ => firstCause_range _ rfl
theorem Row.vmax (pt : At) (o : VR) : Row.Statement (.vmax pt o) := fun _ => firstCause_range _ rfl
theorem Row.vabs (pt : At) (o : VR) : Row.Statement (.vabs pt o) := fun _ => firstCause_range _ rfl
theorem Row.vneg (pt : At) (o : VR) : Row.Statement (.vneg pt o) := fun _ => firstCause_range _ rfl
theorem Row.vrcp (pt : At) (o : VR) : Row.Statement (.vrcp pt o) := fun _ => firstCause_range _ rfl
theorem Row.vsqrt (pt : At) (o : VR) : Row.Statement (.vsqrt pt o) := fun _ => firstCause_range _ rfl
theorem Row.vrsq (pt : At) (o : VR) : Row.Statement (.vrsq pt o) := fun _ => firstCause_range _ rfl
theorem Row.vexp2 (pt : At) (o : VR) : Row.Statement (.vexp2 pt o) := fun _ => firstCause_range _ rfl
theorem Row.vlog2 (pt : At) (o : VR) : Row.Statement (.vlog2 pt o) := fun _ => firstCause_range _ rfl
theorem Row.vexd (pt : At) (o : VR) : Row.Statement (.vexd pt o) := fun _ => firstCause_range _ rfl
theorem Row.vadds (pt : At) (o : VS) : Row.Statement (.vadds pt o) := fun _ => firstCause_range _ rfl
theorem Row.vmuls (pt : At) (o : VS) : Row.Statement (.vmuls pt o) := fun _ => firstCause_range _ rfl
theorem Row.vfmas (pt : At) (o : VS) : Row.Statement (.vfmas pt o) := fun _ => firstCause_range _ rfl
theorem Row.vmaxs (pt : At) (o : VS) : Row.Statement (.vmaxs pt o) := fun _ => firstCause_range _ rfl
theorem Row.viadds (pt : At) (o : VS) : Row.Statement (.viadds pt o) := fun _ => firstCause_range _ rfl
theorem Row.viadd (pt : At) (o : VR) : Row.Statement (.viadd pt o) := fun _ => firstCause_range _ rfl
theorem Row.visub (pt : At) (o : VR) : Row.Statement (.visub pt o) := fun _ => firstCause_range _ rfl
theorem Row.vimul (pt : At) (o : VR) : Row.Statement (.vimul pt o) := fun _ => firstCause_range _ rfl
theorem Row.vand (pt : At) (o : VR) : Row.Statement (.vand pt o) := fun _ => firstCause_range _ rfl
theorem Row.vor (pt : At) (o : VR) : Row.Statement (.vor pt o) := fun _ => firstCause_range _ rfl
theorem Row.vxor (pt : At) (o : VR) : Row.Statement (.vxor pt o) := fun _ => firstCause_range _ rfl
theorem Row.vshl (pt : At) (o : VR) : Row.Statement (.vshl pt o) := fun _ => firstCause_range _ rfl
theorem Row.vshr (pt : At) (o : VR) : Row.Statement (.vshr pt o) := fun _ => firstCause_range _ rfl
theorem Row.vsra (pt : At) (o : VR) : Row.Statement (.vsra pt o) := fun _ => firstCause_range _ rfl
theorem Row.vimin (pt : At) (o : VR) : Row.Statement (.vimin pt o) := fun _ => firstCause_range _ rfl
theorem Row.vimax (pt : At) (o : VR) : Row.Statement (.vimax pt o) := fun _ => firstCause_range _ rfl
theorem Row.vsel (pt : At) (o : VR) : Row.Statement (.vsel pt o) := fun _ => firstCause_range _ rfl
theorem Row.vperm (pt : At) (o : VR) : Row.Statement (.vperm pt o) := fun _ => firstCause_range _ rfl
theorem Row.vcmpr (pt : At) (o : VR) : Row.Statement (.vcmpr pt o) := fun _ => firstCause_range _ rfl
theorem Row.pcnt (pt : At) (o : VR) : Row.Statement (.pcnt pt o) := fun _ => firstCause_range _ rfl
theorem Row.vcvt (pt : At) (o : VR) : Row.Statement (.vcvt pt o) := fun _ => firstCause_range _ rfl
theorem Row.vcvtx (pt : At) (o : VR) : Row.Statement (.vcvtx pt o) := fun _ => firstCause_range _ rfl
theorem Row.vrsum (pt : At) (o : VR) : Row.Statement (.vrsum pt o) := fun _ => firstCause_range _ rfl
theorem Row.vrmax (pt : At) (o : VR) : Row.Statement (.vrmax pt o) := fun _ => firstCause_range _ rfl
theorem Row.vrmin (pt : At) (o : VR) : Row.Statement (.vrmin pt o) := fun _ => firstCause_range _ rfl
theorem Row.vbmrg (pt : At) (o : VR) : Row.Statement (.vbmrg pt o) := fun _ => firstCause_range _ rfl
theorem Row.vcmp (pt : At) (o : VP) : Row.Statement (.vcmp pt o) := fun _ => firstCause_range _ rfl
theorem Row.pand (pt : At) (o : VP) : Row.Statement (.pand pt o) := fun _ => firstCause_range _ rfl
theorem Row.por (pt : At) (o : VP) : Row.Statement (.por pt o) := fun _ => firstCause_range _ rfl
theorem Row.pxor (pt : At) (o : VP) : Row.Statement (.pxor pt o) := fun _ => firstCause_range _ rfl
theorem Row.mma (pt : At) (o : MA) : Row.Statement (.mma pt o) := fun _ => firstCause_range _ rfl
theorem Row.mmar (pt : At) (o : MA) : Row.Statement (.mmar pt o) := fun _ => firstCause_range _ rfl
theorem Row.matrixEngineStart (pt : At) : Row.Statement (.matrixEngineStart pt) := fun _ => .inl rfl
theorem Row.matrixEngineDone (pt : At) : Row.Statement (.matrixEngineDone pt) := fun _ => .inl rfl
theorem Row.mrd (pt : At) (o : MR) : Row.Statement (.mrd pt o) := fun _ => firstCause_range _ rfl
theorem Row.mwr (pt : At) (o : MR) : Row.Statement (.mwr pt o) := fun _ => firstCause_range _ rfl
theorem Row.mset (pt : At) (o : MB) : Row.Statement (.mset pt o) := fun _ => .inl rfl
theorem Row.cbld (pt : At) (o : MB) : Row.Statement (.cbld pt o) := fun _ => .inl rfl
theorem Row.cbldDelayedRead (pt : At) : Row.Statement (.cbldDelayedRead pt) := fun _ => .inl rfl
theorem Row.tpld (pt : At) (o : MV) : Row.Statement (.tpld pt o) := fun _ => firstCause_range _ rfl
theorem Row.tpst (pt : At) (o : MV) : Row.Statement (.tpst pt o) := fun _ => firstCause_range _ rfl
theorem Row.msend (pt : At) (o : MV) : Row.Statement (.msend pt o) := fun _ => firstCause_range _ rfl
theorem Row.otxa (pt : At) (o : MV) : Row.Statement (.otxa pt o) := fun _ => firstCause_range _ rfl
theorem Row.orxa (pt : At) (o : MV) : Row.Statement (.orxa pt o) := fun _ => firstCause_range _ rfl
theorem Row.hbrd (pt : At) (o : MV) : Row.Statement (.hbrd pt o) := fun _ => firstCause_range _ rfl
theorem Row.hbwr (pt : At) (o : MV) : Row.Statement (.hbwr pt o) := fun _ => firstCause_range _ rfl
theorem Row.ibld (pt : At) (o : MV) : Row.Statement (.ibld pt o) := fun _ => firstCause_range _ rfl
theorem Row.kvapp (pt : At) (o : MV) : Row.Statement (.kvapp pt o) := fun _ => firstCause_range _ rfl
theorem Row.kvgth (pt : At) (o : MV) : Row.Statement (.kvgth pt o) := fun _ => firstCause_range _ rfl
theorem Row.kvbws (pt : At) (o : MV) : Row.Statement (.kvbws pt o) := fun _ => firstCause_range _ rfl
theorem Row.note (pt : At) (o : MV) : Row.Statement (.note pt o) := fun _ => firstCause_range _ rfl
theorem Row.fld (pt : At) (o : MV) : Row.Statement (.fld pt o) := fun _ => firstCause_range _ rfl
theorem Row.fst (pt : At) (o : MV) : Row.Statement (.fst pt o) := fun _ => firstCause_range _ rfl
theorem Row.fatm (pt : At) (o : MV) : Row.Statement (.fatm pt o) := fun _ => firstCause_range _ rfl
theorem Row.moveCommandStart (pt : At) : Row.Statement (.moveCommandStart pt) := fun _ => .inl rfl
theorem Row.moveCommandComplete (pt : At) (id : Nat) : Row.Statement (.moveCommandComplete pt id) := fun _ => .inl rfl
theorem Row.linkDelivery (pt : At) (link : BitVec 3) (rcyc : Nat) : Row.Statement (.linkDelivery pt link rcyc) := fun _ => .inl rfl
theorem Row.inboundBufferDrain (pt : At) (source : InPort) : Row.Statement (.inboundBufferDrain pt source) := fun _ => .inl rfl
theorem Row.referenceTick : Row.Statement (.referenceTick) := fun _ => .inl rfl
theorem Row.regionTickEdge (die : Fin 24) (region : Fin 4) (cyc : Nat) : Row.Statement (.regionTickEdge die region cyc) := fun _ => .inl rfl
theorem Row.beaconLoad (die : Fin 24) (region : Fin 4) : Row.Statement (.beaconLoad die region) := fun _ => .inl rfl
theorem Row.tableTick (q : Fin 41) : Row.Statement (.tableTick q) := fun _ => .inl rfl
theorem Row.txCutoff (die : Fin 24) : Row.Statement (.txCutoff die) := fun _ => .inl rfl
theorem Row.dataSwell (q : Fin 41) (dport : Fin 60) (cyc : Nat) (rx : Rx) : Row.Statement (.dataSwell q dport cyc rx) := fun _ => .inl rfl
theorem Row.nullSwell (q : Fin 41) (dport : Fin 60) (rx : Rx) : Row.Statement (.nullSwell q dport rx) := fun _ => .inl rfl
theorem Row.idleSwell (q : Fin 41) (dport : Fin 60) (rx : Rx) : Row.Statement (.idleSwell q dport rx) := fun _ => .inl rfl
theorem Row.makeupSwell (q : Fin 41) (dport : Fin 60) (cyc : Nat) (rx : Rx) : Row.Statement (.makeupSwell q dport cyc rx) := fun _ => .inl rfl
theorem Row.reportSwell (q : Fin 41) (src : Fin 41) (rx : Rx) : Row.Statement (.reportSwell q src rx) := fun _ => .inl rfl
theorem Row.noteSwell (q : Fin 41) (src : Fin 41) (second : Bool) (cycs : List Nat) (rx : Rx) : Row.Statement (.noteSwell q src second cycs rx) := fun _ => .inl rfl
theorem Row.beacon (q : Fin 41) (rx : Rx) : Row.Statement (.beacon q rx) := fun _ => .inl rfl
theorem Row.settleTick : Row.Statement (.settleTick) := fun _ => .inl rfl
theorem Row.couplerSweepDone (die : Fin 24) (offs : List (Fin 2048 × BitVec 6)) : Row.Statement (.couplerSweepDone die offs) := fun _ => .inl rfl
theorem Row.reportTick (q : Fin 41) : Row.Statement (.reportTick q) := fun _ => .inl rfl
theorem Row.resolveTick : Row.Statement (.resolveTick) := fun _ => .inl rfl
theorem Row.makeupTick (q : Fin 41) : Row.Statement (.makeupTick q) := fun _ => .inl rfl
theorem Row.noteTick (q : Fin 41) : Row.Statement (.noteTick q) := fun _ => .inl rfl
theorem Row.beaconTick : Row.Statement (.beaconTick) := fun _ => .inl rfl
theorem Row.quietTick : Row.Statement (.quietTick) := fun _ => .inl rfl
theorem Row.idleCycle : Row.Statement (.idleCycle) := fun _ => .inl rfl
theorem Row.tideTableLoad (station : BitVec 8) (buf : Bool) (addr : BitVec 41) : Row.Statement (.tideTableLoad station buf addr) := fun _ => .inl rfl
theorem Row.tideTableCheck : Row.Statement (.tideTableCheck) := fun _ => .inl rfl
theorem Row.swapRequest (hdl : BitVec 24) (shg : BitVec 16) (hrb : Bool) (turn : Bool) : Row.Statement (.swapRequest hdl shg hrb turn) := fun _ => .inl rfl
theorem Row.moduleRoleRequest (mrole : BitVec 3) (fwd : BitVec 8) : Row.Statement (.moduleRoleRequest mrole fwd) := fun _ => .inl rfl
theorem Row.careenReturn (bundle : Fin 131) (effect : Nat) (how : CareenEnd) : Row.Statement (.careenReturn bundle effect how) := fun _ => .inl rfl
theorem Row.hareneRecalDone : Row.Statement (.hareneRecalDone) := fun _ => .inl rfl
theorem Row.bundleMapWrite (bundle : Fin 131) (effect : Nat) (missed : List (Fin 41)) : Row.Statement (.bundleMapWrite bundle effect missed) := fun _ => .inl rfl
theorem Row.decoderTotals (bundle : Fin 131) (corrected : Nat) (received : Nat) : Row.Statement (.decoderTotals bundle corrected received) := fun _ => .inl rfl
theorem Row.ringLockLost (q : Fin 41) (src : Fin 41) (wg : Fin 60) : Row.Statement (.ringLockLost q src wg) := fun _ => .inl rfl
theorem Row.ringLockReacquired (q : Fin 41) (src : Fin 41) (wg : Fin 60) : Row.Statement (.ringLockReacquired q src wg) := fun _ => .inl rfl
theorem Row.rateDetectorTrip (q : Fin 41) : Row.Statement (.rateDetectorTrip q) := fun _ => .inl rfl
theorem Row.fadeSample (n : Fin 26) (lines : List Int) : Row.Statement (.fadeSample n lines) := fun _ => .inl rfl
theorem Row.spareReservation : Row.Statement (.spareReservation) := fun _ => .inl rfl
theorem Row.spareWarmed (n : Fin 26) : Row.Statement (.spareWarmed n) := fun _ => .inl rfl
theorem Row.spareLocked (n : Fin 26) : Row.Statement (.spareLocked n) := fun _ => .inl rfl
theorem Row.spareLockTimeout (n : Fin 26) : Row.Statement (.spareLockTimeout n) := fun _ => .inl rfl
theorem Row.sourceFailed (n : Fin 26) : Row.Statement (.sourceFailed n) := fun _ => .inl rfl
theorem Row.preheatNow : Row.Statement (.preheatNow) := fun _ => .inl rfl
theorem Row.cartridgeInterlockOpen (value : BitVec 16) : Row.Statement (.cartridgeInterlockOpen value) := fun _ => .inl rfl
theorem Row.fibrePortOpen (port : Fin 10) : Row.Statement (.fibrePortOpen port) := fun _ => .inl rfl
theorem Row.probeBurst (port : Fin 10) : Row.Statement (.probeBurst port) := fun _ => .inl rfl
theorem Row.fibrePortRestored (port : Fin 10) : Row.Statement (.fibrePortRestored port) := fun _ => .inl rfl
theorem Row.clean (die : Fin 24) (all : Bool) (incl : Bool) : Row.Statement (.clean die all incl) := fun _ => .inl rfl
theorem Row.inval (die : Fin 24) (all : Bool) (incl : Bool) : Row.Statement (.inval die all incl) := fun _ => .inl rfl
theorem Row.cleanInval (die : Fin 24) (all : Bool) (incl : Bool) : Row.Statement (.cleanInval die all incl) := fun _ => .inl rfl
theorem Row.unmoor (die : Fin 24) (all : Bool) (incl : Bool) : Row.Statement (.unmoor die all incl) := fun _ => .inl rfl
theorem Row.tplMaintDone (die : Fin 24) : Row.Statement (.tplMaintDone die) := fun _ => .inl rfl
theorem Row.tidepoolFill (die : Fin 24) (line : BitVec 32) : Row.Statement (.tidepoolFill die line) := fun _ => .inl rfl
theorem Row.couplerQuickScan (die : Fin 24) (up : List (Fin 544)) (dn : List (Fin 544)) : Row.Statement (.couplerQuickScan die up dn) := fun _ => .inl rfl
theorem Row.couplerFullLaneTest (die : Fin 24) (up : List (Fin 544)) (dn : List (Fin 544)) (offs : List (Fin 2048 × BitVec 6)) : Row.Statement (.couplerFullLaneTest die up dn offs) := fun _ => .inl rfl
theorem Row.rd (k : Fin 16) : Row.Statement (.rd k) := fun _ => .inl rfl
theorem Row.wr (k : Fin 16) : Row.Statement (.wr k) := fun _ => .inl rfl
theorem Row.rdata (q : Fin 41) : Row.Statement (.rdata q) := fun _ => .inl rfl
theorem Row.wack (q : Fin 41) : Row.Statement (.wack q) := fun _ => .inl rfl
theorem Row.kvcmd (k : Fin 16) : Row.Statement (.kvcmd k) := fun _ => .inl rfl
theorem Row.kvExecute (k : Fin 16) (q : Fin 24) (rid : BitVec 12) : Row.Statement (.kvExecute k q rid) := fun _ => .inl rfl
theorem Row.kvdone (q : Fin 24) : Row.Statement (.kvdone q) := fun _ => .inl rfl
theorem Row.readReturnStart (k : Fin 16) (q : Fin 41) (rid : BitVec 12) : Row.Statement (.readReturnStart k q rid) := fun _ => .inl rfl
theorem Row.memoryRequestTimeout (q : Fin 41) (k : Fin 16) (rid : BitVec 12) : Row.Statement (.memoryRequestTimeout q k rid) := fun _ => .inl rfl
theorem Row.scrubRead (k : Fin 16) : Row.Statement (.scrubRead k) := fun _ => .inl rfl
theorem Row.dieRequest (master : Master) (station : BitVec 8) (hold : Bool) (lines : List (BitVec 32)) : Row.Statement (.dieRequest master station hold lines) := fun _ => .inl rfl
theorem Row.headlandDieRelease (die : Fin 24) (fuses : Bool) : Row.Statement (.headlandDieRelease die fuses) := fun _ => .inl rfl
theorem Row.shingleDieRelease (k : Fin 16) : Row.Statement (.shingleDieRelease k) := fun _ => .inl rfl
theorem Row.dieHoldClear (master : Master) : Row.Statement (.dieHoldClear master) := fun _ => .inl rfl
theorem Row.slice : Row.Statement (.slice) := fun _ => .inl rfl
theorem Row.tree : Row.Statement (.tree) := fun _ => .inl rfl
theorem Row.samplerStepClose (n : Fin 64) : Row.Statement (.samplerStepClose n) := fun _ => .inl rfl
theorem Row.samplerStepTimeout (n : Fin 64) : Row.Statement (.samplerStepTimeout n) := fun _ => .inl rfl
theorem Row.tokenRecordWrite (n : Fin 64) : Row.Statement (.tokenRecordWrite n) := fun _ => .inl rfl
theorem Row.streamEnable (master : Master) (n : Fin 64) : Row.Statement (.streamEnable master n) := fun _ => .inl rfl
theorem Row.streamDisable (master : Master) (n : Fin 64) : Row.Statement (.streamDisable master n) := fun _ => .inl rfl
theorem Row.ld (plane : Fin 8) (pkt : List (BitVec 8)) : Row.Statement (.ld plane pkt) := fun _ => .inl rfl
theorem Row.st (plane : Fin 8) (pkt : List (BitVec 8)) : Row.Statement (.st plane pkt) := fun _ => .inl rfl
theorem Row.atom (plane : Fin 8) (pkt : List (BitVec 8)) : Row.Statement (.atom plane pkt) := fun _ => .inl rfl
theorem Row.ldr (plane : Fin 8) (pkt : List (BitVec 8)) : Row.Statement (.ldr plane pkt) := fun _ => .inl rfl
theorem Row.sta (plane : Fin 8) (pkt : List (BitVec 8)) : Row.Statement (.sta plane pkt) := fun _ => .inl rfl
theorem Row.atomr (plane : Fin 8) (pkt : List (BitVec 8)) : Row.Statement (.atomr plane pkt) := fun _ => .inl rfl
theorem Row.planeState (plane : Fin 8) (pkt : List (BitVec 8)) : Row.Statement (.planeState plane pkt) := fun _ => .inl rfl
theorem Row.nodeState (plane : Fin 8) (pkt : List (BitVec 8)) : Row.Statement (.nodeState plane pkt) := fun _ => .inl rfl
theorem Row.teardown (plane : Fin 8) (pkt : List (BitVec 8)) : Row.Statement (.teardown plane pkt) := fun _ => .inl rfl
theorem Row.flowClose (plane : Fin 8) (pkt : List (BitVec 8)) : Row.Statement (.flowClose plane pkt) := fun _ => .inl rfl
theorem Row.fabricPacketSend (plane : Fin 8) : Row.Statement (.fabricPacketSend plane) := fun _ => .inl rfl
theorem Row.creditReturn (plane : Fin 8) (vc : Fin 4) (inward : Bool) : Row.Statement (.creditReturn plane vc inward) := fun _ => .inl rfl
theorem Row.fabricPortDown (plane : Fin 8) (opened : Bool) : Row.Statement (.fabricPortDown plane opened) := fun _ => .inl rfl
theorem Row.fabricPortUp (plane : Fin 8) (credits : List Nat) : Row.Statement (.fabricPortUp plane credits) := fun _ => .inl rfl
theorem Row.detour (flow : Fin 4096) : Row.Statement (.detour flow) := fun _ => .inl rfl
theorem Row.attemptTimeout (flow : Fin 4096) : Row.Statement (.attemptTimeout flow) := fun _ => .inl rfl
theorem Row.flowReturn (flow : Fin 4096) : Row.Statement (.flowReturn flow) := fun _ => .inl rfl
theorem Row.flowOpen (flow : Fin 4096) (master : Master) (rank : BitVec 8) (home : Fin 8) : Row.Statement (.flowOpen flow master rank home) := fun _ => .inl rfl
theorem Row.flowCloseRequest (flow : Fin 4096) (master : Master) : Row.Statement (.flowCloseRequest flow master) := fun _ => .inl rfl
theorem Row.returnHome (flow : Fin 4096) (master : Master) : Row.Statement (.returnHome flow master) := fun _ => .inl rfl
theorem Row.planeDisable (plane : Fin 8) (master : Master) (disable : Bool) : Row.Statement (.planeDisable plane master disable) := fun _ => .inl rfl
theorem Row.fabDirectLoad (master : Master) (node : Fin 64) (len : BitVec 9) (off : BitVec 46) (buf : BitVec 41) : Row.Statement (.fabDirectLoad master node len off buf) := fun _ => .inl rfl
theorem Row.fabDirectStore (master : Master) (node : Fin 64) (len : BitVec 9) (off : BitVec 46) (buf : BitVec 41) : Row.Statement (.fabDirectStore master node len off buf) := fun _ => .inl rfl
theorem Row.fabDirectAtomic (master : Master) (node : Fin 64) (aop : BitVec 3) (w64 : Bool) (off : BitVec 46) (buf : BitVec 41) : Row.Statement (.fabDirectAtomic master node aop w64 off buf) := fun _ => .inl rfl
theorem Row.quietEnd : Row.Statement (.quietEnd) := fun _ => .inl rfl
theorem Row.squallStart (master : Master) (target : BitVec 2) (ports : BitVec 8) (duration : BitVec 16) : Row.Statement (.squallStart master target ports duration) := fun _ => .inl rfl
theorem Row.squallEnd (master : Option Master) : Row.Statement (.squallEnd master) := fun _ => .inl rfl
theorem Row.squallReorderRelease (plane : Fin 10) : Row.Statement (.squallReorderRelease plane) := fun _ => .inl rfl
theorem Row.portReset (port : Fin 2) (down : Bool) : Row.Statement (.portReset port down) := fun _ => .inl rfl
theorem Row.bar2Read (port : Fin 2) (off : BitVec 41) (len : Nat) : Row.Statement (.bar2Read port off len) := fun _ => .inl rfl
theorem Row.bar2Write (port : Fin 2) (off : BitVec 41) (data : List (BitVec 8)) (ep : Bool) : Row.Statement (.bar2Write port off data ep) := fun _ => .inl rfl
theorem Row.msixUnmask (port : Fin 2) (vector : Option (BitVec 8)) : Row.Statement (.msixUnmask port vector) := fun _ => .inl rfl
theorem Row.claim (port : Fin 2) : Row.Statement (.claim port) := fun _ => .inl rfl
theorem Row.release (port : Fin 2) : Row.Statement (.release port) := fun _ => .inl rfl
theorem Row.takeover (port : Fin 2) : Row.Statement (.takeover port) := fun _ => .inl rfl
theorem Row.ferryEnable (ch : Fin 32) (master : Master) : Row.Statement (.ferryEnable ch master) := fun _ => .inl rfl
theorem Row.ferryDisable (ch : Fin 32) (master : Master) : Row.Statement (.ferryDisable ch master) := fun _ => .inl rfl
theorem Row.ferryOwnerWrite (ch : Fin 32) (master : Master) (owner : BitVec 6) : Row.Statement (.ferryOwnerWrite ch master owner) := fun _ => .inl rfl
theorem Row.ferryDoorbell (ch : Fin 32) (master : Master) (bar4 : Bool) (tail : BitVec 16) : Row.Statement (.ferryDoorbell ch master bar4 tail) := fun _ => .inl rfl
theorem Row.ferryTimer (ch : Fin 32) : Row.Statement (.ferryTimer ch) := fun _ => .inl rfl
theorem Row.descriptorStart (ch : Fin 32) : Row.Statement (.descriptorStart ch) := fun _ => .inl rfl
theorem Row.burstStart : Row.Statement (.burstStart) := fun _ => .inl rfl
theorem Row.burstDone (ch : Fin 32) (second : Bool) (data : List (BitVec 8)) (ep : Bool) : Row.Statement (.burstDone ch second data ep) := fun _ => .inl rfl
theorem Row.ferryReadTimeout (ch : Fin 32) (second : Bool) : Row.Statement (.ferryReadTimeout ch second) := fun _ => .inl rfl
theorem Row.descriptorComplete (ch : Fin 32) : Row.Statement (.descriptorComplete ch) := fun _ => .inl rfl
theorem Row.ferryRecordRelease (ch : Fin 32) : Row.Statement (.ferryRecordRelease ch) := fun _ => .inl rfl
theorem Row.ringEnable (h : Fin 2) (n : Fin 64) : Row.Statement (.ringEnable h n) := fun _ => .inl rfl
theorem Row.ringDisable (h : Fin 2) (n : Fin 64) : Row.Statement (.ringDisable h n) := fun _ => .inl rfl
theorem Row.ringDoorbell (h : Fin 2) (n : Fin 64) (whole : Bool) (data : W64) : Row.Statement (.ringDoorbell h n whole data) := fun _ => .inl rfl
theorem Row.submissionTake (ring : Fin 128) : Row.Statement (.submissionTake ring) := fun _ => .inl rfl
theorem Row.ringNop (ring : Fin 128) : Row.Statement (.ringNop ring) := fun _ => .inl rfl
theorem Row.launch (ring : Fin 128) : Row.Statement (.launch ring) := fun _ => .inl rfl
theorem Row.jobComplete (n : Nat) : Row.Statement (.jobComplete n) := fun _ => .inl rfl
theorem Row.streamStart (ring : Fin 128) : Row.Statement (.streamStart ring) := fun _ => .inl rfl
theorem Row.streamStop (ring : Fin 128) : Row.Statement (.streamStop ring) := fun _ => .inl rfl
theorem Row.completionPost (ring : Fin 128) : Row.Statement (.completionPost ring) := fun _ => .inl rfl
theorem Row.snapshotWrite (ring : Fin 128) : Row.Statement (.snapshotWrite ring) := fun _ => .inl rfl
theorem Row.heartbeatRead (ring : Fin 128) : Row.Statement (.heartbeatRead ring) := fun _ => .inl rfl
theorem Row.reclaim (ring : Fin 128) : Row.Statement (.reclaim ring) := fun _ => .inl rfl
theorem Row.discard (ring : Fin 128) : Row.Statement (.discard ring) := fun _ => .inl rfl
theorem Row.doldrumsAutoEntry : Row.Statement (.doldrumsAutoEntry) := fun _ => .inl rfl
theorem Row.mailboxSend (c : Fin 64) (master : Master) (whole : Bool) (data : W64) : Row.Statement (.mailboxSend c master whole data) := fun _ => .inl rfl
theorem Row.mailboxTake (c : Fin 64) (master : Master) (whole : Bool) : Row.Statement (.mailboxTake c master whole) := fun _ => .inl rfl
theorem Row.mailboxLock (master : Master) : Row.Statement (.mailboxLock master) := fun _ => .inl rfl
theorem Row.bootRom (a : Bool) (b : Bool) (post : Post) : Row.Statement (.bootRom a b post) := fun _ => .inl rfl
theorem Row.runtimeLoad (master : Master) : Row.Statement (.runtimeLoad master) := fun _ => .inl rfl
theorem Row.runtimeLoadComplete (c : Crypto) : Row.Statement (.runtimeLoadComplete c) := fun _ => .inl rfl
theorem Row.watchdogFire (core : Fin 8) : Row.Statement (.watchdogFire core) := fun _ => .inl rfl
theorem Row.coreFatalStop (core : Fin 8) (mem : Bool) : Row.Statement (.coreFatalStop core mem) := fun _ => .inl rfl
theorem Row.workerRestart (image : Bool) : Row.Statement (.workerRestart image) := fun _ => .inl rfl
theorem Row.workerCatchUp (worker : Fin 6) : Row.Statement (.workerCatchUp worker) := fun _ => .inl rfl
theorem Row.supervisorRestart : Row.Statement (.supervisorRestart) := fun _ => .inl rfl
theorem Row.jobPark : Row.Statement (.jobPark) := fun _ => .inl rfl
theorem Row.corePllUnlock (q : Fin 41) (lines : List (BitVec 32)) : Row.Statement (.corePllUnlock q lines) := fun _ => .inl rfl
theorem Row.serializerPllUnlock (q : Fin 41) (hbm : Bool) : Row.Statement (.serializerPllUnlock q hbm) := fun _ => .inl rfl
theorem Row.pllRelock (q : Fin 41) : Row.Statement (.pllRelock q) := fun _ => .inl rfl
theorem Row.droopStretch (die : Fin 24) (region : Fin 4) : Row.Statement (.droopStretch die region) := fun _ => .inl rfl
theorem Row.powerSample (volts : BitVec 16) (amps : BitVec 16) : Row.Statement (.powerSample volts amps) := fun _ => .inl rfl
theorem Row.busVoltageExcursion (volts : BitVec 16) (us : Nat) : Row.Statement (.busVoltageExcursion volts us) := fun _ => .inl rfl
theorem Row.doldrumsRequest (master : Master) : Row.Statement (.doldrumsRequest master) := fun _ => .inl rfl
theorem Row.becalmedRequest (master : Master) : Row.Statement (.becalmedRequest master) := fun _ => .inl rfl
theorem Row.wakeRequest (master : Master) : Row.Statement (.wakeRequest master) := fun _ => .inl rfl
theorem Row.lowPowerEntry : Row.Statement (.lowPowerEntry) := fun _ => .inl rfl
theorem Row.lowPowerExit : Row.Statement (.lowPowerExit) := fun _ => .inl rfl
theorem Row.sensorSample (die : Fin 66) (temps : List Nat) (ring : Nat) : Row.Statement (.sensorSample die temps ring) := fun _ => .inl rfl
theorem Row.statusWord (pec : Bool) : Row.Statement (.statusWord pec) := fun _ => .inl rfl
theorem Row.busVoltageRead (pec : Bool) : Row.Statement (.busVoltageRead pec) := fun _ => .inl rfl
theorem Row.inputCurrentRead (pec : Bool) : Row.Statement (.inputCurrentRead pec) := fun _ => .inl rfl
theorem Row.inputPowerRead (pec : Bool) : Row.Statement (.inputPowerRead pec) := fun _ => .inl rfl
theorem Row.headlandTemperatureRead (pec : Bool) : Row.Statement (.headlandTemperatureRead pec) := fun _ => .inl rfl
theorem Row.stackTemperatureRead (pec : Bool) : Row.Statement (.stackTemperatureRead pec) := fun _ => .inl rfl
theorem Row.harbourTemperatureRead (pec : Bool) : Row.Statement (.harbourTemperatureRead pec) := fun _ => .inl rfl
theorem Row.laserTemperatureRead (pec : Bool) : Row.Statement (.laserTemperatureRead pec) := fun _ => .inl rfl
theorem Row.stationTemperaturesRead (pec : Bool) : Row.Statement (.stationTemperaturesRead pec) := fun _ => .inl rfl
theorem Row.throttleRead (pec : Bool) : Row.Statement (.throttleRead pec) := fun _ => .inl rfl
theorem Row.moduleIdRead (pec : Bool) : Row.Statement (.moduleIdRead pec) := fun _ => .inl rfl
theorem Row.smbusWake : Row.Statement (.smbusWake) := fun _ => .inl rfl
theorem Row.strandlineSummary (pec : Bool) : Row.Statement (.strandlineSummary pec) := fun _ => .inl rfl
theorem Row.entryPointer (seq : BitVec 32) : Row.Statement (.entryPointer seq) := fun _ => .inl rfl
theorem Row.entryRead (pec : Bool) : Row.Statement (.entryRead pec) := fun _ => .inl rfl
theorem Row.signatureRead (pec : Bool) : Row.Statement (.signatureRead pec) := fun _ => .inl rfl
theorem Row.faultEvent (src : FaultSrc) : Row.Statement (.faultEvent src) := fun _ => .inl rfl
theorem Row.faultWindowClose (kind : BitVec 8) (station : Fin 41) (unit : BitVec 16) : Row.Statement (.faultWindowClose kind station unit) := fun _ => .inl rfl
theorem Row.recordForward (level : Fin 5) (station : Fin 41) (child : Fin 256) : Row.Statement (.recordForward level station child) := fun _ => .inl rfl
theorem Row.breakwaterTrip (cause : BitVec 4) (votes : BitVec 3) (station : BitVec 8) (value : BitVec 16) (us : Nat) : Row.Statement (.breakwaterTrip cause votes station value us) := fun _ => .inl rfl
theorem Row.breakwaterDisagreement (ch : Fin 3) (value : BitVec 16) : Row.Statement (.breakwaterDisagreement ch value) := fun _ => .inl rfl
theorem Row.bwtTighten (master : Master) (hdl : BitVec 8) (hbm : BitVec 8) (hrb : BitVec 8) (cur : BitVec 8) : Row.Statement (.bwtTighten master hdl hbm hrb cur) := fun _ => .inl rfl
theorem Row.tripAcknowledge (master : Master) : Row.Statement (.tripAcknowledge master) := fun _ => .inl rfl
theorem Row.faultInject (master : Master) (kind : BitVec 8) (station : BitVec 8) (unit : BitVec 16) (cls : BitVec 2) (ch : BitVec 3) (go : Bool) : Row.Statement (.faultInject master kind station unit cls ch go) := fun _ => .inl rfl
theorem Row.moduleReset : Row.Statement (.moduleReset) := fun _ => .inl rfl
theorem Row.modRequest (master : Master) (key : BitVec 8) : Row.Statement (.modRequest master key) := fun _ => .inl rfl
theorem Row.moduleResetRelease (a : Bool) (b : Bool) (post : Post) : Row.Statement (.moduleResetRelease a b post) := fun _ => .inl rfl
theorem Row.powerOn (addrSel : Bool) : Row.Statement (.powerOn addrSel) := fun _ => .inl rfl
theorem Row.powerLoss (torn : Bool) : Row.Statement (.powerLoss torn) := fun _ => .inl rfl
theorem Row.heartbeatSend : Row.Statement (.heartbeatSend) := fun _ => .inl rfl
theorem Row.heartbeat (h : TwinHdr) (want : BitVec 2) (ready : Bool) : Row.Statement (.heartbeat h want ready) := fun _ => .inl rfl
theorem Row.wantWrite (master : Master) (want : BitVec 2) : Row.Statement (.wantWrite master want) := fun _ => .inl rfl
theorem Row.delta (h : TwinHdr) (item : TwinItem) : Row.Statement (.delta h item) := fun _ => .inl rfl
theorem Row.bulk (h : TwinHdr) (item : TwinItem) : Row.Statement (.bulk h item) := fun _ => .inl rfl
theorem Row.ack (h : TwinHdr) : Row.Statement (.ack h) := fun _ => .inl rfl
theorem Row.trip (h : TwinHdr) : Row.Statement (.trip h) := fun _ => .inl rfl
theorem Row.health (h : TwinHdr) (worst : BitVec 2) (row : Fin 384) (hbm : BitVec 7) (tpl : BitVec 7) : Row.Statement (.health h worst row hbm tpl) := fun _ => .inl rfl
theorem Row.control (h : TwinHdr) (item : TwinItem) : Row.Statement (.control h item) := fun _ => .inl rfl
theorem Row.ackedSeqSend : Row.Statement (.ackedSeqSend) := fun _ => .inl rfl
theorem Row.frameResend (port : Fin 2) (dseq : BitVec 32) : Row.Statement (.frameResend port dseq) := fun _ => .inl rfl
theorem Row.twinPortDown (port : Fin 2) : Row.Statement (.twinPortDown port) := fun _ => .inl rfl
theorem Row.linkDownDeclaration : Row.Statement (.linkDownDeclaration) := fun _ => .inl rfl
theorem Row.arm (master : Master) : Row.Statement (.arm master) := fun _ => .inl rfl
theorem Row.armingComplete : Row.Statement (.armingComplete) := fun _ => .inl rfl
theorem Row.take (master : Master) : Row.Statement (.take master) := fun _ => .inl rfl
theorem Row.resume (master : Master) : Row.Statement (.resume master) := fun _ => .inl rfl
theorem Row.twinSwitchover : Row.Statement (.twinSwitchover) := fun _ => .inl rfl
theorem Row.handback (peerHold : Bool) : Row.Statement (.handback peerHold) := fun _ => .inl rfl
theorem Row.standbyBist (failed : List (Fin 16)) (tpl : BitVec 7) : Row.Statement (.standbyBist failed tpl) := fun _ => .inl rfl
theorem Row.attestRequest (master : Master) (addr : BitVec 41) : Row.Statement (.attestRequest master addr) := fun _ => .inl rfl
theorem Row.attestComplete : Row.Statement (.attestComplete) := fun _ => .inl rfl
theorem Row.cardInsertion (cid : Nat) (image : Option CardFile) (scripts : List CardFile) : Row.Statement (.cardInsertion cid image scripts) := fun _ => .inl rfl
theorem Row.cardRemoval (copying : Bool) : Row.Statement (.cardRemoval copying) := fun _ => .inl rfl
theorem Row.scriptRead : Row.Statement (.scriptRead) := fun _ => .inl rfl
theorem Row.scriptWrite : Row.Statement (.scriptWrite) := fun _ => .inl rfl
theorem Row.scriptAttest : Row.Statement (.scriptAttest) := fun _ => .inl rfl
theorem Row.scriptWipe : Row.Statement (.scriptWipe) := fun _ => .inl rfl
theorem Row.stldump : Row.Statement (.stldump) := fun _ => .inl rfl
theorem Row.scriptWait : Row.Statement (.scriptWait) := fun _ => .inl rfl
theorem Row.modreset : Row.Statement (.modreset) := fun _ => .inl rfl
theorem Row.scriptEnd : Row.Statement (.scriptEnd) := fun _ => .inl rfl
theorem Row.updateRequest (master : Master) (c : Crypto) : Row.Statement (.updateRequest master c) := fun _ => .inl rfl
theorem Row.updateReady : Row.Statement (.updateReady) := fun _ => .inl rfl
theorem Row.updateConfirm : Row.Statement (.updateConfirm) := fun _ => .inl rfl
theorem Row.updateRollback : Row.Statement (.updateRollback) := fun _ => .inl rfl
theorem Row.seal : Row.Statement (.seal) := fun _ => .inl rfl
theorem Row.stlSeal (master : Master) : Row.Statement (.stlSeal master) := fun _ => .inl rfl
theorem Row.wipeRequest (master : Master) (key : BitVec 8) : Row.Statement (.wipeRequest master key) := fun _ => .inl rfl
theorem Row.handoverWipe : Row.Statement (.handoverWipe) := fun _ => .inl rfl
theorem Row.portLinkUp (port : Fin 2) (speed : BitVec 3) (width : BitVec 5) (flit : Bool) : Row.Statement (.portLinkUp port speed width flit) := fun _ => .inl rfl
theorem Row.cartridgeInsertion (serial : BitVec 32) (rev : BitVec 8) : Row.Statement (.cartridgeInsertion serial rev) := fun _ => .inl rfl
theorem Row.supervisorRestartComplete : Row.Statement (.supervisorRestartComplete) := fun _ => .inl rfl
theorem Row.sealSignatureDone : Row.Statement (.sealSignatureDone) := fun _ => .inl rfl
theorem Row.tidepoolLineScrub (die : Fin 24) (line : BitVec 32) : Row.Statement (.tidepoolLineScrub die line) := fun _ => .inl rfl
theorem Row.heartbeatIntervalMissed (port : Fin 2) : Row.Statement (.heartbeatIntervalMissed port) := fun _ => .inl rfl

end Sys2Proof.Laws
end

