-- ==== Sys2Proof/Tests/Slice0.lean ====
section
/-! SUPPORT. Tests of the model, and for the statements states and operands that meet their hypotheses. Expected results
are taken from the spec's text, tables and worked examples, as each test says. -/
namespace Sys2Proof.Machine.Tests
open Sys2Proof Sys2Proof.Machine
set_option Elab.async false

/-- Tile 0 of Headland die 0, in cycle 0 and in a later cycle. -/
def pt0 : At := ⟨0, 0, 0⟩
def ptc (c : Nat) : At := ⟨0, 0, c⟩
def ptL : At := ⟨23, 255, 9⟩
def s0 : State := State.reset
/-- Reset with another tile 0. -/
def onT (t : Tile) : State := { s0 with tiles := [(0, t)] }
/-- Reset with register fields written. -/
def regsOf (l : List (Fld × Nat × Nat)) : State := l.foldl (fun s x => s.wr x.1 x.2.1 x.2.2) s0
/-- Reset with every capability enabled. -/
def sCap : State := regsOf [(GLB_CAPS_ENABLED, 0, 0xFF)]

/-! ### Witnesses: tiles -/

theorem wit_quiet : (s0.here pt0).quiet = true ∧ (s0.here ptL).quiet = true := by decide +kernel
theorem wit_scalar : (s0.here pt0).quiet = true ∧ (⟨1, 0, 63⟩ : SI).imm.toNat < 64
    ∧ (∀ c ∈ [0, 1, 2, 3, 16, 31], ∃ o : SC, o.sa = 0 ∧ o.sd = 0 ∧ o.cr.toNat = c ∧ (c ≤ 3 ∨ 16 ≤ o.cr.toNat)) := by
  refine ⟨by decide +kernel, by decide, ?_⟩
  intro c hc
  refine ⟨⟨0, 0, BitVec.ofNat 5 c⟩, rfl, rfl, ?_⟩
  revert c; decide
theorem wit_lanes : (∀ f ∈ ([.viadd, .visub, .vimul, .vand, .vor, .vxor, .vshl, .vshr, .vsra, .vimin, .vimax, .vperm, .vsel]
      : List (At → VR → Instr)), Legal s0 (f pt0 ⟨1, 0, 2, 3, 0, 0, 0, 0⟩))
    ∧ Legal s0 (.viadds pt0 ⟨1, 0, 2, 3, 0, 0, 0, 0⟩) ∧ Legal s0 (.vmovi pt0 ⟨1, 0, 0, 0, 5⟩)
    ∧ Legal s0 (.vcmpr pt0 ⟨1, 0, 2, 0, 7, 0, 0, 0⟩) ∧ Legal s0 (.pcnt pt0 ⟨1, 0, 7, 0, 0, 0, 0, 0⟩)
    ∧ (∀ f ∈ ([.pand, .por, .pxor] : List (At → VP → Instr)), Legal s0 (f pt0 ⟨0, 0, 7, 7, 0, 0, 0, 0⟩))
    ∧ Legal s0 (.vcmp pt0 ⟨7, 1, 2, 3, 0, 0, 0, 14⟩) := by unfold Legal; decide +kernel
theorem wit_float : (∀ f ∈ ([.vadd, .vsub, .vmul, .vfma, .vmin, .vmax, .vabs, .vneg, .vrcp, .vsqrt, .vrsq, .vexp2, .vlog2, .vexd]
      : List (At → VR → Instr)), ∀ fmt ∈ [0, 1, 2], Legal s0 (f pt0 ⟨1, 0, 2, 0, 0, BitVec.ofNat 4 fmt, 0, 0⟩))
    ∧ (∀ f ∈ ([.vadds, .vmuls, .vfmas, .vmaxs] : List (At → VS → Instr)), Legal s0 (f pt0 ⟨1, 0, 2, 3, 0, 2, 0, 0⟩)) := by unfold Legal; decide +kernel
theorem wit_conversions : Legal s0 (.vcvt pt0 ⟨1, 0, 2, 0, 0, 0, 0, 0x73⟩) = False ∧ Legal s0 (.vcvt pt0 ⟨1, 0, 2, 0, 0, 0, 0, 0x33⟩)
    ∧ Legal s0 (.vcvtx pt0 ⟨1, 0, 2, 0, 3, 0, 0, 0x33⟩) ∧ Legal s0 (.vcvtx pt0 ⟨1, 0, 2, 0, 1, 2, 0, 0x17⟩)
    ∧ ((s0.here pt0).env 0).md ≠ .sr := by
  refine ⟨?_, ?_⟩
  · apply eq_false; unfold Legal; decide +kernel
  · unfold Legal; decide +kernel
theorem wit_reductions : Legal s0 (.vrsum pt0 ⟨1, 0, 2, 0, 0, 1, 7, 0⟩) ∧ Legal s0 (.vrmax pt0 ⟨1, 0, 2, 0, 0, 0, 0, 0⟩)
    ∧ Legal s0 (.vrmin pt0 ⟨1, 0, 2, 0, 0, 2, 0, 1⟩) ∧ elemOn ((s0.here pt0).rdP 0) 32 63 = true := by unfold Legal; decide +kernel
theorem wit_merge : Legal s0 (.vbmrg pt0 ⟨1, 0, 2, 3, 4, 0, 0, 0x0D⟩) ∧ Legal s0 (.vbmrg pt0 ⟨1, 0, 2, 3, 4, 0, 0, 0x30⟩) := by unfold Legal; decide +kernel

/-- An address register at the last byte of the tile store, and one beyond it. -/
def tAddr : Tile := { Tile.reset with s := [(1, 0xFFFFF), (2, 0x100000)] }
theorem wit_vectorMemory : ((onT tAddr).here pt0).quiet = true ∧ ((onT tAddr).here pt0).ecc = []
    ∧ (((onT tAddr).here pt0).rdS 1).toNat / 32 * 32 < 1048576 ∧ 1048576 ≤ (((onT tAddr).here pt0).rdS 2).toNat / 32 * 32
    ∧ ((onT { tAddr with ecc := [(0, 2)] }).here pt0).quiet = true
    ∧ eccIn ((onT { tAddr with ecc := [(0, 2)] }).here pt0).ecc 2 0 256 = true := by decide +kernel
def maOf (acc : Bool) : MA := ⟨0, 0, 3, 3, 2, 1, 3, 0, acc, false, false, false, false⟩
theorem wit_matrix : (∀ f ∈ ([.mma, .mmar] : List (At → MA → Instr)), ∀ a ∈ [true, false], Legal s0 (f pt0 (maOf a)))
    ∧ Legal sCap (.mma pt0 { maOf true with cmp := true, wf := 10, xf := 3 })
    ∧ ((s0.here pt0).rdS 3).toNat % 1024 = 0
    ∧ ((onT { tAddr with s := [(2, 0x100000), (3, 1)] }).here pt0).quiet = true
    ∧ ((onT { tAddr with s := [(2, 0x100000), (3, 1)] }).here pt0).rdS 3 = 1
    ∧ 1048576 ≤ (((onT { tAddr with s := [(2, 0x100000), (3, 1)] }).here pt0).rdS 2).toNat / 32 * 32 := by unfold Legal; decide +kernel
/-- The matrix operation that MMA puts into an idle engine. -/
def tMat : Tile := ((match execMma pt0 (maOf false) s0 with | .next t => t | _ => s0).here pt0)
theorem wit_matrixEngine : ∃ m, tMat.mats = [m] ∧ ({ tMat with mats := [] } : Tile).quiet = true ∧ m.first = 8 ∧ 0 < m.cycles
    ∧ m.latched = [] ∧ m.clear = m.first + m.cycles + 13 ∧ m.nch = 0 ∧ m.o.acc = false ∧ m.badAddr = none := by
  refine ⟨tMat.mats.headD ⟨false, maOf false, 0, 0, 0, 0, 0, 0, 0, false, [], [], []⟩, ?_⟩
  decide +kernel
theorem wit_accumulators : Legal s0 (.mrd pt0 ⟨0, 1, 15, 0, 0, false⟩) ∧ Legal s0 (.mrd pt0 ⟨3, 1, 7, 2, 0, false⟩)
    ∧ Legal s0 (.mwr pt0 ⟨3, 1, 15, 0, 0, false⟩) ∧ ((onT tAddr).here pt0).ecc = [] ∧ ((onT tAddr).here pt0).quiet = true := by unfold Legal; decide +kernel
theorem wit_results : ({ (onT { Tile.reset with pend := [⟨0, 0, 1, .s 1 5⟩] }).here pt0 with pend := [] } : Tile).quiet = true
    ∧ ({ (onT { Tile.reset with delayed := [.vld 0 0 1 1] }).here (ptc 8) with delayed := [] } : Tile).quiet = true
    ∧ ({ (onT { Tile.reset with delayed := [.cbld 0 0 3] }).here (ptc 0) with delayed := [] } : Tile).quiet = true := by decide +kernel

theorem wit_branches : (∀ c ∈ [0, 1, 2, 3, 4, 5, 6], Legal s0 (.brc pt0 ⟨BitVec.ofNat 3 c, 0, 4095⟩))
    ∧ ((s0.die 0).epoch = ((s0.here pt0).rdS 0).toNat % 65536) ∧ ((onT tAddr).die 0).epoch ≠ (((onT tAddr).here pt0).rdS 1).toNat % 65536 := by unfold Legal; decide +kernel
/-- A loop nested in another, each state of the stack rule, and the two kinds of LOOP. -/
def tLoop : Tile := { Tile.reset with pc := 5, loops := [⟨3, 9, 2⟩, ⟨1, 12, 4⟩] }
theorem wit_loops : ((onT tLoop).here pt0).quiet = true
    ∧ (let T := ((onT tLoop).here pt0).settle 0
       ¬((9 : BitVec 12).toNat < T.pc.toNat + 1 ∨ 4 ≤ T.loops.length ∨ (∃ e ∈ T.loops, e.fin < (9 : BitVec 12).toNat ∨ e.fin = T.pc.toNat))
       ∧ (5 : BitVec 12).toNat < T.pc.toNat + 1) := by decide +kernel

/-! ### Witnesses: waits, barriers, bundles and moves -/

/-- Reset with a tile 0, a die 0 and register fields. -/
def st0 (t : Tile) (d : Die) (l : List (Fld × Nat × Nat)) : State := { regsOf l with tiles := [(0, t)], dies := [(0, d)] }
theorem wit_waits : Legal s0 (.waitc pt0 ⟨15, true, 31⟩) ∧ Legal s0 (.waitc pt0 ⟨0, false, 0xFFFFF⟩) ∧ Legal s0 (.fence pt0 ⟨0, 63⟩)
    ∧ ((s0.region 0).tick = ((s0.here pt0).rdS 0 + (0 : BitVec 20).signExtend 64).toNat ∧ (ptc 0).cyc = (s0.region 0).tick0)
    ∧ ((s0.region 0).tick < ((s0.here pt0).rdS 0 + (1 : BitVec 20).signExtend 64).toNat)
    ∧ (((s0.setRegion 0 { Region.reset with tick := 2 }).here pt0).rdS 0 + (0 : BitVec 20).signExtend 64).toNat + 1
        < ((s0.setRegion 0 { Region.reset with tick := 2 }).region 0).tick := by unfold Legal; decide +kernel
/-- Every other tile of die 0 has ended. -/
def sEnd : State :=
  { s0 with dies := [(0, { Die.reset with running := true })], tiles := (List.range 255).map fun k => (k + 1, { Tile.reset with issue := .ended }) }
theorem wit_end : (sEnd.here pt0).quiet = true ∧ (sEnd.die 0).running = true ∧ (∀ k, k < 256 → k ≠ 0 → (sEnd.tile k).issue = .ended)
    ∧ (s0.die 0).running = false := by decide +kernel
theorem wit_fence : ((onT { Tile.reset with fences := [⟨3, 0, [], 4⟩] }).here (ptc 1)).quiet = true ∧ 0 < (ptc 1).cyc := by decide +kernel
/-- Tiles 0 and 1 in barrier set 15 of die 0; tile 0 so many arrivals ahead. -/
def sBarr (n : Nat) : State := st0 { Tile.reset with barr := [(15, n)] } Die.reset [(HDL_BARSET_MEMBERS, 60, 3)]
theorem wit_barriers : (s0.members 0 15 = []) ∧ ((sBarr 1).isMember 0 15 2 = false ∧ (sBarr 1).members 0 15 ≠ [])
    ∧ ((sBarr 3).isMember 0 15 0 = true ∧ (sBarr 3).slowest 0 15 + 3 ≤ ((sBarr 3).here pt0).arrivals 15)
    ∧ ((sBarr 2).isMember 0 15 0 = true ∧ ((sBarr 2).here pt0).arrivals 15 < (sBarr 2).slowest 0 15 + 3)
    ∧ ((sBarr 2).here pt0).quiet = true := by decide +kernel
theorem wit_barrierRelease : (s0.setBarr 0 15 [⟨0, 0, 2⟩]).barr 0 15 = [⟨0, 0, 2⟩] ∧ 0 ≤ (s0.setBarr 0 15 [⟨0, 0, 2⟩]).slowest 0 15
    ∧ ((s0.setBarr 0 15 [⟨0, 0, 2⟩]).here pt0).quiet = true := by decide +kernel

/-- ADD with a shift count above 63, VADD with a reserved format, MRD with RM 5, TPLD with both hints, FENCE with bit 6. -/
theorem wit_bundleFault : (decodeControl pt0 (encodeControl (.fence pt0 ⟨0, 64⟩)) = some (.fence pt0 ⟨0, 64⟩, false))
    ∧ (decodeScalar pt0 (encodeScalar (.slli pt0 ⟨1, 1, 64⟩)) = some (.slli pt0 ⟨1, 1, 64⟩, false))
    ∧ (decodeVector pt0 (encodeVector (.vadd pt0 ⟨1, 0, 1, 1, 0, 3, 0, 0⟩)) = some (.vadd pt0 ⟨1, 0, 1, 1, 0, 3, 0, 0⟩, false))
    ∧ (decodeMatrix pt0 (encodeMatrix (.mrd pt0 ⟨0, 1, 0, 0, 5, false⟩)) = some (.mrd pt0 ⟨0, 1, 0, 0, 5, false⟩, false))
    ∧ (decodeMove pt0 (encodeMove (.tpld pt0 ⟨0, 0, 0, 0, 1, 3⟩)) = some (.tpld pt0 ⟨0, 0, 0, 0, 1, 3⟩, false))
    ∧ (∀ i ∈ ([.fence pt0 ⟨0, 64⟩, .slli pt0 ⟨1, 1, 64⟩, .vadd pt0 ⟨1, 0, 1, 1, 0, 3, 0, 0⟩, .mrd pt0 ⟨0, 1, 0, 0, 5, false⟩,
        .tpld pt0 ⟨0, 0, 0, 0, 1, 3⟩] : List Instr), i.cause s0.caps ≠ 0)
    ∧ s0.rd HDL_BFAULT_LOG_VALID 0 = 0 ∧ (regsOf [(HDL_BFAULT_LOG_COUNT, 0, 65534)]).rd HDL_BFAULT_LOG_COUNT 0 < 65535 := by
  decide +kernel
/-- A tile that issues; bundle 0 holds LOOPI, ADDI, and a WAITC for a count not reached, or nothing. -/
def tIssue (m : SMap W256) : Tile := { Tile.reset with issue := .issuing, ibuf := m }
def wLoop : W256 := joinBundle ⟨encodeControl (.loopi pt0 ⟨3, 9⟩), encodeScalar (.addi pt0 ⟨1, 0, 5⟩), 0, 0, 0⟩
def wWait : W256 := joinBundle ⟨encodeControl (.waitc pt0 ⟨0, false, 1⟩), 0, 0, 0, 0⟩
theorem wit_issue : (onT (tIssue [])).safe = false ∧ (onT (tIssue [])).idle = false
    ∧ ∀ m, ((onT (tIssue m)).here pt0).quiet = true ∧ ((onT (tIssue m)).here pt0).issue = .issuing
      ∧ ((onT (tIssue m)).here pt0).nextCyc = 0 ∧ ((onT (tIssue m)).here pt0).active = [] :=
  ⟨by decide +kernel, by decide +kernel, fun _ => ⟨rfl, rfl, rfl, rfl⟩⟩
theorem wit_issueLoop : let ds := decodeSlots pt0 0 wLoop
    ds.causes = [0, 0, 0, 0, 0] ∧ controlLoopCause (tIssue [(0, wLoop)]) ds.control = 0 ∧ controlReady (tIssue [(0, wLoop)]) (s0.region 0) 0 ds.control = true
       ∧ matrixReady (tIssue [(0, wLoop)]) 0 ds.matrix = true := by decide +kernel
theorem wit_issueWait : let ds := decodeSlots pt0 0 wWait
    ds.causes = [0, 0, 0, 0, 0] ∧ controlLoopCause (tIssue [(0, wWait)]) ds.control = 0
      ∧ (controlReady (tIssue [(0, wWait)]) (s0.region 0) 0 ds.control && matrixReady (tIssue [(0, wWait)]) 0 ds.matrix) = false := by decide +kernel
theorem wit_issueSlots : (decodeSlots pt0 0 wLoop).move = .nop pt0 ∧ (decodeSlots pt0 0 wLoop).control = .loopi pt0 ⟨3, 9⟩ := ⟨rfl, rfl⟩
theorem wit_issueEcc : eccIn [(4095 * 4, (2 : BitVec 2))] 1 (32 * 4095) 32 = false
    ∧ eccIn [(4095 * 4, (2 : BitVec 2))] 2 (32 * 4095) 32 = true := by decide +kernel

/-- A station table of a Headland with a memory-channel slot each way to stack 15. -/
def bufMem : Mem := memStore (memStore [] 0 (leBytes 8 (1 + 0x2F * 2 + 2 ^ 23))) 0x80000 (leBytes 4 (1 + 0x2F * 2 + 2 ^ 23))
def mvOf (len : BitVec 12) (osf : BitVec 25) : MV := ⟨2, 1, 2, 3, len, osf⟩
def cmd0 (kind : MvKind) (len : Nat) : MoveCmd := ⟨0, kind, 2, 0, 0, 0, len, 0⟩
theorem wit_moveQueue : (∀ f ∈ ([.tpld, .tpst, .msend, .hbrd, .hbwr, .ibld, .kvapp, .kvgth, .otxa, .orxa, .note, .fld, .fst, .fatm] : List (At → MV → Instr)),
      Legal s0 (f pt0 ⟨2, 1, 0, 3, 1, 0⟩)) ∧ Legal s0 (.kvbws pt0 ⟨2, 1, 2, 0, 0, 0⟩)
    ∧ (∀ n ∈ [1, 31, 32], ((onT { Tile.reset with queue := List.replicate n (cmd0 .tpld 0) }).here pt0).quiet = true)
    ∧ (∀ k ∈ [.tpld, .tpst, .hbrd, .hbwr, .ibld], ((onT { Tile.reset with queue := [cmd0 k 0] }).here (ptc 1)).lastStart < 1
      ∧ ((onT { Tile.reset with queue := [cmd0 k 0] }).here (ptc 1)).quiet = true)
    ∧ (ptc 1).cyc ≤ ((onT { Tile.reset with queue := [cmd0 .tpld 0], lastStart := 1 }).here (ptc 1)).lastStart
    ∧ (regsOf [(TPL_STATUS_STATE, 0, 3)]).poolUp 0 = true ∧ s0.poolUp 0 = false := by
  unfold Legal; decide +kernel
/-- An IBLD of one bundle and an HBRD of one unit of stack 15 in front of tile 0's queue; the Tidepool in retention. -/
theorem wit_moveStart : (let m := { cmd0 .ibld 1 with rb := 4095 }; 0 < m.len ∧ m.la.toNat < 1048576 ∧ m.la.toNat / 32 * 32 + 32 * m.len ≤ 1048576 ∧ m.rb.toNat % 4096 + m.len ≤ 4096
      ∧ ((onT { Tile.reset with queue := [m] }).here (ptc 1)).ecc = [] ∧ ((onT { Tile.reset with queue := [m] }).here (ptc 1)).quiet = true)
    ∧ (let m := { cmd0 .hbrd 1 with rb := 0x1E000000000 }; let s := (onT { Tile.reset with queue := [m] }).setStn 0 { Stn.reset with hasActive := true, bufA := bufMem }
      (s.here (ptc 1)).quiet = true ∧ paOk (m.rb.toNat / 32 * 32) 32 = true ∧ (s.shg 15).lost = false ∧ s.memSlots 0 15 = true ∧ s.portClear 0) := by
  unfold State.portClear; decide +kernel
theorem wit_moveCompletion : (∀ a ∈ ([⟨cmd0 .hbrd 1, 0, 0, 1, [], false⟩, ⟨cmd0 .hbrd 1, 0, 4, 0, [], false⟩,
      ⟨cmd0 .ibld 1, 0, 0, 0, List.replicate 32 7, false⟩] : List ActiveMove),
    ((onT { Tile.reset with active := [a] }).here pt0).quiet = true ∧ ((onT { Tile.reset with active := [a] }).here pt0).active = [a]) := by
  decide +kernel
/-- S1 = the last unit of the tile store, S2 = an address of HBM, S3 = a length of 0. -/
def tMove (pa : W64) : Tile := { Tile.reset with s := if pa = 0 then [(1, 0xFFFE0)] else [(1, 0xFFFE0), (2, pa)] }
theorem wit_moveLocal : ((onT (tMove 0)).here pt0).moveFree 0 = true ∧ Legal (onT (tMove 0)) (.tpld pt0 (mvOf 1 0))
    ∧ moveLen (tMove 0) (mvOf 0 0) = 0 ∧ moveLen (tMove 0) (mvOf 2 0) ≠ 0 ∧ ¬moveFits (tMove 0) (mvOf 2 0) ∧ moveFits (tMove 0) (mvOf 1 0) := by
  unfold Legal moveFits; decide +kernel
/-- Line 0 of die 0 present in its last sector. -/
def sLine : State := (st0 (tMove 0x1E0) Die.reset [(TPL_STATUS_STATE, 0, 3)]).setLine 0 0 { TLine.absent with valid := 0x8000, data := 5 }
theorem wit_tidepoolHit : (sLine.here pt0).moveFree 0 = true ∧ 0 < moveLen (sLine.here pt0) (mvOf 1 0) ∧ moveFits (sLine.here pt0) (mvOf 1 0)
    ∧ paOk 0x1E0 32 = true ∧ 0x1E0 / 32 % 16 + 1 ≤ 16 ∧ (sLine.line 0 0).err = 0 ∧ (sLine.line 0 0).poison = false
    ∧ (sLine.coupler 0).upsets = [] ∧ (sLine.here pt0).ecc = [] ∧ secMask 15 1 &&& ~~~(sLine.line 0 0).valid = 0 ∧ (sLine.line 0 0).valid ≠ 0
    ∧ sLine.poolUp 0 = true ∧ mvOf 1 0 = ⟨2, 1, 2, 3, 1, 0⟩ := by
  unfold moveFits; decide +kernel
/-- Tile 0 and die 0 with that table. -/
def sMem (t : Tile) (d : Die) : State := (st0 t d []).setStn 0 { Stn.reset with hasActive := true, bufA := bufMem }
theorem wit_hbmRequests : ((sMem (tMove 0x1E000000000) Die.reset).here pt0).moveFree 0 = true
    ∧ paOk 0x1E000000000 32 = true ∧ 0x1E000000000 / 2 ^ 37 % 16 = 15 ∧ ((sMem (tMove 0) Die.reset).shg 15).lost = false
    ∧ (sMem (tMove 0) Die.reset).memSlots 0 15 = true ∧ (sMem (tMove 0) Die.reset).memSlots 0 14 = false
    ∧ paOk (2 ^ 41) 32 = false ∧ moveFits (tMove 0x1E000000000) (mvOf 1 0) ∧ (sMem (tMove 0x1E000000000) Die.reset).portClear 0 := by unfold moveFits State.portClear; decide +kernel
theorem wit_mesh : linkTarget 0 0 = none ∧ linkTarget 0 2 = some 16 ∧ Legal s0 (.msend pt0 (mvOf 1 0)) ∧ Legal s0 (.msend pt0 (mvOf 1 2))
    ∧ ((tMove 0xFFFE0).rdS 2).toNat < 1048576 ∧ (0xFFFE0 / 32 * 32) + 32 * 1 ≤ 1048576 ∧ s0.links = []
    ∧ ((tMove 4095).rdS 2).toNat % 4096 + 1 ≤ 4096 ∧ ((onT (tMove 0xFFFE0)).here pt0).moveFree 0 = true := by unfold Legal; decide +kernel
/-- A transfer from tile 0 over its south link to tile 16, whose first part can be written in cycle 5. -/
def lOf (n : Nat) : LinkMsg := ⟨0, 0, 16, 2, 0, List.replicate n 9, false, 3, 128, 5, 5 + (n - 1) / 128, 0⟩
def sLink (n : Nat) : State := { s0 with links := [lOf n] }
theorem wit_links : ∀ n ∈ [128, 129], (sLink n).links = [lOf n] ∧ (lOf n).die = pt0.die.val ∧ (lOf n).src = pt0.tile.val ∧ (lOf n).dst = (16 : Fin 256).val
    ∧ (lOf n).poison = false ∧ (lOf n).link = (2 : BitVec 3).toNat ∧ (ptc 4).cyc < (lOf n).due ∧ (lOf n).due ≤ (ptc 5).cyc
    ∧ ((sLink n).here (ptc 5)).quiet = true ∧ ((sLink n).here ⟨0, 16, 5⟩).quiet = true ∧ ((sLink n).here ⟨0, 16, 5⟩).ecc = []
    ∧ ((sLink n).here (ptc 5)).active = [] ∧ (0 : Fin 8).val = ((lOf n).link + 2) % 4 + (lOf n).link / 4 * 4
    ∧ (n = 129 → (5 + 1 - (lOf n).due) * (lOf n).width < (lOf n).data.length) ∧ (n = 128 → (lOf n).data.length ≤ (5 + 1 - (lOf n).due) * (lOf n).width) := by decide +kernel
/-- A delivery of the Tidepool, HBM or the optical receiver in tile 0's inbound buffer, to be written in cycle 5. -/
def sInq (src : Nat) (fin : InFin) : State := onT { Tile.reset with inq := [⟨src, 0xFFFE0, List.replicate 32 7, 5, fin⟩] }
theorem wit_inbound : ∀ src ∈ [8, 9, 10], ∀ fin ∈ ([.more, .part 0 0, .count 15 0] : List InFin),
    ((sInq src fin).here (ptc 5)).quiet = true ∧ ((sInq src fin).here (ptc 4)).quiet = true ∧ ((sInq src fin).here (ptc 5)).ecc = []
    ∧ ((sInq src fin).here (ptc 5)).inq = [⟨src, 0xFFFE0, List.replicate 32 7, 5, fin⟩] ∧ (ptc 4).cyc < 5 ∧ 5 ≤ (ptc 5).cyc := by decide +kernel

/-- A running die whose table gives tile 0 waveguide 0 in tick 2 and drop port 0 in tick 1; S3 = the tick. -/
def bufArm : Mem := memStore (memStore [] (2 * 64 * 8) (leBytes 8 1)) (0x80000 + 64 * 4) (leBytes 4 1)
def sArm (tick : W64) : State :=
  (st0 { Tile.reset with s := [(3, tick)] } { Die.reset with running := true } []).setStn 0 { Stn.reset with hasActive := true, bufA := bufArm }
theorem wit_arms : ((sArm 2).here pt0).moveFree 0 = true ∧ Legal (sArm 2) (.otxa pt0 ⟨2, 1, 0, 3, 32, 0⟩) ∧ (s0.die 0).running = false
    ∧ ((sArm 2).die 0).running = true ∧ moveFits ((sArm 2).here pt0) ⟨2, 1, 0, 3, 32, 0⟩ ∧ (32 : BitVec 12).toNat = (sArm 2).payUnits
    ∧ (((sArm 2).here pt0).rdS 3).toNat ≤ (sArm 2).tick pt0 + 16 ∧ (sArm 2).tick pt0 + 1 < 2 ∧ (sArm 2).otxaTable 0 2 0 0 0 = true ∧ ((sArm 2).stn 0).tx = []
    ∧ (sArm 1).tick pt0 < 1 ∧ (sArm 1).orxaTable 0 1 0 0 0 = true ∧ ((sArm 1).stn 0).rx = [] := by unfold Legal moveFits; decide +kernel
def dKv : Die := { Die.reset with role := 4 }
/-- A header of stream 0 with entries of one unit, in the Tidepool. -/
def sKv : State := (st0 (tMove 0) dKv [(TPL_STATUS_STATE, 0, 3)]).setLine 0 0 { TLine.absent with valid := 0xFFFF, dirty := 0xFFFF, data := 1 + 2 ^ 32 }
theorem wit_kv : Legal s0 (.kvapp pt0 (mvOf 1 64)) ∧ Legal s0 (.kvgth pt0 (mvOf 1 64)) ∧ Legal s0 (.kvbws pt0 ⟨2, 1, 2, 0, 0, 64⟩)
    ∧ (s0.die 0).role ≠ 4 ∧ (sKv.die 0).role = 4 ∧ paOk (2 ^ 41) 64 = false ∧ paOk 0x1E000000000 64 = true
    ∧ (mvOf 1 64).osf.getLsbD 6 = true ∧ ((sMem (tMove 0x1E000000000) dKv).shg 15).lost = false
    ∧ (sMem (tMove 0x1E000000000) dKv).memSlots 0 15 = true ∧ moveFits (tMove 0x1E000000000) (mvOf 1 64)
    ∧ (sKv.here pt0).moveFree 0 = true ∧ Legal sKv (.kvbws pt0 ⟨2, 1, 2, 0, 0, 0⟩) ∧ sKv.rd TWN_STATUS_STATE = 0
    ∧ (sKv.line 0 0).valid = 0xFFFF ∧ (sKv.line 0 0).err = 0 ∧ sKv.poolUp 0 = true ∧ sKv.kvs = [] ∧ (sKv.here pt0).active = []
    ∧ sKv.staleSector 0 0 = false ∧ sKv.staleSector 0 32 = false ∧ kvCheck (kvHdr ((sKv.line 0 0).bytes 0 2)) 0 0 (sKv.line 0 0).poison = 0 := by
  unfold Legal moveFits; decide +kernel
theorem wit_note : Legal s0 (.note pt0 (mvOf 4 0)) ∧ noteDest 0 0 = none ∧ noteDest 0 1 = some 1 ∧ noteDest 0 0xFE = some 40
    ∧ noteWordOk 40 63 1 = true ∧ noteWordOk 1 0 4 = true ∧ s0.inReset 1 = false ∧ 0 < s0.noteQueue ∧ s0.notes = []
    ∧ s0.noteQueue ≤ (List.replicate 28 (⟨0, 1, 0, 0, 0, 0, 0, [], false, 0, 0, none⟩ : NoteMsg)).length := by unfold Legal; decide +kernel

/-! ### Witnesses: memory, Tidepool, the tide -/

/-- A message of one stream, with an identifier of all ones. -/
def mm (typ len : Nat) (data : List Byte) : MMsg := ⟨typ, 4095, 0, 0, len, 0, 0, 0, data, []⟩
/-- A read of one unit that waits at stack 15 since count 5. -/
def jRead : ShgJob := ⟨15, 0, { mm 1 1 (List.replicate 32 7) with bad := [false] }, 5, []⟩
/-- The outstanding request of tile 0 of die 0 at stack 15. -/
def rqOf (kind : Nat) : MemReq := ⟨1, 0, 15, 4095, kind, 0, 1, none, .tile 0 0 0, 0, 5, [], 0, [], [], false⟩
/-- A message in front of a station's queue, at a wall count. -/
def sChan (wall : Nat) (q p : Nat) (m : MMsg) (l : List MemReq) (js : List ShgJob) : State :=
  { regsOf [(TID_WALL_TICKS, 0, wall)] with inbox := [(q, p, m)], mreqs := l, jobs := js }
theorem wit_hbmChannel : (∀ m ∈ [mm 1 1 [], mm 2 1 (List.replicate 32 1), mm 2 2 (List.replicate 32 1), mm 5 1 (List.replicate 32 1)],
      let s := sChan 0 39 0 m [] []
      s.inbox = [(24 + 15, 0, m)] ∧ s.jobs = [] ∧ s.undec = [] ∧ s.hbmPoison = [] ∧ (∀ b ∈ m.bad, b = false) ∧ 32 ∣ m.data.length ∧ (0 : Nat) ≠ 40 ∧ s.mreqs = [])
    ∧ (let m := mm 2 1 (List.replicate 32 1); m.off = 0 ∧ 0 < m.len ∧ m.data.length / 32 = m.len) ∧ (mm 2 2 (List.replicate 32 1)).data.length / 32 < 2
    ∧ (let s := sChan 44 39 0 (mm 1 1 []) [] [jRead]; s.jobs = [jRead] ∧ s.wall < jRead.wall + 40) ∧ jRead.wall + 40 ≤ (sChan 45 39 0 (mm 1 1 []) [] [jRead]).wall
    ∧ jRead.msg.rid = (4095 : BitVec 12).toNat ∧ jRead.msg.data.length = 32 * jRead.msg.len ∧ jRead.msg.bad = List.replicate jRead.msg.len false := by decide +kernel
theorem wit_hbmReturn : (∀ x ∈ [(3, 1), (4, 2), (6, 5)], let m := mm x.1 1 (List.replicate 32 7); let s := sChan 0 0 39 m [rqOf x.2] []
      s.inbox = [(0, 24 + 15, m)] ∧ s.mreqs = [rqOf x.2] ∧ (rqOf x.2).rid = m.rid ∧ (rqOf x.2).kind = x.2 ∧ (rqOf x.2).code = 0 ∧ (rqOf x.2).seen = [] ∧ m.code = 0 ∧ m.off = 0
        ∧ m.data.length = 32 * (rqOf x.2).len ∧ s.hrbDone = [] ∧ s.mwait = [] ∧ (s.tile 0).rep = [] ∧ s.twn.gathers = [])
    ∧ (sChan 32772 0 39 (mm 3 1 []) [rqOf 1] []).wall < (rqOf 1).wall + 32768 ∧ (rqOf 1).wall + 32768 ≤ (sChan 32773 0 39 (mm 3 1 []) [rqOf 2] []).wall := by decide +kernel
/-- Stack 15 serves and scrubs from a position, where a block's bits may be wrong; the scrub may hold a corrected block, of offset 0. -/
def sScrub (pos : Nat) (e : BlkErr) (held : Option (Nat × List Byte × Bool)) (hit : Bool) : State :=
  ({ regsOf [(SHG_STATUS_STATE, 15, 3), (SHG_CTRL_SCRUB_HOURS, 15, 1), (SHG_SCRUB_POS, 15, pos)] with
    undec := if e = BlkErr.none then [] else [((15 * 2 ^ 37 + pos) / 64, e)] }).setShg 15 { Shg.reset with scrub := held, scrubHit := hit }
theorem wit_hbmScrub : (∀ x ∈ ([(0x1400000000 - 128, BlkErr.none), (0x1400000000 - 64, BlkErr.none), (0, ⟨false, [(0, 1)]⟩), (0, ⟨true, []⟩),
      (0, ⟨false, [(0, 1), (1, 1), (2, 1), (3, 1), (4, 1)]⟩)] : List (Nat × BlkErr)),
      let s := sScrub x.1 x.2 none false
      s.rd SHG_STATUS_STATE 15 = 3 ∧ s.rd SHG_CTRL_SCRUB_HOURS 15 ≠ 0 ∧ s.rd SHG_SCRUB_POS 15 = x.1 ∧ s.blkErr ((15 * 2 ^ 37 + x.1) / 64) = x.2 ∧ (s.shg 15).scrub = none
        ∧ s.rd SHG_ERRLOG_VALID 15 = 0) ∧ 0x1400000000 - 128 + 64 < 0x1400000000 ∧ 0x1400000000 ≤ 0x1400000000 - 64 + 64
    ∧ (sScrub 0 ⟨false, [(0, 1)]⟩ none false).blkForm (15 * 2 ^ 31) = some false
    ∧ (sScrub 0 ⟨false, [(0, 1), (1, 1), (2, 1), (3, 1), (4, 1)]⟩ none false).blkForm (15 * 2 ^ 31) = none
    ∧ (∀ h ∈ [true, false], let s := sScrub 64 BlkErr.none (some (0, List.replicate 64 1, false)) h
      s.rd SHG_SCRUB_POS 15 = 64 ∧ (s.shg 15).scrub = some (0, List.replicate 64 1, false) ∧ (s.shg 15).scrubHit = h ∧ s.blkErr (15 * 2 ^ 31 + 1) = BlkErr.none)
    ∧ s0.rd SHG_STATUS_STATE 15 ≠ 3 := by decide +kernel
/-- A region header with one entry of one unit between BERM and TOP, or none. -/
def hbmKv (top : Byte) : Mem := if top = 0 then [(0, 1), (4, 1), (8, 1)] else [(0, 1), (4, 1), (8, 1), (16, top)]
def jKv (op : Nat) (data : List Byte) : ShgJob := ⟨15, 0, ⟨5, 4095, 0, 0, 1, 0, 0, op, data, []⟩, 0, [(0, 1)]⟩
theorem wit_kvExecution : (∀ x ∈ ([(jKv 1 (List.replicate 64 3), 0), (jKv 2 [1, 0], 1), (jKv 3 [], 1)] : List (ShgJob × Byte)),
      segUnits x.1.seen 0 x.1.msg.len = true ∧ x.1.seen ≠ [] ∧ kvCheck (kvHdr (memBytes (hbmKv x.2) 0 64)) 0 0 false = 0 ∧ (kvHdr (memBytes (hbmKv x.2) 0 64)).bwsDue = false
      ∧ (∀ b ∈ x.1.msg.bad, b = false)) ∧ kvCheck (kvHdr (memBytes [] 0 64)) 0 0 false ≠ 0
    ∧ (let h := kvHdr (memBytes (hbmKv 0) 0 64); (List.replicate 64 (3 : Byte)).length = 64 * h.units * 1 ∧ h.top - h.berm + 1 ≤ 64 ∧ h.top + 1 ≤ h.cap)
    ∧ (let h := kvHdr (memBytes (hbmKv 1) 0 64); h.berm + (0 : Byte).toNat < h.top)
    ∧ segUnits ({ jKv 1 [] with seen := [] } : ShgJob).seen 0 (jKv 1 []).msg.len = false := by decide +kernel
def sPool (l : List (Fld × Nat × Nat)) : State := regsOf ((TPL_STATUS_STATE, 23, 3) :: l)
theorem wit_maintenance : (sPool []).rd TPL_CTRL_LOCK 23 = 0 ∧ (sPool []).rd TPL_MAINT_BUSY 23 = 0 ∧ (sPool []).rd TPL_STATUS_STATE 23 = 3
    ∧ ((sPool []).coupler 23).upsets = [] ∧ (sPool []).mwait = [] ∧ (sPool [(TPL_CTRL_LOCK, 23, 1)]).rd TPL_CTRL_LOCK 23 = 1 := by decide +kernel
theorem wit_maintenanceLines : (∀ m, (s0.line 23 m).err = 0 ∧ (s0.line 23 m).poison = false) ∧ ∀ k, (s0.shg k).lost = false :=
  ⟨fun _ => ⟨rfl, rfl⟩, fun _ => rfl⟩
/-- A maintenance operation of Tidepool 23 in progress, its line 0 not yet handled or its write-back out. -/
def sMaint (op : Nat) (left : List Nat) (l : List MemReq) : State :=
  { (s0.setLine 23 0 { TLine.absent with valid := 1, moor := true }).setCoupler 23 { Coupler.reset with maint := some (op, true, left, 255) } with mreqs := l }
theorem wit_maintenanceDone : (∀ op ∈ [2, 4], ((sMaint op [0] []).coupler 23).maint = some (op, true, [0], 255) ∧ (sMaint op [0] []).anyWback 23 = false
      ∧ ((sMaint op [0] []).line 23 0).valid ≠ 0) ∧ ((sMaint 1 [] []).coupler 23).maint = some (1, true, [], 255) ∧ (sMaint 1 [] []).anyWback 23 = false
    ∧ (sMaint 1 [] [⟨1, 23, 0, 0, 2, 0, 1, none, .wback 0, 0, 0, [], 0, [], [], false⟩]).anyWback 23 = true := by decide +kernel
def tl (v d : BitVec 16) (e : Nat) : TLine := { TLine.absent with valid := v, dirty := d, err := e }
/-- The last line of Tidepool 23 has its sector 14; the fetch for its sector 15 is back and a load of tile 255 waits for it. -/
def fillOf : Fill := ⟨1, 23, 2 ^ 32 - 1, 15, 1, 0x8000, 0, List.replicate 32 9, true, 0, [⟨255, 7, 15, 1, 0, 0, false⟩]⟩
def sFill : State := { (sPool []).setLine 23 (2 ^ 32 - 1) (tl 0x4000 0x4000 0) with fills := [fillOf] }
theorem wit_fill : sFill.poolUp 23 = true ∧ sFill.fills = [fillOf] ∧ fillOf.line = (BitVec.allOnes 32).toNat ∧ fillOf.want = secMask 15 1 ∧ fillOf.want ≠ 0
    ∧ fillOf.lo + fillOf.n ≤ 16 ∧ fillOf.data.length = 32 * fillOf.n ∧ (sFill.coupler 23).upsets = [] ∧ sFill.kvs = []
    ∧ secMask 15 1 &&& ~~~((sFill.line 23 (2 ^ 32 - 1)).valid ||| fillOf.want) = 0 ∧ (sFill.line 23 (2 ^ 32 - 1)).valid ≠ 0 ∧ (sFill.line 23 (2 ^ 32 - 1)).err = 0
    ∧ (sFill.line 23 (2 ^ 32 - 1)).poison = false ∧ (sFill.tile (23 * 256 + 255)).rep = [] := by decide +kernel
theorem wit_lineScrub : (regsOf [(TWN_STATUS_STATE, 0, 4)]).rd TWN_STATUS_STATE = 4
    ∧ (∀ l ∈ [tl 1 0 1, tl 1 0 2, tl 1 1 2], ((regsOf [(TWN_STATUS_STATE, 0, 4)]).setLine 0 0 l).line 0 0 = l ∧ l.valid ≠ 0)
    ∧ ((regsOf [(TWN_STATUS_STATE, 0, 4)]).setLine 0 0 (tl 1 1 2)).rd TPL_POISON_LOG_VALID 0 = 0 := by decide +kernel

theorem wit_coupler : (regsOf [(TPL_STATUS_STATE, 0, 1)]).rd TPL_STATUS_STATE 0 = 1 ∧ (regsOf [(TPL_STATUS_STATE, 0, 2)]).rd TPL_STATUS_STATE 0 = 2
    ∧ (regsOf [(TPL_STATUS_CAL_BUSY, 0, 1)]).rd TPL_STATUS_CAL_BUSY 0 = 1
    ∧ (regsOf [(TPL_STATUS_STATE, 0, 3)]).rd TPL_STATUS_STATE 0 = 3 ∧ s0.rd TPL_MAINT_BUSY 0 = 0
    ∧ (let s := (regsOf [(TPL_STATUS_STATE, 0, 4)]).setCoupler 0 { Coupler.reset with retrain := true }; s.rd TPL_STATUS_STATE 0 = 4 ∧ (s.coupler 0).retrain = true)
    ∧ mapCrc [] [] = mapCrc (s0.coupler 0).failUp (s0.coupler 0).failDn ∧ mapCrc [543] [] ≠ mapCrc (s0.coupler 0).failUp (s0.coupler 0).failDn := by decide +kernel
def sClock (wall : Nat) (l : List (Fld × Nat × Nat)) : State :=
  { regsOf ((TID_WALL_TICKS, 0, wall) :: l) with tide := { Tide.reset with aligned := true, started := true } }
def armTx (tick : Nat) (p : ArmPhase) : TxArm := ⟨tick, 0, 0, 0, 0, 0, [1], [], false, p⟩
theorem wit_tideClock : (∀ w ∈ [0, 1023], (sClock w []).tide.aligned = true ∧ (sClock w []).tide.started = true ∧ (sClock w []).wall = w
      ∧ (sClock w []).wall + 1 < 2 ^ 64 ∧ (sClock w []).ticks + 1 < 2 ^ 64) ∧ (0 + 1) % 1024 ≠ 0 ∧ (1023 + 1) % 1024 = 0
    ∧ (let s := { s0 with tide := { Tide.reset with aligned := true } }; s.tide.aligned = true ∧ s.tide.started = false)
    ∧ (sClock 0 [(TID_STATUS_IDLE_NOW, 0, 1)]).idle = true ∧ s0.idle = false
    ∧ (let r := { Region.reset with synced := true, stretched := 2 }; 0 < r.stretched ∧ 2 - r.tick0 ≤ r.stretched ∧ ¬(3 - r.tick0 ≤ r.stretched))
    ∧ (s0.region 96).beacon = none ∧ (let s := s0.setRegion 96 { Region.reset with beacon := some 1024 }; (s.region 96).beacon = some 1024 ∧ s.idle = false)
    ∧ (∀ i, i < 64 → (s0.tile i).rep = []) := by decide +kernel
theorem wit_tideArms : ((onT { Tile.reset with active := [⟨cmd0 .otxa 32, 0, 0, 1, [], false⟩] }).here pt0).quiet = true
    ∧ (s0.setStn 0 { Stn.reset with tx := [armTx 0 (.sent false)] }).stn 0 = { Stn.reset with tx := [armTx 0 (.sent false)] }
    ∧ (s0.setRegion 0 { Region.reset with synced := true, beacon := some 7 }).region 0 = { Region.reset with synced := true, beacon := some 7 }
    ∧ s0.tk = 0 ∧ s0.idle = false ∧ (armTx 0 (.sent false)).tick ≤ Region.reset.tick ∧ (s0.stn 0).tx = [] ∧ (armTx 1 .armed).tick = s0.ticks + 1 := by decide +kernel

/-- Tick 1: waveguide 59 of station 0 carries a data slot of tile 0 to the Harbour station. -/
def sSend (tick : Nat) (st : Stn) : State :=
  (regsOf [(TID_COUNTER_TICKS, 0, tick)]).setStn 0 { st with hasActive := true, bufA := memStore [] ((tick * 64 + 59) * 8) (leBytes 8 1) }
def armW (p : ArmPhase) : TxArm := ⟨1, 59, 0, 0, 0, 0, [1], [], false, p⟩
theorem wit_sending : (sSend 1 Stn.reset).tk = 1 ∧ (sSend 1 Stn.reset).idle = false ∧ ((sSend 1 Stn.reset).stn 0).up = true
    ∧ (∀ d, d < 60 → ((sSend 1 Stn.reset).rxAt 0 0 d).valid = false) ∧ (∀ v, v < 60 → v ≠ 59 → ((sSend 1 Stn.reset).txAt 0 1 v).valid = false)
    ∧ (sSend 1 Stn.reset).rd FAB_SQUALL_CTRL_EN = 0 ∧ (sSend 1 Stn.reset).wgLit 0 59 = true ∧ ((sSend 1 Stn.reset).txAt 0 1 59).valid = true
    ∧ ((sSend 1 Stn.reset).txAt 0 1 59).srck = 0 ∧ (sSend 1 Stn.reset).air = [] ∧ (armW .ready).tick = (sSend 1 Stn.reset).ticks := by decide +kernel
def sAt (tick : Nat) (st : Stn) : State := (regsOf [(TID_COUNTER_TICKS, 0, tick)]).setStn 0 st
theorem wit_reports : (sAt 1009 Stn.reset).tk = 1009 ∧ (sAt 1011 Stn.reset).tk = 1011 ∧ (sAt 1012 Stn.reset).tk = 1012 ∧ (sAt 1009 Stn.reset).idle = false
    ∧ (sAt 1009 Stn.reset).listens 0 = true ∧ (sAt 1011 Stn.reset).listens 40 = true ∧ (Stn.reset).told = 0
    ∧ (let s := regsOf [(TID_COUNTER_TICKS, 0, 1009), (STN_TIDE_SYNCED, 1, 1)]; s.absent 1 = false ∧ reportTick 0 1 = 1009 ∧ s.wgLit 0 (reportWg 0 1) = true) := by decide +kernel
def sMake : State :=
  { sAt 1016 { Stn.reset with hasActive := true, bufA := memStore [] ((1 * 64 + 59) * 8) (leBytes 8 1), tx := [⟨1, 59, 0, 0, 0, 0, [0], [], false, .failed true⟩] } with tide := { Tide.reset with assign := [(1016, ⟨0, 59, 1, 0, 1⟩)] } }
theorem wit_makeup : 1013 ≤ sMake.tk ∧ sMake.tk < 1017 ∧ sMake.idle = false ∧ (sMake.stn 0).noReport = false ∧ sMake.tide.assign = [(sMake.tk, ⟨0, 59, 1, 0, 1⟩)]
    ∧ sMake.rd FAB_SQUALL_CTRL_EN = 0 ∧ sMake.wgLit 0 59 = true ∧ (sMake.tile 0).bytes 0 1 = [0]
    ∧ sMake.listens 0 = true ∧ (sMake.txAt 0 1 59).valid = true := by decide +kernel
def noteOf (dst sent : Nat) : NoteMsg := ⟨0, dst, 0, 0, 4, 0, 0, [1], false, 0, sent, none⟩
theorem wit_noteTick : (∀ t ∈ [1018, 1019], (sAt t Stn.reset).tk = t ∧ (sAt t Stn.reset).idle = false ∧ ((sAt t Stn.reset).stn 0).up = true)
    ∧ (noteOf 40 0).sent = 0 ∧ (noteOf 1 0).dst < 24
    ∧ (sAt 1018 Stn.reset).listens 0 = true ∧ (sAt 1018 Stn.reset).wgLit 0 (slackWg 0 1) = true := by decide +kernel

/-- Station 0 expects a swell of station 1, waveguide 0, at drop port 59 in tick 0; tile 0 has armed the port. -/
def swOf (kind : Nat) : Swell := ⟨kind, false, 1, 0, 0, 59, 0, 0, [], [5]⟩
def sRecv (kind : Nat) (p : ArmPhase) : State :=
  ({ onT { Tile.reset with active := [⟨cmd0 .orxa 32, 0, 0, 1, [], false⟩] } with
      air := [swOf kind], tide := { Tide.reset with assign := [(0, ⟨1, 0, 0, 59, 0⟩)] } }).setStn 0
    { Stn.reset with hasActive := true, rx := [⟨0, 59, 0, 0, 0, false, p⟩], bufA := memStore [] (0x80000 + 59 * 4) (leBytes 4 3) }
theorem wit_reception : (sRecv 1 .armed).listens 0 = true ∧ (sRecv 1 .armed).air = [swOf 1] ∧ ((sRecv 1 .armed).tile 0).quiet = true ∧ (swOf 1).tag % 128 = 0
    ∧ (let e := (sRecv 1 .armed).rxAt 0 0 59; e.dkind = 0 ∧ e.valid = true ∧ e.sstn = 1 ∧ e.swg = 0 ∧ (swOf 1).tag % 128 = e.tag6)
    ∧ (sRecv 1 .armed).pathBad ((stnQ 1).getD 41) 0 0 = false
    ∧ (let s := sRecv 3 (.failed true); (s.stn 0).noReport = false ∧ s.idle = false ∧ s.tide.assign = [(0, ⟨1, 0, 0, 59, 0⟩)] ∧ 0 ≤ s.tk ∧ (s.stn 0).got = []) := by decide +kernel
/-- Die 1 holds role 4 since epoch 0; tick 1,018, and a note of die 0 is on its way to a die or a channel. -/
def sNote (n : NoteMsg) (opened : List Nat) : State :=
  { regsOf [(TID_COUNTER_TICKS, 0, 1018), (TID_ROLE_ROLE, 1, 4)] with tiles := [(0, { Tile.reset with active := [⟨cmd0 .note 1, 0, 0, 1, [], false⟩] })], notes := [n], fw := { Fw.reset with opened := opened }, air := [slackSwell 5 0 (slackWg 0 n.dst) n.dst 0 1018 (noteMarks [n]) (noteBytes [n])] }
theorem wit_noteSwells : ((sNote (noteOf 1 1) []).tile 0).quiet = true ∧ (sNote (noteOf 1 1) []).tk = 1018 ∧ (sNote (noteOf 1 1) []).idle = false
    ∧ (sNote (noteOf 1 1) []).listens 1 = true ∧ (sNote (noteOf 40 1) []).listens 40 = true ∧ (sNote (noteOf 1 1) []).noteAccept 1 4 0 = true
    ∧ (∀ q ∈ [1, 40], (sNote (noteOf q 1) []).pathBad 0 (slackWg 0 q) q = false) ∧ (noteOf 1 1).sent = 1 ∧ (noteOf 1 1).reply = none ∧ (noteOf 1 1).poison = false
    ∧ (sNote (noteOf 1 1) []).noteAccept 1 3 0 = false ∧ ((sNote (noteOf 1 1) []).tile 256).quiet = true
    ∧ (0 ∉ (sNote (noteOf 40 1) []).fw.opened) ∧ 0 ∈ (sNote (noteOf 40 1) [0]).fw.opened ∧ (noteOf 40 1).dest < 64 ∧ (noteOf 40 1).tries < 3
    ∧ (smGet (fun _ => []) (sNote (noteOf 40 1) [0]).fw.chans 0 : List (List Byte)).length < 16 ∧ 3 ≤ ({ noteOf 1 1 with tries := 3 } : NoteMsg).tries := by decide +kernel
/-- A report of station 1 that names a slot on waveguide 44 of the Harbour station is on its way. -/
def sReport (q : Nat) : State := { regsOf [(TID_COUNTER_TICKS, 0, 1011)] with air := [slackSwell 4 1 0 q 1 1011 [] (reportBytes [⟨0x30, 44, 0, 0, 0⟩])] }
theorem wit_reportSwells : ∀ q ∈ [0, 40], (sReport q).listens q = true ∧ (sReport q).idle = false ∧ 1011 ≤ (sReport q).tk ∧ ((sReport q).stn q).noReport = false
    ∧ (sReport q).pathBad 1 0 q = false ∧ stnQ 0x30 = some 40 ∧ 44 < wgCount 40 := by decide +kernel
theorem wit_tables : s0.rd TID_LOAD_BUSY = 0 ∧ stnQ (0x30 : BitVec 8).toNat = some 40
    ∧ (let s := s0.setStn 40 { Stn.reset with hasActive := true }; (s.stn 40).hasActive = true ∧ s.rd STN_TIDE_ACTIVE 40 = 0)
    ∧ ({ s0 with tide := { Tide.reset with swapReqs := [⟨[40], false, none⟩] } } : State).swapNames 40 = true ∧ s0.swapNames 40 = false
    ∧ stnQ (0x3F : BitVec 8).toNat = none ∧ paOk (2 ^ 37 - 4096) 0x100000 = false ∧ s0.rd SHG_ERRLOG_VALID (paStack (2 ^ 37 - 4096)) = 0
    ∧ paOk 4095 0x100000 = true ∧ 4095 % 4096 ≠ 0 ∧ 0xC0008 / 4 < 2 ^ 18
    ∧ (∀ b ∈ [true, false], ({ s0 with tide := { Tide.reset with load := some (40, true, b) } } : State).tide.load = some (40, true, b))
    ∧ paOk (16 * 2 ^ 37 - 2 ^ 37 + 4096) 0x100000 = true ∧ tableCheck 1 [] = some (0xC0008 / 4)
    ∧ (regsOf [(TID_STATUS_IDLE_NOW, 0, 1)]).idle = true ∧ s0.tide.pwrNext < 2 ∧ s0.tide.optNext < 2 ∧ s0.idle = false := by decide +kernel
theorem wit_tableImage : s0.hbmReady 4096 0x100000 := by unfold State.hbmReady; decide +kernel

/-- Ticks from 1,024 on. -/
def sTide (wk : Nat) : State := sClock (1024 + wk) [(TID_COUNTER_TICKS, 0, 1024 + wk)]
/-- Tick 1,008 with a request; station 0's buffer A is valid, and die 23, which runs, is to move to role 4. -/
def sReq1008 (r : SwapReq) (idle : Nat) : State :=
  { sClock 2032 [(TID_COUNTER_TICKS, 0, 2032), (TID_STATUS_IDLE_NOW, 0, idle), (STN_TIDE_VALID_A, 0, 1), (TID_ROLENEXT_SLOT, 0, 31), (TID_ROLENEXT_ROLE, 23, 4)] with
    tide := { Tide.reset with aligned := true, started := true, swapReqs := [r], pwrNext := 0, optNext := 0 }, dies := [(23, { Die.reset with running := true })] }
theorem wit_settle : let s := sReq1008 ⟨[0], false, none⟩ 1
    s.tide.started = true ∧ s.wk = 1008 ∧ s.twn.rewrite = [] ∧ s.idle = true ∧ s.tide.swapLatched = none ∧ s.abortsNow = []
      ∧ (∀ n, n < 24 → n ∈ [0] → s.moves s.nextMap n = false) ∧ s.inactiveModes 0 = some (s.tide.pwrNext + 2 * s.tide.optNext) := by decide +kernel
theorem wit_settleTurn : let s := sReq1008 ⟨[23], true, none⟩ 1
    s.wk = 1008 ∧ s.tide.swapLatched = none ∧ s.abortsNow = [] ∧ s.moves s.nextMap 23 = true ∧ (s.die 23).running = true
      ∧ ∀ m, m < 23 → ¬(s.moves s.nextMap m = true ∧ (s.die m).running = true) := by decide +kernel
def beaconX : BeaconMsg := ⟨2048, 2048, 2 ^ 63, 1, true, 1, 1, 7⟩
theorem wit_beacon : (∀ wk ∈ [1020, 1021], let s := sTide wk
      s.tide.started = true ∧ s.wk = wk ∧ s.listens 40 = true ∧ (s.stn 40).told.testBit (wk - 1017) = false ∧ s.sentBeacon = none
        ∧ ({ s with tide := { s.tide with beacon := some beaconX } } : State).sentBeacon = some beaconX)
    ∧ beaconX.tick0 < 2 ^ 64 ∧ beaconX.wall0 < 2 ^ 64 ∧ beaconX.swap < 2 ^ 64 ∧ beaconX.turn < 2 ^ 64 ∧ beaconX.pwr < 2 ∧ beaconX.opt < 2 ∧ beaconX.level < 8
    ∧ (∀ q ∈ [0, 39], let s := { sTide 1020 with air := [slackSwell 6 40 q q 0 1020 [] beaconX.bytes] }
      s.wk = 1020 ∧ s.listens q = true ∧ (s.stn q).beacon = none ∧ s.pathBad 40 q q = false ∧ beaconOf beaconX.bytes = some beaconX ∧ (s.stn q).tx = [] ∧ (s.stn q).rx = []
        ∧ (s.stn q).badCopies = 0 ∧ ((s.setStn q { Stn.reset with badCopies := 1 }).stn q).badCopies = 1) := by decide +kernel
theorem wit_quiet1022 : let s := sTide 1022
    s.tide.started = true ∧ s.wk = 1022 ∧ s.light.raising = [] ∧ s.idle = false ∧ s.tide.assign = [] ∧ s.mreqs = [] ∧ s.hrbDone = [] ∧ s.notes = []
      ∧ (∀ k, k < 16 → (s.shg k).bandNext < 4) ∧ s.listens 0 = true ∧ (s.stn 0).beacon = none ∧ (s.stn 0).badCopies < 2 := by decide +kernel
/-- Tick 1,023 with a latched swap of station 0, which has it from the beacon; a turn moves die 0 to role 4. -/
def sHeld (turn : Bool) (idle : Nat) : State :=
  { (sClock 2047 [(TID_COUNTER_TICKS, 0, 2047), (TID_STATUS_IDLE_NEXT, 0, idle)]).setStn 0 { Stn.reset with swapAnn := true } with
    tide := { Tide.reset with aligned := true, started := true, swapLatched := some ⟨⟨[0], turn, none⟩, (4, 31, false) :: List.replicate 23 (0, 31, false)⟩ } }
theorem wit_swap : (∀ turn ∈ [true, false], ∀ idle ∈ [0, 1], let s := sHeld turn idle
      s.tide.started = true ∧ s.wk = 1023 ∧ s.plans = [] ∧ s.sec.handover = false ∧ s.rd TID_STATUS_IDLE_NEXT = idle ∧ (s.stn 0).swapAnn = true)
    ∧ [0].Nodup ∧ (let h : List (Nat × Nat × Bool) := (4, 31, false) :: List.replicate 23 (0, 31, false); (sHeld true 0).moves h 0 = true ∧ (sHeld true 0).moves h 23 = false
      ∧ h.getD 0 (0, 31, false) = (4, 31, false)) := by decide +kernel
/-- CRC-32C is a 32-bit value. -/
theorem crcBits_lt (n c : Nat) (h : c < 2 ^ 32) : crcBits n c < 2 ^ 32 := by
  induction n generalizing c with
  | zero => exact h
  | succ n ih =>
    refine ih _ ?_
    split
    · exact Nat.xor_lt_two_pow (by omega) (by decide)
    · omega
theorem crcGo_lt (bs : List Byte) (c : Nat) (h : c < 2 ^ 32) : crcGo bs c < 2 ^ 32 := by
  induction bs generalizing c with
  | nil => exact h
  | cons b bs ih => exact ih _ (crcBits_lt 8 _ (Nat.xor_lt_two_pow h (Nat.lt_of_lt_of_le b.isLt (by decide))))
theorem crc32c_lt (bs : List Byte) : crc32c bs < 2 ^ 32 := Nat.xor_lt_two_pow (crcGo_lt bs _ (by decide)) (by decide)
/-- A table image of station 0 with no entries passes its check, with its CRC in place. -/
theorem tableGood (n : Nat) (hn : n + 16 = 0xC0010) : ∃ buf : Mem, memNat buf 0xC0008 1 = 0 ∧ memNat buf 0xC0010 4 = crc32c (memBytes buf 0 n)
    ∧ buf.map (·.1) = [0xC0010, 0xC0011, 0xC0012, 0xC0013] := by
  obtain ⟨c, hc⟩ : ∃ c, c = crc32c (List.replicate n 0) := ⟨_, rfl⟩
  have hlt : c < 2 ^ 32 := by rw [hc]; exact crc32c_lt _
  let buf : Mem := [(0xC0010, BitVec.ofNat 8 c), (0xC0011, BitVec.ofNat 8 (c / 256)), (0xC0012, BitVec.ofNat 8 (c / 65536)), (0xC0013, BitVec.ofNat 8 (c / 16777216))]
  have low : ∀ n a, a + n ≤ 0xC0010 → memBytes buf a n = List.replicate n 0 := by
    intro n
    induction n with
    | zero => intro _ _; rfl
    | succ n ih =>
      intro a h
      have hg : memGet buf a = 0 := by
        simp only [memGet, smGet, buf]
        rw [if_neg (by omega), if_pos (by omega)]
      rw [memBytes, List.replicate_succ, hg, ih (a + 1) (by omega)]
  have val : memNat buf 0xC0010 4 = c := by
    simp only [memNat, memBytes, memGet, smGet, leNat, buf]
    simp only [Nat.reduceAdd, Nat.reduceEqDiff, Nat.reduceLT, if_true, if_false, BitVec.toNat_ofNat]
    omega
  exact ⟨buf, by rw [memNat, low 1 _ (by omega)]; rfl, by rw [val, low n 0 (by omega), hc], rfl⟩
theorem wit_tableGood : ∃ buf, tableCheck 0 buf = none := by
  obtain ⟨buf, h0, hc, hk⟩ := tableGood 0xC0000 rfl
  refine ⟨buf, ?_⟩
  unfold tableCheck
  rw [if_neg (by rw [h0]; decide), if_neg (by rw [hc]; simp)]
  have hh : (buf.map fun e => if e.1 < 0x80000 then e.1 / 8 * 8 else e.1 / 4 * 4) = [0xC0010, 0xC0010, 0xC0010, 0xC0010] := by
    have : (buf.map fun e => if e.1 < 0x80000 then e.1 / 8 * 8 else e.1 / 4 * 4) = (buf.map (·.1)).map fun a => if a < 0x80000 then a / 8 * 8 else a / 4 * 4 := by
      rw [List.map_map]; rfl
    rw [this, hk]; rfl
  rw [hh]; rfl

/-! ### Witnesses: light, faults, Breakwater -/

def srcR (n st : Nat) : Fld × Nat × Nat := (HRN_SRC_STATE, n, st)
/-- Source 0 lit at position 0, with registers. -/
def sSrc (l : List (Fld × Nat × Nat)) : State := regsOf (srcR 0 5 :: (HRN_SRC_POSITION, 0, 0) :: l)
/-- No source's row 3 of Table 10-3 is new. -/
def watched (s : State) : Prop := ∀ m, m < 26 → (s.srcH m).alone = s.unserved m
theorem wit_fades : (sSrc []).srcSt 0 = 5 ∧ (sSrc []).rd HRN_SRC_POSITION 0 < 24 ∧ (sSrc []).rd HRN_SRC_SWAP_DUE 0 = 0 ∧ (sSrc []).rd HRN_SRC_WARN 0 = 0
    ∧ (-601 : Int) < -600 ∧ (-600 : Int) ≤ -600 ∧ ((([-100] : List Int)).foldl (· + ·) 0 / 1 : Int) = -100 ∧ (([-200] : List Int).foldl (· + ·) 0 / 1 : Int) < -100
    ∧ ((sSrc []).srcH 0).hist = [] ∧ (sSrc [(HRN_LS_CTRL_PREHEAT_EN, 0, 1)]).rd HRN_LS_CTRL_PREHEAT_EN = 1 ∧ (sSrc []).srcSt 24 = 0 ∧ (sSrc []).dark = false
    ∧ watched (sSrc []) ∧ watched (sSrc [srcR 24 1]) ∧ (sSrc [srcR 24 1]).sparesComing = true ∧ (sSrc []).sparesComing = false ∧ (sSrc []).unserved 0 = false
    ∧ (sSrc [(HRN_LS_CTRL_PREHEAT_EN, 0, 0)]).rd HRN_LS_CTRL_PREHEAT_EN = 0 := by
  unfold watched; decide +kernel
theorem wit_fadeSpares : (let s := { sSrc [(HRN_SRC_WARN, 0, 1), (HRN_SRC_SWAP_DUE, 0, 1), (HRN_SRC_FADE, 0, 65536 - 350), (HRN_LS_CTRL_PREHEAT_EN, 0, 0)] with
        light := { Light.reset with srcs := [(0, { Src.reset with alone := true })] } }
      watched s ∧ s.rd HRN_SRC_WARN 0 = 1 ∧ s.rd HRN_SRC_SWAP_DUE 0 = 1 ∧ s.rd HRN_SRC_UNSPARED 0 = 0 ∧ s.sparesComing = false ∧ s.unserved 0 = true)
    ∧ (let s := sSrc [srcR 24 4, (HRN_LS_CTRL_SWAP_EN, 0, 1)]
      watched s ∧ s.rd HRN_LS_CTRL_SWAP_EN = 1 ∧ s.light.raising = [] ∧ (∀ m, m < 26 → m ≠ 0 → s.wantsSpare m = false) ∧ s.readyFor 0 = some 24) := by
  unfold watched; decide +kernel
theorem wit_spares : (∀ m, m < 26 → ((sSrc [srcR 24 1]).srcSt m = 1 ∨ (sSrc [srcR 24 1]).srcSt m = 3 ∨ (sSrc [srcR 24 1]).srcSt m = 4 ↔ m = 24))
    ∧ (sSrc [(HRN_SRC_WARN, 0, 1)]).rd HRN_SRC_WARN 0 = 1 ∧ (∀ m, m < 26 → m ≠ 0 → (sSrc [(HRN_SRC_WARN, 0, 1)]).rd HRN_SRC_WARN m = 0)
    ∧ (sSrc [srcR 24 1]).srcSt 24 = 1 ∧ watched (sSrc [srcR 24 3]) ∧ (sSrc [srcR 24 3]).srcSt 24 = 3 ∧ (sSrc [srcR 24 3]).dark = false
    ∧ (∀ m, m < 26 → (sSrc [srcR 24 3]).wantsSpare m = false) ∧ (sSrc [srcR 24 4]).readyFor 0 = some 24
    ∧ (∀ n ∈ [1, 3], let s := { sSrc [srcR 24 n] with light := { Light.reset with noLight := true } }; watched s ∧ s.srcSt 24 = n ∧ s.dark = true) := by
  unfold watched; decide +kernel
/-- Source 24 locks; source 0 has failed and left its position dark, or is due for its swap before source 1. -/
theorem wit_spareFor : (let s := { regsOf [srcR 24 3, srcR 0 8] with light := { Light.reset with darkPos := [s0.rd HRN_SRC_POSITION 0] } }
      watched s ∧ s.srcSt 24 = 3 ∧ s.srcSt 0 = 8 ∧ s.rd HRN_SRC_POSITION 0 ∈ s.light.darkPos ∧ s.light.raising = [] ∧ ∀ j, j < 26 → j ≠ 24 → s.srcSt j ≠ 4)
    ∧ (let s := { sSrc [srcR 24 3, srcR 1 5, (HRN_SRC_SWAP_DUE, 0, 1), (HRN_SRC_SWAP_DUE, 1, 1), (HRN_LS_CTRL_SWAP_EN, 0, 1)] with
        light := { Light.reset with srcs := [(1, { Src.reset with dueAt := 100000000 })] } }
      watched s ∧ s.srcSt 0 = 5 ∧ s.rd HRN_SRC_SWAP_DUE 0 = 1 ∧ s.rd HRN_LS_CTRL_SWAP_EN = 1 ∧ s.wantsSpare 1 = true ∧ s.srcSt 1 ≠ 8
        ∧ (∀ j, j < 26 → j ≠ 0 → s.wantsSpare j = true → j = 1) ∧ (s.srcH 0).dueAt / 100000000 < (s.srcH 1).dueAt / 100000000) := by
  unfold watched; decide +kernel
theorem wit_sourceFails : (let s := sSrc [srcR 24 4]
      watched s ∧ s.srcSt 0 = 5 ∧ s.readyFor 0 = some 24 ∧ s.light.raising = [] ∧ ∀ j, j < 26 → j ≠ 0 → s.srcSt j ≠ 8 ∧ (s.srcSt j = 5 → s.rd HRN_SRC_SWAP_DUE j = 0))
    ∧ watched s0 ∧ s0.dark = false ∧ s0.srcSt 24 = 0 ∧ (regsOf [srcR 24 1]).srcSt 24 ≠ 0 ∧ s0.srcSt 25 = 0 ∧ (regsOf [srcR 25 1]).srcSt 25 ≠ 0 := by
  unfold watched; decide +kernel
theorem wit_lightSwap : let s := { sTide 1022 with light := { Light.reset with raising := [(24, 0, 1024)] } }
    s.tide.started = true ∧ s.wk = 1022 ∧ s.light.raising = [(24, 0, 1024)] ∧ 1024 + 1022 ≤ s.wall ∧ s.idle = false ∧ s.tide.assign = [] ∧ s.mreqs = []
      ∧ s.hrbDone = [] ∧ s.notes = [] := by decide +kernel
/-- Reset with the state of the light and registers. -/
def sLightW (l : Light) (r : List (Fld × Nat × Nat)) : State := { regsOf r with light := l }
theorem wit_bundles : (2048 < 2 ^ 64 ∧ 2048 % 1024 = 0 ∧ s0.ticks / 1024 + 2 ≤ 2048 / 1024) ∧ s0.tide.maps = [] ∧ s0.light.quar = [] ∧ s0.light.careens = []
    ∧ ({ Light.reset with quar := [(130, 14)] } : Light).quar = [((130 : Fin 131).val, 14)]
    ∧ (let s := sLightW { Light.reset with todo := [(130, 14)] } [(HRN_CTRL_CAREEN_EN, 0, 1)]
      s.light.todo = [(130, 14)] ∧ s.light.quar = [] ∧ s.light.careens = [] ∧ s.tide.maps = [] ∧ s.rd HRN_CTRL_CAREEN_EN = 1 ∧ s.rd HRN_BMAP_SPARE_USE 130 < 2
        ∧ (s.rd HRN_BMAP_FAILED 130).testBit 15 = false)
    ∧ (∀ cut ∈ [true, false], ∀ x ∈ [(16384, 18), (16383, 17)], let c : Careen := ⟨130, 14, 0, true, false, cut⟩
      let s := sLightW { Light.reset with careens := [c] } [(TID_COUNTER_TICKS, 0, x.1)]
      s.light.careens = [c] ∧ s.ticks = x.1 ∧ x.1 / 1024 + 2 ≤ x.2 * 1024 / 1024) := by decide +kernel
/-- Tick 1,023, with a bundle map whose EFFECT is the next tick. -/
def sMap (use : Nat) (c : List Careen) : State :=
  let s := sTide 1023
  { s with tide := { s.tide with maps := [(130, 14, use, 2048)] }, light := { Light.reset with careens := c } }
theorem wit_switchover : ∀ x ∈ ([(1, [⟨130, 14, 2048, false, false, false⟩]), (0, [⟨130, 14, 0, true, true, false⟩]), (2, [])] : List (Nat × List Careen)),
    let s := sMap x.1 x.2
    s.tide.started = true ∧ s.wk = 1023 ∧ s.plans = [] ∧ s.sec.handover = false ∧ s.tide.swapLatched = none ∧ s.tide.mroleLatched = none ∧ s.rd TID_STATUS_IDLE_NEXT = 0
      ∧ s.tide.maps = [(130, 14, x.1, s.ticks + 1)] ∧ s.light.careens = x.2 := by decide +kernel
theorem wit_rings : (regsOf [(HRN_RINGCAL_CAL_BUSY, 0, 1)]).rd HRN_RINGCAL_CAL_BUSY = 1 ∧ (regsOf [(HRN_RINGCAL_CAL_BUSY, 0, 1)]).light.todo = []
    ∧ s0.light.careens = [] ∧ s0.calm = false ∧ (regsOf [(TID_STATUS_OPT_MODE, 0, 1)]).calm = true
    ∧ (∀ p ∈ [9, 0], let s := regsOf [(HRN_PORTLIGHT_OPEN, 0, 513)]; (s.rd HRN_PORTLIGHT_OPEN).testBit p = true ∧ (s.rd HRN_PORTLIGHT_OFF).testBit p = false ∧ s.portLit p = true)
    ∧ s0.rd FAB_PLANE_STATE 0 = 0 ∧ (regsOf [(FAB_PLANE_STATE, 0, 3)]).rd FAB_PLANE_STATE 0 = 3 := by decide +kernel

def instF (kind st unit base cls count : Nat) : FltInst := ⟨kind, st, unit, base, cls, count, true, 0, false⟩
def sFlt (is : List FltInst) (l : List (Fld × Nat × Nat)) : State := { regsOf l with flt := { Flt.reset with insts := is } }
theorem wit_faults : kindOk 0x01 = true ∧ s0.rd FLT_KIND_BASE 1 = 0 ∧ s0.flt.insts = [] ∧ s0.flt.recs = []
    ∧ max 1 (s0.rd FLT_KIND_N 1) = (instF 1 0 0 0 0 (max 1 (s0.rd FLT_KIND_N 1))).count ∧ s0.rd FLT_KIND_BASE 3 = 2 ∧ s0.rd BWT_STATUS_SAFE = 0
    ∧ s0.rd FLT_KIND_BASE 0x31 ≤ 1 ∧ (543 : BitVec 16).toNat < 544 ∧ 543 ∉ (s0.coupler 23).failUp
    ∧ (instF 0x31 23 543 (s0.rd FLT_KIND_BASE 0x31) 1 (max 1 (s0.rd FLT_KIND_N 0x31))).cls = 1 := by decide +kernel
theorem wit_faultJobs : (⟨none, 0, [23], [23], .running, 0⟩ : Job).phase = .running ∧ 23 ∈ (⟨none, 0, [23], [23], .running, 0⟩ : Job).dies
    ∧ ({ s0 with dies := [(23, { Die.reset with running := true })] } : State).die 23 = { Die.reset with running := true }
    ∧ (s0.line 0 0).valid = 0 ∧ ((s0.setLine 0 0 { TLine.absent with valid := 1 }).line 0 0).valid ≠ 0 ∧ s0.blkErr (2 ^ 35 - 1) = BlkErr.none := by decide +kernel
theorem wit_windows : (instF 1 0 0 0 1 0).close ≤ s0.wall ∧ (instF 1 0 0 0 1 0).cls = (instF 1 0 0 0 1 0).base + 1 ∧ (instF 1 0 0 1 3 0).cls = (instF 1 0 0 1 3 0).base + 2
    ∧ (instF 1 0 0 1 3 0).cls ≤ 3 ∧ (instF 1 0 0 1 3 0).window = true := by decide +kernel
theorem wit_records : (⟨0, 0, 255, []⟩ : FltRec).place = collector 0 (stnId 0) 255 ∧ (⟨4, 0x30, 0, []⟩ : FltRec).place = collector 4 (stnId 40) 0
    ∧ s0.rd FLT_QUEUE_FULL = 0 ∧ (regsOf [(FLT_QUEUE_FULL, 0, 1)]).rd FLT_QUEUE_FULL = 1 := by decide +kernel
theorem wit_trips : popN 3 ((1 : BitVec 3).toNat ||| s0.rd BWT_STATUS_CH_FAILED) < 2 ∧ 2 ≤ popN 3 ((3 : BitVec 3).toNat ||| s0.rd BWT_STATUS_CH_FAILED)
    ∧ s0.rd BWT_STATUS_SAFE = 0 ∧ s0.rst.powered = true ∧ (smGet (fun _ => []) s0.flt.disagree 2 : List Nat) = []
    ∧ (smGet (fun _ => []) [(2, [(0 : Nat)])] 2 : List Nat) = [0] ∧ s0.wall < 0 + 100000000 ∧ s0.rd BWT_STATUS_CH_FAILED = 0
    ∧ (regsOf [(BWT_STATUS_CH_FAILED, 0, 1)]).rd BWT_STATUS_CH_FAILED = 1 ∧ (1 : Nat).testBit 2 = false
    ∧ ({ s0 with rst := { s0.rst with powered := false } } : State).rst.powered = false := by decide +kernel
/-- Each cause of Table 20-5 at its limit and just past it. -/
theorem wit_limitsPassed : (∀ x ∈ [(1, 6500), (2, 4800), (3, 100 * s0.rd BWT_TIGHTEN_CUR_TRIP), (4, 8000), (5, s0.rd BWT_TIGHTEN_HDL_TRIP), (6, s0.rd BWT_TIGHTEN_HBM_TRIP),
      (7, s0.rd BWT_TIGHTEN_HRB_TRIP), (8, 80)], s0.pastLimit x.1 x.2 1000 = false ∧ s0.pastLimit x.1 (if x.1 = 2 then 4799 else x.2 + 1) (if x.1 = 2 then 100 else 10) = true ∧ x.2 + 1 < 2 ^ 16)
    ∧ s0.pastLimit 10 0 0 = false ∧ (regsOf [(HRN_CART_INTERLOCK, 0, 0)]).pastLimit 10 0 0 = true ∧ s0.pastLimit 13 0 0 = false
    ∧ (regsOf [(BWT_STATUS_CH_FAILED, 0, 5)]).pastLimit 13 0 0 = true ∧ s0.pastLimit 0 0 0 = false
    ∧ s0.pastLimit 1 6501 9 = false ∧ s0.pastLimit 2 4799 99 = false ∧ s0.pastLimit 4 8001 9 = false ∧ s0.pastLimit 9 0 9 = false ∧ s0.pastLimit 9 0 10 = true := by decide +kernel
/-- Reset with host 1 as the owner. -/
def sOwn : State := regsOf [(GLB_HOSTCFG_OWNER_VALID, 0, 1), (GLB_HOSTCFG_OWNER, 0, 1)]
theorem wit_limits : s0.mayConfigure 2 = true ∧ sOwn.mayConfigure 1 = true ∧ s0.rd BWT_TIGHTEN_LOCK = 0 ∧ (regsOf [(BWT_TIGHTEN_LOCK, 0, 1)]).rd BWT_TIGHTEN_LOCK = 1
    ∧ sOwn.owns 1 = true ∧ sOwn.owns 0 = false ∧ s0.rd FLT_STATUS_FACTORY = 0 ∧ (regsOf [(FLT_STATUS_FACTORY, 0, 1)]).rd FLT_STATUS_FACTORY = 1
    ∧ s0.rd GLB_HOSTLOG_VALID = 0 ∧ s0.mayConfigure 3 = false ∧ 2 ≤ popN 3 ((6 : BitVec 3).toNat ||| s0.rd BWT_STATUS_CH_FAILED) := by decide +kernel

/-! ### Witnesses: sampler, rings, launches -/

/-- Stream 63 running, die 0 with a role, and a record in the intake. -/
def recS (kind node : Nat) (body : List Byte) : SRec := ⟨kind, 63, 0, node, 0, 24, 15, true, body, 0, false⟩
def sSmp (role : Nat) (x : Smp) (l : List (Fld × Nat × Nat)) : State :=
  { regsOf ((SMP_STATE_STATE, 63, 1) :: (TID_ROLE_ROLE, 0, role) :: (SMP_CFG_TOPK, 63, 1) :: l) with smps := [(63, x)] }
theorem wit_records2 : (sSmp 2 Smp.reset []).rd SMP_STATE_STATE 63 = 1 ∧ (sSmp 2 Smp.reset []).rd SMP_STATE_STEP 63 % 65536 = 0
    ∧ (sSmp 2 Smp.reset []).rd TID_ROLE_ROLE 0 = 2 ∧ (sSmp 4 Smp.reset []).rd TID_ROLE_ROLE 0 ≠ 2 ∧ s0.rd SMP_STATE_STATE 63 ≠ 1
    ∧ 1 ≤ (sSmp 2 Smp.reset []).rd SMP_CFG_TOPK 63 ∧ (∀ c ∈ ((sSmp 2 Smp.reset []).smp 63).ctxs, c.node ≠ 63)
    ∧ (regsOf [(SMP_CTX_USED, 0, 1023)]).rd SMP_CTX_USED < 1024
    ∧ ((sSmp 2 { Smp.reset with ctxs := [⟨63, 24, [(1, 15, true)], [(7, 0)], [7], false⟩] } []).smp 63).ctxs = [⟨63, 24, [(1, 15, true)], [(7, 0)], [7], false⟩]
    ∧ (0, 15) ∉ [((1 : Nat), (15 : Nat), true)].map (fun p => (p.1, p.2.1)) ∧ (sSmp 3 Smp.reset []).rd SMP_STATE_OPEN 63 = 0
    ∧ (sSmp 3 Smp.reset []).rd TID_ROLE_ROLE 0 = 3 ∧ (sSmp 4 Smp.reset []).rd TID_ROLE_ROLE 0 ≠ 3 ∧ 1024 ≤ (regsOf [(SMP_CTX_USED, 0, 1024)]).rd SMP_CTX_USED
    ∧ (let r := recS 1 63 (leBytes 4 7 ++ leBytes 4 0); r.stream < 64 ∧ r.sstn < 24 ∧ r.node < 64 ∧ r.slice < r.nslice ∧ r.nslice ≤ 24 ∧ r.part < 16 ∧ r.kind = 1)
    ∧ 7 ∈ (⟨63, 24, [(1, 15, true)], [(7, 0)], [7], false⟩ : NodeCtx).seen
    ∧ (treeNodes 2 (leBytes 4 1 ++ leBytes 4 255 ++ (leBytes 4 2 ++ leBytes 4 1))).2 = false := by decide +kernel
def ctxOf (node v : Nat) : NodeCtx := ⟨node, 1, [(0, 0, true)], [(v, 0x3F800000)], [v], false⟩
/-- An open step of two nodes, complete; the tokens 5 and 6 are their candidates. -/
def sStep (poison : Bool) (b v0 : Nat) (cycles : Nat) (l : List (Fld × Nat × Nat)) : State :=
  sSmp 2 { Smp.reset with tree := [(4, 255), (b, 0)], treePoison := poison, ctxs := [ctxOf 0 v0, ctxOf 1 6], cycles := cycles } ((SMP_STATE_OPEN, 63, 1) :: (SMP_TEMP_TEMP, 63, 0) :: l)
theorem wit_steps : (ctxOf 0 5).complete = true ∧ (sStep false 5 5 0 []).rd SMP_STATE_OPEN 63 = 1 ∧ (sStep false 5 5 0 []).rd SMP_STATE_RING_STALL 63 = 0
    ∧ (sStep false 5 5 0 []).rd SMP_TEMP_TEMP 63 = 0 ∧ (sStep false 5 5 0 []).rd SMP_CFG_PEN_EN 63 = 0 ∧ (sStep false 5 5 0 []).rd SMP_CFG_MAX_TOKENS 63 = 0
    ∧ (sStep false 5 5 0 []).rd BWT_STATUS_SAFE = 0 ∧ (sStep false 5 5 0 []).rd TWN_STATUS_STATE = 0 ∧ (sStep false 5 5 0 []).twn.stale = []
    ∧ (∀ v ∈ [5, 6], v ≠ (sStep false 5 5 0 []).rd SMP_STOP_STOP0 63 ∧ v ≠ (sStep false 5 5 0 []).rd SMP_STOP_STOP1 63)
    ∧ (sStep false 6 5 0 [(SMP_STOP_STOP0, 63, 5)]).rd SMP_STOP_STOP0 63 = 5
    ∧ max 1 ((sStep false 5 5 1 [(SMP_CTRL_TIMEOUT_CYC, 0, 1)]).rd SMP_CTRL_TIMEOUT_CYC 0) ≤ ((sStep false 5 5 1 [(SMP_CTRL_TIMEOUT_CYC, 0, 1)]).smp 63).cycles
    ∧ (sSmp 2 Smp.reset []).rd SMP_STATE_OPEN 63 = 0 := by decide +kernel
theorem wit_noTree : let s := sSmp 2 { Smp.reset with tree := [(4, 255)], cycles := 1 } [(SMP_STATE_OPEN, 63, 1), (SMP_CTRL_TIMEOUT_CYC, 0, 1)]
    s.rd SMP_STATE_OPEN 63 = 1 ∧ (s.smp 63).treePoison = false ∧ (s.smp 63).ctxs = [] ∧ (s.smp 63).tree ≠ [] ∧ (s.smp 63).short = false ∧ s.rd SMP_STATE_RING_STALL 63 = 0
      ∧ max 1 (s.rd SMP_CTRL_TIMEOUT_CYC 0) ≤ (s.smp 63).cycles ∧ (ctxOf 0 5).poison = false ∧ (ctxOf 1 6).complete = true := by decide +kernel
theorem wit_streams : s0.owns 1 = false ∧ s0.rd SMP_CFG_ENABLE 63 = 0 ∧ (regsOf [(SMP_CFG_TOPK, 63, 0)]).rd SMP_CFG_TOPK 63 = 0
    ∧ (regsOf [(SMP_CFG_TOPK, 63, 256), (SMP_TEMP_REP_PEN, 63, 0x3F800000), (SMP_TRUNC_TOP_P, 63, 0x3F800000)]).smpValid 63 = true
    ∧ 1024 < (regsOf [(SMP_CFG_PEN_WIN, 63, 1025)]).rd SMP_CFG_PEN_WIN 63 ∧ (List.replicate 64 (1 : Byte)).length = 64 := by decide +kernel
/-- Ring 127 active; its region starts at 0 with entries of 1 and 1. -/
def ring127 (l : List (Fld × Nat × Nat)) : State :=
  regsOf ((RNG_STAT_STATE, 127, 1) :: (SMP_CFG_OUT_HOST, 63, 1) :: (SMP_CFG_OUT_RING, 63, 63) :: l)
theorem wit_tokens : s0.rd TWN_STATUS_STATE ≠ 6 ∧ (ring127 []).tokenRing 63 = 127 ∧ (ring127 [(RNG_CFG_MODE, 127, 1)]).rd RNG_STAT_STATE 127 ≠ 0
    ∧ (ring127 [(RNG_CFG_MODE, 127, 1)]).rd RNG_CFG_MODE 127 = 1
    ∧ idxSub ((ring127 [(RNG_CFG_CQ_LOG2N, 127, 0), (RNG_IDX_CQ_TAIL, 127, 0), (RNG_IDX_CQ_HEAD, 127, 65535)]).rd RNG_IDX_CQ_TAIL 127)
        ((ring127 [(RNG_IDX_CQ_HEAD, 127, 65535)]).rd RNG_IDX_CQ_HEAD 127) = 2 ^ (ring127 [(RNG_CFG_CQ_LOG2N, 127, 0)]).rd RNG_CFG_CQ_LOG2N 127
    ∧ idxSub 0 0 ≠ (ring127 []).cqSize 127 ∧ (ring127 []).hbmReady ((ring127 []).cqAddr 127 0) 64 ∧ (ring127 []).rd RNG_CFG_IRQ_EN 127 = 0 := by
  unfold State.hbmReady; decide +kernel

def sRing (l : List (Fld × Nat × Nat)) (r : Ring) : State := { ring127 l with rings := [(127, r)] }
def taken (op param stream : Nat) (done : Option (Nat × Nat)) : Taken := ⟨0, op, 9, param, stream, done.isSome, done⟩
theorem wit_rings2 : 12 < (regsOf [(RNG_CFG_SQ_LOG2N, 127, 13)]).rd RNG_CFG_SQ_LOG2N 127 ∧ s0.rd PWR_STATE_STATE = 0 ∧ s0.rd RNG_CFG_ENABLE 127 = 0 ∧ s0.rd RNG_CFG_SQ_LOG2N 127 ≤ 12 ∧ s0.rd RNG_CFG_CQ_LOG2N 127 ≤ 12
    ∧ s0.rd RNG_BASE_BASE 127 % 4096 = 0 ∧ paOk 0 (0x1000 + 64 * s0.sqSize 127 + 64 * s0.cqSize 127) = true
    ∧ (let s := regsOf [(RNG_BASE_BASE, 127, 2 ^ 37 - 4096)]; s.rd RNG_BASE_BASE 127 % 4096 = 0
        ∧ paOk (s.rd RNG_BASE_BASE 127) (0x1000 + 64 * s.sqSize 127 + 64 * s.cqSize 127) = false)
    ∧ (ring127 []).rd RNG_STAT_STATE 127 = 1 ∧ (ring127 []).rd RNG_STAT_RUNNING 127 = 0 ∧ s0.rd RNG_STAT_STATE 127 ≠ 1
    ∧ (ring127 []).rd RNG_CFG_MODE 127 = 0 ∧ idxSub 1 ((ring127 []).rd RNG_IDX_SQ_HEAD 127) ≤ (ring127 []).sqSize 127
    ∧ (ring127 []).sqSize 127 < idxSub 65535 ((ring127 []).rd RNG_IDX_SQ_HEAD 127)
    ∧ idxSub ((ring127 []).rd RNG_IDX_CQ_TAIL 127) 0 < (ring127 []).cqSize 127 := by decide +kernel
def upRegs : List (Fld × Nat × Nat) := (List.range 8).map fun c => (GLB_FWCORE_STATE, c, coreRunning)
theorem wit_ringWork : (ring127 upRegs).workerUp 127 = true ∧ (ring127 [(RNG_IDX_SQ_TAIL, 127, 1)]).rd RNG_IDX_SQ_HEAD 127 ≠ (ring127 [(RNG_IDX_SQ_TAIL, 127, 1)]).rd RNG_IDX_SQ_TAIL 127
    ∧ (ring127 upRegs).hbmReady ((ring127 upRegs).sqAddr 127 0) 64 ∧ (ring127 upRegs).hbmReady 0 56 ∧ (taken 3 0 63 none).done = none
    ∧ (ring127 []).rd SMP_CFG_ENABLE 63 = 0 ∧ (ring127 []).rd SMP_CFG_OUT_HOST 63 = 127 / 64 ∧ s0.rd SMP_CFG_OUT_HOST 63 ≠ 127 / 64
    ∧ (∀ b ∈ [0, 1], ((BitVec.ofNat 64 (b * 2 ^ 28)).toNat / 2 ^ 28 % 2 = 127 / 64 ↔ b = 1))
    ∧ (sRing [] { Ring.reset with snap := (1, 0, 0) }).ring 127 = { Ring.reset with snap := (1, 0, 0) } ∧ (1, 0, 0) ≠ (((0, 0, 0)) : Nat × Nat × Nat)
    ∧ memNat [(0, (1 : Byte))] 0 8 ≠ (s0.ring 127).lastHb ∧ memNat [] 0 8 = (s0.ring 127).lastHb
    ∧ (let s := ring127 [(RNG_CFG_HB_TIMEOUT, 127, 1)]; s.rd RNG_STAT_HB_AGE 127 + 1 < 10 * min 600 (max 1 (s.rd RNG_CFG_HB_TIMEOUT 127)))
    ∧ (let s := ring127 [(RNG_CFG_HB_TIMEOUT, 127, 1), (RNG_STAT_HB_AGE, 127, 9)]; 10 * min 600 (max 1 (s.rd RNG_CFG_HB_TIMEOUT 127)) ≤ s.rd RNG_STAT_HB_AGE 127 + 1)
    ∧ (ring127 [(RNG_STAT_STATE, 127, 2)]).rd RNG_STAT_STATE 127 = 2 ∧ (ring127 []).rd PWR_STATE_STATE = 0 := by unfold State.hbmReady; decide +kernel
/-- Whatever else a state holds, these words of a stream pass the check of R316. -/
theorem wit_streamWords (u : State) (_h0 : rfWord u.regs SMP_CFG 63 = ((0x10000100 : W64) &&& 0xFFFFFFFF1FFFFFFE) ∨ rfWord u.regs SMP_CFG 63 = 2)
    (h1 : rfWord u.regs SMP_TEMP 63 = 0x3F80000000000000) (h2 : rfWord u.regs SMP_TRUNC 63 = 0x3F800000) :
    u.rd SMP_TEMP_TEMP 63 = 0 ∧ u.rd SMP_TEMP_REP_PEN 63 = 0x3F800000 ∧ u.rd SMP_TRUNC_TOP_P 63 = 0x3F800000 ∧ u.rd SMP_TRUNC_MIN_P 63 = 0 := by
  clear _h0
  have e1 : rfWord u.regs SMP_TEMP_TEMP.reg 63 = 0x3F80000000000000 := h1
  have e1' : rfWord u.regs SMP_TEMP_REP_PEN.reg 63 = 0x3F80000000000000 := h1
  have e2 : rfWord u.regs SMP_TRUNC_TOP_P.reg 63 = 0x3F800000 := h2
  have e2' : rfWord u.regs SMP_TRUNC_MIN_P.reg 63 = 0x3F800000 := h2
  simp only [State.rd, rfGet, e1, e1', e2, e2']
  decide
theorem wit_autoEntry : s0.rd TWN_STATUS_ARMED = 0 ∧ (∀ i, i < 128 → s0.rd RNG_STAT_STATE i ≠ 1) ∧ s0.plans = []
    ∧ (∃ e ∈ ([(0, { Ring.reset with used := true })] : SMap Ring), e.2.used = true)
    ∧ 0 + 6000000000 ≤ (regsOf [(TID_WALL_TICKS, 0, 6000000000)]).wall := by decide +kernel

/-- A launch image with one program section: one bundle for tile 0 of die 0, Calm mode. -/
def image : Mem := [(0, 0x01), (12, 0x02), (16, 0x01), (24, 0x80), (32, 0x5f), (33, 0xbf), (34, 0x19), (35, 0x5a), (64, 0x02), (80, 0x60), (88, 0x20), (96, 0x09)]
def sLaunch (l : List (Fld × Nat × Nat)) : State := { regsOf (upRegs ++ (GLB_HOSTCFG_OWNER_VALID, 0, 1) :: (GLB_HOSTCFG_OWNER, 0, 1) :: l) with hbm := image }
theorem wit_launch : (sLaunch []).supUp = true ∧ (sLaunch []).rd SEC_STATUS_WIPE_PENDING = 0 ∧ (sLaunch []).rd BWT_STATUS_SAFE = 0 ∧ (sLaunch []).owns 1 = true ∧ (sLaunch []).owns 0 = false
    ∧ (sLaunch []).rd GLB_POST_HOLD = 0 ∧ (sLaunch []).rd BWT_TRIP_PENDING = 0 ∧ (sLaunch []).armedLee = false ∧ (sLaunch []).hbmReady 0 (max 64 (memNat (sLaunch []).hbm 24 8))
    ∧ (sLaunch []).hbmReady 0 64 ∧ (let m : Mem := smRun (fun _ => 0) 0 (memBytes (sLaunch []).hbm 0 (max 64 (memNat (sLaunch []).hbm 24 8)))
      (sLaunch []).launchCode m 1 0 false = 0 ∧ (sLaunch [(GLB_POST_HOLD, 0, 2)]).launchCode m 1 0 false ≠ 0 ∧ sectsOf m 0 = [⟨2, 0, 0, 0, 0, 0, 96, 32, false⟩])
    ∧ (sLaunch [(GLB_POST_HOLD, 0, 1)]).rd GLB_POST_HOLD = 1 ∧ 4095 % 4096 ≠ 0 := by unfold State.hbmReady; decide +kernel
theorem wit_job : (⟨none, 0, [0], [0], .running, 0⟩ : Job).dies = [0] ∧ (s0.die 0).running = false ∧ (taken 2 0 0 none).idx = 0 ∧ (taken 2 0 0 none).started = false := by decide +kernel
/-! ### Witnesses: mailboxes, hosts, Ferry, power -/

theorem wit_mailboxes : s0.rd PWR_STATE_STATE = 0 ∧ s0.mbxOk 63 2 true = true ∧ (regsOf [(MBX_STAT_FULL, 63, 1)]).mbxOk 63 2 true = true
    ∧ (regsOf [(MBX_STAT_FULL, 63, 1)]).rd MBX_STAT_FULL 63 = 1 ∧ s0.rd MBX_STAT_FULL 63 = 0 ∧ s0.mbxOk 63 9 true = false ∧ s0.mbxOk 63 9 false = false
    ∧ (∃ m ∈ List.range 12, s0.mbxOk 63 m false = true) ∧ (11 : Master).val = 11 ∧ s0.rd MBX_CTRL_LOCK = 0 := by decide +kernel
def sHost (l : List (Fld × Nat × Nat)) : State := regsOf ((GLB_PORT_LINK_UP, 0, 1) :: l)
theorem wit_bar2 : (s0.bar2Pa 1 0 = some 0) ∧ s0.rd BWT_STATUS_SAFE = 0 ∧ s0.portClear 40 ∧ paOk 0 8 = true ∧ (s0.shg 0).lost = false ∧ paOk (2 ^ 37 - 4096) 8192 = false
    ∧ ((s0.setShg 0 { Shg.reset with lost := true }).shg 0).lost = true ∧ (regsOf [(GLB_POST_HBM_READY, 0, 1)]).bar2Up = true
    ∧ (regsOf [(GLB_POST_HBM_READY, 0, 1)]).hbmOpen = true ∧ (regsOf [(PWR_STATE_STATE, 0, 2)]).rd PWR_STATE_STATE = 2 := by
  unfold State.portClear; decide +kernel
/-- A BAR2 read of 4 bytes at offset 30 of port 1, two units of stack 0, outstanding at a wall count. -/
def rqBar2 : MemReq := ⟨1, 40, 0, 0, 1, 0, 2, none, .hrb (.bar2Read 1 30 4), 0, 0, [], 0, leBytes 64 0, [false, false], false⟩
def sBar2 (wall : Nat) : State :=
  { regsOf [(TID_WALL_TICKS, 0, wall)] with mreqs := [rqBar2], inbox := [(40, 24, ⟨3, 0, 0, 0, 2, 0, 0, 0, List.replicate 64 7, [false, false]⟩)] }
theorem wit_bar2Ends : (sBar2 0).mreqs = [rqBar2] ∧ rqBar2.q = 40 ∧ rqBar2.dest = .hrb (.bar2Read 1 30 4) ∧ rqBar2.kind = 1 ∧ (sBar2 0).hrbDone = [] ∧ (sBar2 0).mwait = []
    ∧ rqBar2.code = 0 ∧ rqBar2.data.length = 32 * rqBar2.len ∧ rqBar2.seen = [] ∧ (List.replicate 64 (7 : Byte)).length = 32 * rqBar2.len
    ∧ rqBar2.rid = (0 : BitVec 12).toNat ∧ rqBar2.wall + 32768 ≤ (sBar2 32768).wall := by decide +kernel
theorem wit_vectors : (let p : Port := { Port.reset with enable := true, busMaster := true, pend := 1 }
      p.enable = true ∧ p.busMaster = true ∧ p.funcMask = false ∧ ∀ w, w < 256 → p.pend.getLsbD w = true → p.mask.getLsbD w = true)
    ∧ (sHost []).rd GLB_PORT_LINK_UP 0 = 1 ∧ (s0.port 0).pend = 0 := by decide +kernel
theorem wit_ownership : s0.rd GLB_HOSTCFG_OWNER_VALID = 0 ∧ sOwn.rd GLB_HOSTCFG_OWNER_VALID = 1 ∧ sOwn.owns 1 = true ∧ s0.owns 1 = false
    ∧ sOwn.rd GLB_HOSTCFG_OWNER = 1 - 0 ∧ sOwn.rd GLB_PORT_LINK_UP (1 - 0) = 0
    ∧ (sOwn.port 1).downAt + 100000000 ≤ (sOwn.wr TID_WALL_TICKS 0 100000000).wall ∧ ¬((sOwn.port 1).downAt + 100000000 ≤ sOwn.wall)
    ∧ (∀ n, n < 64 → sOwn.rd RNG_STAT_STATE (64 + n) = 0) := by decide +kernel
def desc0 : FryDesc := ⟨0, 4096, 64, 0, false, 0, 0, false, 0, false, 5, 0, 0, [], 0, 0, 0, false⟩
theorem wit_portReset : (({ s0 with frys := [(31, { Fry.reset with cur := some { desc0 with ss := 2 } })] } : State).fry 31).cur = some { desc0 with ss := 2 }
    ∧ ({ desc0 with ss := 2 } : FryDesc).ss = 1 + 1 ∧ desc0.ss ≠ 1 + 1 ∧ desc0.ds ≠ 1 + 1 := by decide +kernel

def fryRegs (l : List (Fld × Nat × Nat)) : State := regsOf ((FRY_CFG_ENABLE, 31, 1) :: (FRY_STAT_STATE, 31, 1) :: l)
theorem wit_ferry : s0.fryMay 31 2 = true ∧ s0.fryMay 31 0 = false ∧ s0.fryMay 31 60 = false ∧ s0.rd FRY_CFG_ENABLE 31 = 0 ∧ s0.rd FRY_RING_LOG2N 31 ≤ 12 ∧ s0.rd FRY_CQ_LOG2N 31 ≤ 12
    ∧ s0.rd FRY_CFG_TRIG 31 = 0 ∧ s0.rd FRY_CQ_SIDE 31 = 0 ∧ 12 < (regsOf [(FRY_RING_LOG2N, 31, 13)]).rd FRY_RING_LOG2N 31
    ∧ (regsOf [(FRY_CFG_TRIG, 31, 1), (FRY_CFG_SRC_CH, 31, 31)]).rd FRY_CFG_TRIG 31 = 1 ∧ (regsOf [(FRY_CFG_SRC_CH, 31, 31)]).rd FRY_CFG_SRC_CH 31 = 31
    ∧ (s0.fry 31).cur = none ∧ (s0.fry 31).held = none ∧ ({ s0 with frys := [(31, { Fry.reset with cur := some desc0 })] } : State).fry 31 = { Fry.reset with cur := some desc0 }
    ∧ s0.mayConfigure 2 = true ∧ (fryRegs []).rd FRY_CFG_ENABLE 31 = 1
    ∧ idxSub (1 : BitVec 16).toNat (s0.rd FRY_IDX_HEAD 31) ≤ 2 ^ s0.rd FRY_RING_LOG2N 31
    ∧ 2 ^ (fryRegs []).rd FRY_RING_LOG2N 31 < idxSub (65535 : BitVec 16).toNat ((fryRegs []).rd FRY_IDX_HEAD 31) := by decide +kernel
theorem wit_ferryStart : (fryRegs [(FRY_CFG_TRIG, 31, 2)]).rd FRY_CFG_TRIG 31 = 2 ∧ (fryRegs []).rd TID_STATUS_IDLE_NOW = 0
    ∧ (fryRegs []).rd FRY_TIMER_NEXT 31 ≤ (fryRegs []).ticks ∧ (fryRegs []).rd FRY_STAT_STATE 31 ≠ 3 ∧ (fryRegs []).rd PWR_STATE_STATE = 0
    ∧ (fryRegs [(FRY_IDX_TAIL, 31, 1)]).rd FRY_IDX_HEAD 31 ≠ (fryRegs [(FRY_IDX_TAIL, 31, 1)]).rd FRY_IDX_TAIL 31
    ∧ (fryRegs []).hbmReady ((fryRegs []).rd FRY_RING_BASE 31 / 64 * 64 + 0 % 2 ^ (fryRegs []).rd FRY_RING_LOG2N 31 * 64) 64
    ∧ memBytes (memStore [] 0 (leBytes 8 64 ++ leBytes 8 4096 ++ leBytes 4 64 ++ leBytes 2 0 ++ leBytes 1 1 ++ leBytes 1 0 ++ leBytes 4 5 ++ leBytes 36 0)) 0 64
        = leBytes 8 64 ++ leBytes 8 4096 ++ leBytes 4 64 ++ leBytes 2 0 ++ leBytes 1 1 ++ leBytes 1 0 ++ leBytes 4 5 ++ leBytes 36 0
    ∧ paOk 64 64 = true ∧ paOk 4096 64 = true ∧ s0.rd BWT_STATUS_SAFE = 0 ∧ paOk (2 ^ 37 - 64) 64 = false ∧ (regsOf [(GLB_POST_HBM_READY, 0, 1)]).hbmOpen = true := by unfold State.hbmReady; decide +kernel
/-- Channel 31 moves `desc0`, with a burst, and a request of that burst whose answer has come. -/
def burst0 (data : Option (List Byte × List Bool)) (w : Bool) : FryBurst := ⟨0, 64, data, w⟩
def rqFry (dest : HrbOp) (kind : Nat) : MemReq := ⟨1, 40, 0, 0, kind, 64, 2, none, .hrb dest, 0, 0, [], 0, leBytes 64 0, [false, false], false⟩
def sFry (d : FryDesc) (l : List (Fld × Nat × Nat)) : State := { fryRegs l with frys := [(31, { Fry.reset with cur := some d })] }
theorem wit_ferryBursts : (∀ k, k < 32 → k ≠ 31 → ((sFry desc0 []).fry k).cur = none) ∧ desc0.stop = false ∧ desc0.next < desc0.len ∧ desc0.bursts.length < 2
    ∧ (sFry desc0 []).rd FRY_STAT_STATE 31 = 1 ∧ (sFry desc0 []).rd PWR_STATE_STATE = 0 ∧ (sFry desc0 []).rd BWT_STATUS_SAFE = 0 ∧ desc0.ss = 0 ∧ desc0.ds = 0
    ∧ ((sFry desc0 []).shg 0).lost = false ∧ (sFry desc0 []).portClear 40
    ∧ (∀ b ∈ [true, false], let s := { sFry { desc0 with ss := 2 } [(GLB_PORT_LINK_UP, 1, 1)] with ports := [(1, { Port.reset with busMaster := b })] }
      (s.port 1).busMaster = b ∧ s.rd GLB_PORT_LINK_UP 1 = 1)
    ∧ (∀ dat ∈ [none, some (List.replicate 64 1, [])], let d := { desc0 with bursts := [burst0 dat false] }
      ((sFry d []).fry 31).cur = some d ∧ d.bursts = [burst0 dat false] ∧ (burst0 dat false).len % 32 = 0 ∧ (d.dst + 0) % 32 = 0)
    ∧ (List.replicate 64 (1 : Byte)).length = (burst0 none false).len := by unfold State.portClear; decide +kernel
theorem wit_ferryReturns : ∀ x ∈ ([(.fryRead 31 0, 1, 3), (.fryWrite 31 0, 2, 4)] : List (HrbOp × Nat × Nat)),
    let r := rqFry x.1 x.2.1
    let m : MMsg := ⟨x.2.2, 0, 0, 64, 2, 0, 0, 0, List.replicate 64 7, [false, false]⟩
    let s : State := { sFry { desc0 with bursts := [burst0 none false] } [] with mreqs := [r], inbox := [(40, 24, m)] }
    s.mreqs = [r] ∧ r.q = 40 ∧ r.k = 0 ∧ s.hrbDone = [] ∧ s.mwait = [] ∧ s.inbox = [(40, 24 + 0, m)] ∧ r.rid = m.rid ∧ r.code = 0 ∧ m.code = 0 ∧ r.dest = .hrb x.1
      ∧ r.kind = x.2.1 ∧ m.data.length = 32 * r.len ∧ r.data.length = 32 * r.len ∧ r.seen = [] := by decide +kernel
theorem wit_ferryEnds : (let d := { desc0 with next := 64 }; d.bursts = [] ∧ d.len ≤ d.next ∧ d.code < 256) ∧ (fryRegs []).rd FRY_CFG_ENABLE 31 = 1
    ∧ ¬(idxSub ((fryRegs []).rd FRY_IDX_CQ_TAIL 31) ((fryRegs []).rd FRY_IDX_CQ_HEAD 31) = 2 ^ (fryRegs []).rd FRY_CQ_LOG2N 31)
    ∧ (let s := fryRegs [(FRY_IDX_CQ_TAIL, 31, 2 ^ s0.rd FRY_CQ_LOG2N 31)]; idxSub (s.rd FRY_IDX_CQ_TAIL 31) (s.rd FRY_IDX_CQ_HEAD 31) = 2 ^ s.rd FRY_CQ_LOG2N 31)
    ∧ (List.replicate 32 (1 : Byte)).length = 32 ∧ (fryRegs []).hbmReady ((fryRegs []).rd FRY_CQ_ADDR 31 * 64) 32 ∧ (fryRegs []).rd FRY_CQ_SIDE 31 = 0
    ∧ (fryRegs [(FRY_CQ_SIDE, 31, 2)]).rd FRY_CQ_SIDE 31 = 2 ∧ (s0.port 1).busMaster = false
    ∧ (({ s0 with frys := [(31, { Fry.reset with held := some (List.replicate 32 1, false) })] } : State).fry 31).held = some (List.replicate 32 1, false) := by
  unfold State.hbmReady; decide +kernel

def sUp : State := { s0 with rst := { Rst.reset with held := false } }
theorem wit_power : s0.rst.held = true ∧ s0.rst.powered = true ∧ (4799 < 4800) ∧ (6501 > 6500) ∧ (4800 ≤ (5399 : BitVec 16).toNat ∧ (5399 : BitVec 16).toNat < 5400)
    ∧ (6300 < (6301 : BitVec 16).toNat) ∧ s0.rd BWT_STATUS_SAFE = 0 ∧ sUp.rst.held = false ∧ sUp.rst.powered = true
    ∧ (((sUp.wall, 5400, 8000) :: sUp.pwr.samples).take 100).length < 100 ∧ 8000 < (8001 : BitVec 16).toNat
    ∧ (let s := { sUp with pwr := { sUp.pwr with samples := List.replicate 100 (0, 5400, 6201) } }
      let xs := ((s.wall, 5400, 6201) :: s.pwr.samples).take 100
      xs.length = 100 ∧ 100 * s.rd BWT_TIGHTEN_CUR_TRIP < (xs.map (·.2.2)).sum / xs.length % 65536) := by decide +kernel
theorem wit_temperature : (smGet (fun _ => 0) sUp.pwr.excl 0 : Nat) = 0 ∧ sUp.rd THM_STN_SUSPECT 23 = 0 ∧ 1040 ≤ 1040 + 80
    ∧ sUp.pwr.own.lookup 47 = none ∧ 1040 ≤ 10 * sUp.rd BWT_TIGHTEN_HDL_TRIP ∧ 10 * sUp.rd BWT_TIGHTEN_HDL_TRIP < 1101
    ∧ sUp.rd THM_STN_THR_REQ 0 = 0 ∧ (regsOf [(THM_STN_THR_REQ, 0, 7)]).rd THM_STN_THR_REQ 0 = 7
    ∧ (regsOf [(THM_STN_THR_REQ, 0, 1)]).rd THM_STN_THR_REQ 0 = 1 ∧ sUp.pwr.blind = [] ∧ (smGet (fun _ => 0) sUp.pwr.own 65 : Nat) < 700
    ∧ sUp.rd THM_STN_THR_REQ 40 = 0 := by decide +kernel
/-! ### Witnesses: low power, SMBus, resets, boot, firmware, security -/

theorem wit_lowPower : s0.mayConfigure 2 = true ∧ s0.mayConfigure 0 = false ∧ s0.mayConfigure 9 = false ∧ s0.busy = false ∧ s0.armedLee = false
    ∧ (regsOf [(SMP_CFG_ENABLE, 63, 1)]).busy = true ∧ s0.rd PWR_STATE_STATE = 0 ∧ (∀ v ∈ [1, 2, 3, 4, 5], (regsOf [(PWR_STATE_STATE, 0, v)]).rd PWR_STATE_STATE = v)
    ∧ (∀ d, d < 24 → s0.rd TPL_MAINT_BUSY d = 0) ∧ s0.notes = [] ∧ s0.rd FAB_SQUALL_CTRL_EN = 0 ∧ s0.links = [] ∧ s0.pwr.asleep = false ∧ (∀ c, c < 32 → (s0.fry c).cur = none)
    ∧ ({ s0 with pwr := { s0.pwr with asleep := true } } : State).pwr.asleep = true ∧ s0.pwr.becalmed = false
    ∧ smWf regDefault (regsOf [(PWR_STATE_STATE, 0, 5)]).regs = true := by decide +kernel
theorem wit_smbus : s0.rst.powered = true ∧ s0.rst.held = true ∧ sUp.rst.held = false ∧ (∀ e, e < 24 → sUp.rd THM_STN_GOV e ≤ sUp.rd THM_STN_GOV 23)
    ∧ (∀ e, e < 16 → sUp.rd THM_STN_GOV (24 + e) ≤ sUp.rd THM_STN_GOV (24 + 15)) ∧ (smGet (fun _ => []) [(0, List.replicate 64 (1 : Byte))] 0 : List Byte).length = 64
    ∧ (((List.replicate 64 (1 : Byte)).drop (32 * 1)).take 32).length = 32 := by decide +kernel
theorem wit_dieResets : stnQ (0x30 : BitVec 8).toNat = some 40 ∧ stnQ (0x18 : BitVec 8).toNat = none ∧ stnQ (0 : BitVec 8).toNat = some 0 ∧ stnQ (0x2F : BitVec 8).toNat = some 39
    ∧ s0.inReset 39 = false ∧ (regsOf [(GLB_DIERST_SHG, 0, 2 ^ 15)]).inReset 39 = true ∧ (regsOf [(GLB_DIERST_HDL, 0, 2 ^ 23)]).inReset 23 = true ∧ s0.mreqs = [] ∧ s0.mwait = [] ∧ s0.hrbDone = []
    ∧ s0.kvUndo = [] ∧ s0.notes = [] ∧ (s0.coupler 23).undo = [] ∧ s0.mayConfigure 2 = true ∧ s0.rd PWR_STATE_STATE = 0 ∧ (regsOf [(PWR_STATE_STATE, 0, 2)]).rd PWR_STATE_STATE ≠ 0
    ∧ smGet (fun _ => ((0 : Nat), false)) ([(23, (5, true))] : SMap (Nat × Bool)) 23 = (5, true)
    ∧ 0 + 100 ≤ (regsOf [(TID_WALL_TICKS, 0, 100)]).wall ∧ ¬(0 + 100 ≤ (regsOf [(TID_WALL_TICKS, 0, 99)]).wall) ∧ s0.rd GLB_RESET_HOLD = 0 ∧ s0.pwr.coreOut = []
    ∧ s0.rst.bad = [] := by decide +kernel
theorem wit_moduleResets : sUp.rst.powered = true ∧ smWf regDefault sUp.regs = true ∧ smWf (fun _ => Shg.reset) sUp.shgs = true ∧ (0x5A : BitVec 8).toNat = 0x5A
    ∧ (regsOf [(STL_STATUS_NEXT_SEQ, 0, 1)]).rd STL_STATUS_NEXT_SEQ = 0 + 1 ∧ ({ s0 with rst := { Rst.reset with powered := false } } : State).rst.powered = false
    ∧ s0.rd BWT_STATUS_SAFE = 0 ∧ (regsOf [(BWT_STATUS_SAFE, 0, 1)]).rd BWT_STATUS_SAFE = 1 ∧ s0.inReset 39 = false ∧ (regsOf [(GLB_DIERST_SHG, 0, 2 ^ 15)]).inReset 39 = true
    ∧ s0.pwr.coreOut = [] ∧ s0.pwr.serOut = [] := by decide +kernel
theorem wit_boot : s0.sec.wipe = none ∧ s0.sec.card = none ∧ s0.rst.held = true ∧ s0.fw.bootSlot = false ∧ (s0.slot false).st ≠ 0
    ∧ ({ s0 with sec := { Sec.reset with slotB := { Slot.empty with st := 1 } } } : State).slot true = { Slot.empty with st := 1 }
    ∧ (∀ n, n < 66 → rfWord s0.regs GLB_FUSE n = regDefault (regKey GLB_FUSE n)) ∧ ({ sUp with fw := { Fw.reset with phase := 2 } } : State).fw.s0Bad = false
    ∧ s0.rd GLB_POST_STATE = 0 ∧ (regsOf [(GLB_POST_STATE, 0, 2)]).rd GLB_POST_STATE ≠ 0 := by decide +kernel
/-- A container header of version 1 with one byte of contents. -/
def contH (typ : Byte) : List Byte := leBytes 4 1 ++ [typ] ++ leBytes 23 0 ++ leBytes 4 1 ++ leBytes 96 0
def goodCrypto : Crypto := ⟨true, true, true, [7]⟩
def sCont (typ : Byte) (l : List (Fld × Nat × Nat)) : State := { regsOf (upRegs ++ l) with hbm := memStore [] 0 (contH typ) }
theorem wit_firmware : s0.supCore = 0 ∧ s0.fw.phase = 0 ∧ s0.rd GLB_RTLOAD_BUSY = 0 ∧ s0.rd SEC_UPD_STAGE ≠ 5 ∧ (regsOf upRegs).rd GLB_FWCORE_STATE 7 = 2
    ∧ (regsOf [(GLB_RTLOAD_BUSY, 0, 1)]).rd GLB_RTLOAD_BUSY = 1 ∧ (regsOf upRegs).supUp = true ∧ (regsOf (upRegs ++ [(GLB_FWCORE_STATE, 7, 3)])).rd GLB_FWCORE_STATE 7 = 3
    ∧ (∀ d ∈ [2, 3, 4, 5, 6], (regsOf (upRegs ++ [(GLB_FWCORE_STATE, 7, 3)])).rd GLB_FWCORE_STATE d ≠ 3) ∧ workerOf 127 = 2 + 3
    ∧ (∀ k, k < 128 → (s0.ring k).taken = []) ∧ (∀ k, k < 127 → (regsOf [(RNG_IDX_SQ_TAIL, 127, 1)]).rd RNG_IDX_SQ_TAIL k = 0) := by decide +kernel
theorem wit_containers : (∀ typ ∈ [(1 : Byte), 2], (let s := sCont typ []; let h := memBytes s.hbm 0 128
      s.hbmReady 0 128 ∧ s.hbmReady 0 (contSize h) ∧ fieldAt h 0 4 = 1 ∧ contLen h ≤ 0x100000 ∧ s.contCheck h goodCrypto typ.toNat = 0 ∧ s.contCheck h { goodCrypto with sig := false } typ.toNat = 4))
    ∧ (sCont 2 []).rd GLB_FWSTAT_RT_LOADED = 0 ∧ (sCont 2 []).workHeld = false ∧ (regsOf [(SMP_CFG_ENABLE, 63, 1)]).workHeld = true
    ∧ ({ Fw.reset with rtAddr := 1 } : Fw).rtAddr % 4096 ≠ 0 := by unfold State.hbmReady; decide +kernel
theorem wit_supervisor : (([] : List Nat).filter fun w => decide (0 < w + 1000000000)).length < 3 ∧ 3 ≤ (([0, 0, 0] : List Nat).filter fun w => decide (999999999 < w + 1000000000)).length
    ∧ s0.stl.waiting = [] ∧ s0.rd GLB_FWSTAT_PARKED = 0 ∧ 0 + 50000000 ≤ (regsOf [(TID_WALL_TICKS, 0, 50000000)]).wall := by decide +kernel
theorem leBytes_length (n v : Nat) : (leBytes n v).length = n := by
  induction n generalizing v with
  | zero => rfl
  | succ n ih => simp only [leBytes, List.length_cons, ih]
/-- A report fits in HBM at address 0. -/
theorem wit_report : s0.hbmReady 0 (s0.report (leBytes 32 0)).length := by
  refine ⟨?_, by decide +kernel, rfl, rfl⟩
  have h : (s0.report (leBytes 32 0)).length ≤ 65536 := by decide +kernel
  simp only [paOk, Bool.and_eq_true, decide_eq_true_eq]
  have : 65536 ≤ holeBase := by decide
  omega
theorem wit_security : s0.rd SEC_ATTEST_BUSY = 0 ∧ reportAt (4095 : BitVec 41).toNat = false ∧ reportAt (4096 : BitVec 41).toNat = true ∧ s0.hbmReady 4096 32
    ∧ (let s := { regsOf upRegs with stl := { Stl.reset with seals := 1 } }; s.supUp = true ∧ 0 < s.stl.seals ∧ s.powerS < s.stl.lastSeal + 60)
    ∧ (regsOf [(SEC_UPD_STAGE, 0, 1)]).updateBusy = true ∧ s0.updateBusy = false ∧ s0.rd GLB_FWSTAT_SUP_DEAD = 0 ∧ s0.rd SEC_UPD_ADDR_ADDR % 4096 = 0
    ∧ s0.rd SEC_WIPE_BUSY = 0 ∧ s0.wipeRefused = false ∧ (regsOf [(SEC_UPD_STAGE, 0, 5)]).wipeRefused = true ∧ reportAt (s0.rd SEC_WIPE_ADDR_ADDR) = true
    ∧ 28 ≤ s0.rd STL_STATUS_FREE ∧ s0.rd STL_STATUS_NEXT_SEQ + 28 < 2 ^ 32 ∧ (let s := regsOf [(TID_WALL_TICKS, 0, 8640000000000)]; s.stl.lastSeal + 86400 ≤ s.powerS)
    ∧ s0.powerS < s0.stl.lastSeal + 86400 ∧ s0.stl.seals = 0 ∧ (regsOf [(SEC_UPD_STAGE, 0, 3)]).rd SEC_UPD_STAGE = 3
    ∧ (let s := { regsOf [(SEC_UPD_STAGE, 0, 5)] with sec := { Sec.reset with deadline := 1 } }; s.wall < s.sec.deadline) ∧ s0.sec.deadline ≤ s0.wall
    ∧ (let s := { sUp with regs := (regsOf [(SEC_STATUS_WIPING, 0, 1)]).regs }; s.rd SEC_STATUS_WIPING = 1 ∧ s.sec.wiped = false ∧ s.sec.engine = [] ∧ s.sec.stacksDone = false
        ∧ smWf regDefault s.regs = true) := by unfold State.hbmReady; decide +kernel
def scripted (script : List Byte) (l : List (Fld × Nat × Nat)) : State :=
  { regsOf (upRegs ++ (SEC_CARD_SCRIPT_RUN, 0, 1) :: l) with sec := { Sec.reset with script := script } }
theorem wit_card : (regsOf [(SEC_CARD_CARD_EN, 0, 1), (GLB_POST_HARBOUR, 0, 1)]).rd SEC_CARD_CARD_EN = 1 ∧ (regsOf [(SEC_CARD_CARD_EN, 0, 0)]).rd SEC_CARD_CARD_EN = 0
    ∧ (regsOf upRegs).contCheck ((contH 3).take 128) goodCrypto 3 = 0 ∧ (regsOf upRegs).contCheck ((contH 1).take 128) goodCrypto 3 = 8
    ∧ (scripted (leBytes 4 1 ++ leBytes 4 8 ++ leBytes 8 0) []).scriptReady = true ∧ 8 % 8 = 0 ∧ 9 % 8 ≠ 0 ∧ s0.rd GLB_HOSTCFG_OWNER_VALID = 0
    ∧ sOwn.rd GLB_HOSTCFG_OWNER_VALID = 1 ∧ s0.rd SMP_CFG_ENABLE 0 = 0 ∧ (∀ b ∈ [(3 : Byte), 4, 5, 6, 7], (leBytes 16 b.toNat).length = 16 ∧ (leBytes 16 b.toNat).take 1 = [b])
    ∧ (scripted [] [(SEC_UPD_STAGE, 0, 5)]).wipeRefused = true ∧ (scripted [] []).wipeRefused = false
    ∧ (let s := { scripted [] [] with rst := { Rst.reset with held := false } }; s.rst.powered = true ∧ smWf regDefault s.regs = true) := by decide +kernel

def sTwin (st : Nat) (x : Twn) (l : List (Fld × Nat × Nat)) : State := { regsOf ((TWN_STATUS_STATE, 0, st) :: l) with twn := x }
def hdr (st : BitVec 3) (dseq ack : BitVec 32) : TwinHdr := ⟨1, true, st, 0, dseq, ack⟩
theorem wit_twin : (∀ st ∈ [1, 2, 3, 4, 5, 6], (sTwin st Twn.reset []).rd TWN_STATUS_STATE = st) ∧ s0.rd TWN_CTRL_PAIR_ID = 0 ∧ s0.rd BWT_STATUS_SAFE = 0
    ∧ ackCovers 5 (s0.rd TWN_STATUS_ACKSEQ) = true ∧ ackCovers 5 5 = true ∧ 1 - 1 ∈ ({ Twn.reset with heard := [0] } : Twn).heard ∧ (2 : BitVec 2).toNat + (regsOf [(TWN_CTRL_WANT, 0, 1)]).rd TWN_CTRL_WANT = 3
    ∧ 1 - 1 ∉ Twn.reset.heard ∧ (sTwin 4 Twn.reset [(TWN_STATUS_ARMED, 0, 1)]).rd TWN_STATUS_ARMED = 1 ∧ Twn.reset.expect = (hdr 2 0 0).dseq.toNat
    ∧ ({ Twn.reset with expect := 1 } : Twn).expect = (hdr 2 0 0).dseq.toNat + 1 ∧ s0.hbmReady 0 64 := by unfold State.hbmReady; decide +kernel
def sWall (st wall : Nat) (x : Twn) (l : List (Fld × Nat × Nat)) : State := sTwin st x ((TID_WALL_TICKS, 0, wall) :: l)
theorem wit_twinTimes : (sWall 1 500 Twn.reset []).twn.sentHb + 500 ≤ (sWall 1 500 Twn.reset []).wall ∧ (sWall 1 499 Twn.reset []).wall < Twn.reset.sentHb + 500
    ∧ (sWall 2 0 { Twn.reset with paired := true, bulked := true } [(TWN_REGION_VALID, 0, 1)]).copying = true
    ∧ (sWall 2 0 { Twn.reset with paired := true, bulked := true } [(TWN_REGION_VALID, 0, 1)]).coveredStreams = [0]
    ∧ 0 + 1000 ≤ (sWall 2 1000 Twn.reset []).wall ∧ ((sWall 1 2000 Twn.reset [(TWN_STATUS_PORTS_UP, 0, 2)]).rd TWN_STATUS_PORTS_UP).testBit 1 = true
    ∧ (smGet (fun _ => 0) Twn.reset.rxWall 1 : Nat) + 2000 ≤ (sWall 1 2000 Twn.reset []).wall ∧ (smGet (fun _ => 0) Twn.reset.hbWall 1 : Nat) + 2000 ≤ (sWall 1 2000 Twn.reset []).wall
    ∧ (∀ v ∈ [0, 1], (regsOf [(TWN_CTRL_SILENCE_FENCE, 0, v)]).rd TWN_CTRL_SILENCE_FENCE = v) := by decide +kernel

/-- A frame of the pair reaches a live port with no register write waiting, in every state of the pair. -/
theorem wit_twinLink : (∀ st ∈ [1, 2, 3, 4, 5, 6], (let s := sTwin st Twn.reset []; let h := hdr 1 0 5
      s.rd TWN_STATUS_STATE ≠ 0 ∧ h.good = true ∧ h.pairId.toNat = s.rd TWN_CTRL_PAIR_ID ∧ s.rd BWT_STATUS_SAFE = 0 ∧ s.twinDark h.port.val = false ∧ s.twn.gates = [] ∧ s.twn.rewrite = []
        ∧ s.twn.squall = [] ∧ s.twn.ahead = [] ∧ s.twn.gathers = [] ∧ s.rd FAB_SQUALL_CTRL_EN = 0 ∧ s.twinDark 0 = false ∧ s.twinDark 1 = false ∧ s.plans = []))
    ∧ (sTwin 2 Twn.reset [(HRN_PORTLIGHT_OFF, 0, 0x200)]).twinDark 1 = true ∧ (sTwin 2 Twn.reset [(HRN_PORTLIGHT_OPEN, 0, 0x100)]).twinDark 0 = true
    ∧ (let u : TwinSent := ⟨5, 4, .handback, 0, 0⟩; let s := sWall 2 1000 { Twn.reset with unacked := [u] } []
       s.twn.unacked = u :: [] ∧ u.dseq = (5 : BitVec 32).toNat ∧ u.at_ + 1000 ≤ s.wall)
    ∧ (sWall 2 500 { Twn.reset with heard := [1] } []).twn.heard = [1] ∧ (smGet (fun _ => 0) Twn.reset.rxWall 1 : Nat) + 500 ≤ (sWall 2 500 Twn.reset []).wall
    ∧ (sTwin 2 { Twn.reset with paired := true } []).twn.declared = false := by decide +kernel
/-! ### Witnesses: twin roles, the rack fabric, registers -/

/-- The launch image placed by an owning host, ready to arm. -/
def sArmed : State := sLaunch []
theorem wit_twinServing : s0.mayConfigure 2 = true ∧ s0.rd TWN_STATUS_STATE = 0 ∧ (sTwin 6 Twn.reset []).rd TWN_STATUS_STATE = 6 ∧ (sTwin 6 Twn.reset []).fw.phase = 0
    ∧ (sTwin 4 Twn.reset [(TWN_STATUS_ARMED, 0, 1)]).rd TWN_STATUS_ARMED = 1 ∧ sArmed.plans = [] ∧ sArmed.twn.arming = false ∧ sArmed.rd TWN_ARM_ADDR_ADDR = 0
    ∧ paOk 0 64 = true ∧ sArmed.hbmReady 0 (max 64 (memNat sArmed.hbm 24 8)) ∧ sArmed.rd BWT_STATUS_SAFE = 0
    ∧ (let m : Mem := smRun (fun _ => 0) 0 (memBytes sArmed.hbm 0 (max 64 (memNat sArmed.hbm 24 8)))
      sArmed.launchCode m (sArmed.rd GLB_HOSTCFG_OWNER) 0 false = 0 ∧ sectsOf m 0 = [⟨2, 0, 0, 0, 0, 0, 96, 32, false⟩]) ∧ 32 % 32 = 0
    ∧ (∀ st ∈ [4, 6], (sTwin st Twn.reset []).twn.gates = [] ∧ (sTwin st Twn.reset []).twn.rewrite = []) := by unfold State.hbmReady; decide +kernel
theorem wit_twinRoles : smWf (fun _ => TLine.absent) s0.pool = true
    ∧ (let s := sTwin 7 { Twn.reset with replayed := true, image := some (5, [0], [0], 2) } []
       s.rd TWN_STATUS_STATE = 7 ∧ s.rd BWT_STATUS_SAFE = 0 ∧ (∀ j ∈ s.plans, j.ring ≠ none) ∧ s.twn.replayed = true ∧ s.twn.image = some (5, [0], [0], 2))
    ∧ (let s := { sTwin 7 Twn.reset [] with plans := [⟨none, 5, [0], [0], .running, 0⟩] }
       s.plans = ⟨none, 5, [0], [0], .running, 0⟩ :: [] ∧ s.rd TID_STATUS_IDLE_NOW = 0 ∧ s.twn.gates = [])
    ∧ (let s := sTwin 2 { Twn.reset with hold := true } []
       s.twn.hold = true ∧ s.twn.deltas = [] ∧ s.twn.unacked = [] ∧ s.plans = [] ∧ s.fw.phase = 0 ∧ s.rd FAB_SQUALL_CTRL_EN = 0 ∧ s.rd GLB_HOSTCFG_OWNER_VALID = 0
        ∧ s.rd GLB_PORT_LINK_UP 0 = 0 ∧ s.rd GLB_PORT_LINK_UP 1 = 0 ∧ s.twinDark (s.twinPort 0) = false ∧ s.rd BWT_STATUS_SAFE = 0)
    ∧ (let s := sTwin 4 { Twn.reset with bistRow := 383 } []; s.rd BWT_STATUS_SAFE = 0 ∧ s.rd TWN_STATUS_ARMED = 0 ∧ s.rd FAB_SQUALL_CTRL_EN = 0 ∧ s.twn.bistRow < 384
      ∧ s.twinDark (s.twinPort s.twn.bistRow) = false ∧ s.twn.rewrite = [])
    ∧ (sTwin 2 Twn.reset [(TWN_CTRL_HOLD, 0, 1)]).rd TWN_CTRL_HOLD = 1
    ∧ (sTwin 4 { Twn.reset with bistRow := 383 } []).twn.bistRow < 384 ∧ (sTwin 4 Twn.reset []).rd TWN_STATUS_ARMED = 0 := by decide +kernel

/-- Flow 4,094 open to rank 255, which is node 62, on plane 7. -/
def fabRegs : List (Fld × Nat × Nat) := [(FAB_FLOW0_OPEN, 4094, 1), (FAB_FLOW0_RANK, 4094, 255), (FAB_FLOW0_CUR_PLANE, 4094, 7), (FAB_FLOW0_HOME, 4094, 7), (FAB_RANK_NODE, 255, 62),
  (FAB_RANK_VALID, 255, 1), (FAB_RANK_PLANE_MASK, 255, 0xFF), (FAB_NODE_STATE, 62, 1), (FAB_PLANE_STATE, 7, 2), (FAB_PLANE_STATE, 0, 2), (FAB_CTRL_NODE_VALID, 0, 1)]
def fabT (off : W64) : Tile := { Tile.reset with s := if off = 0 then [(1, 0xFFFE0)] else [(1, 0xFFFE0), (2, off)] }
def sFab (off : W64) (l : List (Fld × Nat × Nat)) : State := { regsOf (fabRegs ++ l) with tiles := [(0, fabT off)] }
/-- S1 = last unit of the store, S2 = offset; flow 4,094, rank 255. -/
def fOp (len : BitVec 12) (fl rk : Nat) (w64 : Bool) : MV := ⟨2, 1, 2, 3, len, BitVec.ofNat 25 (rk + 256 * fl + if w64 then 2 ^ 23 else 0)⟩
theorem wit_moveFabric : (∀ f ∈ ([.fld, .fst, .fatm] : List (At → MV → Instr)), Legal s0 (f pt0 (fOp 1 4094 255 false)))
    ∧ ((sFab 0 []).here pt0).moveFree 0 = true ∧ s0.rd FAB_FLOW0_OPEN 4094 = 0
    ∧ (4094 ≠ 4095 ∧ (sFab 0 []).rd FAB_FLOW0_OPEN 4094 = 1 ∧ (sFab 0 []).rd FAB_FLOW0_RANK 4094 = 255) ∧ (fOp 1 4094 255 false).osf.toNat % 256 = 255
    ∧ (fOp 1 4094 255 false).osf.toNat / 256 % 4096 = 4094 ∧ moveFits ((sFab 0 []).here pt0) (fOp 1 4094 255 false) ∧ (sFab 0 []).rd FAB_RANK_VALID 255 = 1
    ∧ (sFab 0 [(FAB_RANK_VALID, 255, 0)]).rd FAB_RANK_VALID 255 = 0 ∧ 2 ^ 46 ≤ (((sFab (2 ^ 46) []).here pt0).rdS 2).toNat
    ∧ (∀ e, e < 64 → (sFab 0 []).rd FAB_REPL0_VALID e = 0) ∧ (sFab 0 []).rd FAB_NODE_STATE 62 = 1 ∧ (sFab 0 [(FAB_NODE_STATE, 62, 2)]).rd FAB_NODE_STATE 62 ≠ 1
    ∧ (sFab 0 [(FAB_FLOW0_FAILED, 4094, 1)]).rd FAB_FLOW0_FAILED 4094 = 1 ∧ (((sFab 2 []).here pt0).rdS 2).toNat % 4 ≠ 0 ∧ (((sFab 4 []).here pt0).rdS 2).toNat % 8 ≠ 0
    ∧ (sFab 0 []).rd FAB_PLANE_STATE 7 = 2 ∧ ((sFab 0 []).here pt0).ecc = [] ∧ (sFab 0 []).rd FAB_FLOW0_FAILED 4094 = 0 := by unfold Legal moveFits; decide +kernel
theorem wit_moveReplica : (let s := sFab 0 [(FAB_REPL0_VALID, 0, 1), (FAB_REPL0_RANK, 0, 255), (FAB_REPL0_PAGES, 0, 1), (FAB_REPL1_COUNT, 0, 1)]
      s.replMatch 255 0 32 = some 0 ∧ s.replMatch 255 0 4 = some 0 ∧ s.rd FAB_NODE_STATE 62 = 1) := by decide +kernel
/-- A packet of flow 4,094, waiting or sent at wall count 0. -/
def req (typ seq plen : Nat) (data : List Byte) : Pkt := ⟨typ, 0, 62, 0, 0, true, 4094, 0, 0, seq, 0, plen, 0, 7, 0, false, 0, 0, 0, data⟩
def pend (typ : Nat) (sent : Option Nat) : FabPkt := ⟨0, req typ 0 32 [], none, typ != 3, sent.isNone, sent⟩
def cmdOf (typ : Nat) (tile : Option (Nat × Nat × Nat)) : FabCmd := ⟨0, 4094, 255, typ, tile, false, 0, 0, false, if typ = 1 then 32 else 0, 0, none⟩
def sFlow (l : List (Fld × Nat × Nat)) (f : Fab → Fab) : State := (regsOf (fabRegs ++ l)).onFab f
theorem wit_flows : s0.mayFab 2 = true ∧ s0.mayFab 8 = true ∧ s0.mayFab 1 = false ∧ s0.mayFab 63 = false ∧ (sFlow [] id).rd FAB_FLOW0_OPEN 4094 = 1
    ∧ (sFlow [] id).rd FAB_FLOW1_OUTSTANDING 4094 = 0 ∧ (sFlow [(FAB_FLOW1_OUTSTANDING, 4094, 1)] id).rd FAB_FLOW1_OUTSTANDING 4094 ≠ 0
    ∧ (sFlow [(FAB_FLOW0_DETOURED, 4094, 1)] id).rd FAB_FLOW0_DETOURED 4094 = 1 ∧ 4094 ∉ (sFlow [] id).fab.mayReturn
    ∧ 4094 ∈ (sFlow [] fun x => { x with mayReturn := [4094] }).fab.mayReturn ∧ 4094 ∈ (sFlow [] fun x => { x with downFlows := [4094] }).fab.downFlows
    ∧ (sFlow [(TID_WALL_TICKS, 0, 2000)] fun x => { x with pkts := [pend 1 (some 0)] }).flowLate 4094 = true ∧ s0.flowLate 4094 = false
    ∧ (∀ a ∈ [0, 3, 4], (sFlow [(FAB_FLOW0_ATTEMPT, 4094, a)] id).rd FAB_FLOW0_ATTEMPT 4094 = a) ∧ max 1 ((sFlow [(FAB_CTRL_PLANE_TRIP, 0, 1)] id).rd FAB_CTRL_PLANE_TRIP) ≤ 0 + 1
    ∧ 0 + 1 < max 1 ((sFlow [] id).rd FAB_CTRL_PLANE_TRIP)
    ∧ (sFlow [] fun x => { x with pkts := [pend 1 none], cmds := [cmdOf 1 (some (0, 0, 0))] }).fab.cmds = [cmdOf 1 (some (0, 0, 0))] := by decide +kernel
/-- A response, a request and a management packet bound for plane 7. -/
def outPkt (typ vc : Nat) : FabOut := (7, ⟨typ, vc, 62, 0, 0, false, 4094, 0, 0, 0, 0, 0, 0, 0, 0, false, 0, 0, 0, []⟩)
theorem wit_planes : s0.rd FAB_CTRL_NODE_VALID = 0 ∧ (sFlow [] id).rd FAB_CTRL_NODE_VALID = 1 ∧ (sFlow [] id).rd FAB_PLANE_STATE 7 = 2 ∧ (sFlow [] id).rd BWT_STATUS_SAFE = 0
    ∧ (sFlow [] id).rd FAB_SQUALL_CTRL_EN = 0
    ∧ (sFlow [] fun x => { x with outq := [outPkt 7 2], credits := [(30, 1)] }).nextOut 7 2 = some (outPkt 7 2)
    ∧ (let s := sFlow [] fun x => { x with outq := [outPkt 5 1], credits := [(29, 1)] }; s.nextOut 7 2 = none ∧ s.nextOut 7 1 = some (outPkt 5 1))
    ∧ (∀ t ∈ [1, 3], (let s := sFlow [] fun x => { x with pkts := [pend t none], credits := [(28, 1)] }; s.nextOut 7 2 = none ∧ s.nextOut 7 1 = none ∧ s.nextReqPkt 7 0 = some (pend t none)))
    ∧ (let s := sFlow [(FAB_FLOW0_ATTEMPT, 4094, 1)] fun x => { x with pkts := [pend 1 none], credits := [(31, 1)] }; s.nextReqPkt 7 0 = none)
    ∧ (sFlow [] id).nextReqPkt 7 0 = none ∧ (sFlow [] id).nextReqPkt 7 3 = none
    ∧ (smGet (fun _ => 0) (sFlow [] fun x => { x with held := [(31, 1)] }).fab.held (7 * 4 + 3) : Nat) ≠ 0 ∧ (smGet (fun _ => 0) s0.fab.held 31 : Nat) = 0
    ∧ (∀ v ∈ [0, 1, 2, 3], (let s := sFlow [(FAB_PLANE_STATE, 7, v)] id; s.rd FAB_PLANE_STATE 7 = v ∧ s.portLit 7 = true ∧ (s.rd HRN_PORTLIGHT_OPEN).testBit 7 = false ∧ s.rd FAB_PLANE_DISABLE 7 = 0))
    ∧ (sFlow [(FAB_PLANE_DISABLE, 7, 1)] id).rd FAB_PLANE_DISABLE 7 = 1 ∧ (sFlow [(HRN_PORTLIGHT_OFF, 0, 0x80)] id).portLit 7 = false
    ∧ ((sFlow [(HRN_PORTLIGHT_OPEN, 0, 0x80)] id).rd HRN_PORTLIGHT_OPEN).testBit 7 = true
    ∧ (let s := sFlow [] fun x => { x with held := [(31, 1)] }; s.portLit 7 = true ∧ s.rd FAB_PLANE_STATE 7 = 2 ∧ (smGet (fun _ => 0) s.fab.held (7 * 4 + 3) : Nat) = 1)
    ∧ (sFlow [] id).portLit 7 = true ∧ (sFlow [(BWT_STATUS_SAFE, 0, 1)] id).portLit 7 = false := by decide +kernel
theorem wit_planeDetour : (let s := sFlow [(FAB_FLOW0_DETOURED, 4094, 1)] fun x => { x with pkts := [pend 1 none], credits := [(31, 1)] }
      s.nextReqPkt 7 0 = none ∧ s.nextReqPkt 7 3 = some (pend 1 none)) := by decide +kernel
theorem wit_squallRelease : (let s := sFlow [] fun x => { x with squall := [⟨7, [1], 0, 0⟩] }
      s.fab.squall = ⟨7, [1], 0, 0⟩ :: [] ∧ (⟨7, [1], 0, 0⟩ : SquallHold).plane = (7 : Fin 10).val ∧ (7 : Fin 10).val < 8 ∧ (⟨7, [1], 0, 0⟩ : SquallHold).left = 0)
    ∧ (0 + 1000 ≤ (regsOf [(TID_WALL_TICKS, 0, 1000)]).wall)
    ∧ (({ Twn.reset with squall := [⟨1, 0, 0, .twin 1 1 []⟩] } : Twn).squall = ⟨1, 0, 0, .twin 1 1 []⟩ :: [] ∧ 1 + 8 = (9 : Fin 10).val) ∧ s0.fab.squall = [] ∧ s0.twn.squall = [] := by decide +kernel

/-- A packet that arrives from node 62; its destination is this module's node, 0. -/
def inPkt (typ vc plen : Nat) (f : Pkt → Pkt) (data : List Byte) : Pkt := f ⟨typ, vc, 0, 62, 0, true, 4094, 0, 0, 5, 0, plen, 0, 7, 0, false, 0, 0, 9, data⟩
def inBytes (p : Pkt) : List Byte := p.bytes 7
def ldIn : List Byte := inBytes (inPkt 1 0 32 id [])
def stIn : List Byte := inBytes (inPkt 2 0 32 id (List.replicate 32 1))
def atIn (aop : Nat) (w64 : Bool) : List Byte := let n := (if w64 then 8 else 4) * (if aop = 2 then 2 else 1); inBytes (inPkt 3 0 n (fun p => { p with aop := aop, w64 := w64 }) (List.replicate n 1))
def rsp (typ plen code : Nat) (data : List Byte) : List Byte := inBytes (inPkt typ 1 plen (fun p => { p with code := code, seq := 0 }) data)
/-- Each type arrives whole; a flipped byte fails its CRC; another node's packet is malformed. -/
theorem wit_arrive : (∀ bs ∈ [ldIn, stIn, atIn 0 false, atIn 2 true, atIn 4 true, rsp 4 32 0 (List.replicate 32 1), rsp 5 32 0 [], rsp 6 4 0 (List.replicate 4 1), rsp 4 0 4 []], s0.pktBad bs = 0)
    ∧ (∀ x ∈ [(ldIn, 1), (stIn, 2), (atIn 0 false, 3), (rsp 4 32 0 (List.replicate 32 1), 4), (rsp 5 32 0 [], 5), (rsp 6 4 0 (List.replicate 4 1), 6)], (pktOf x.1).typ = x.2)
    ∧ s0.pktBad (0xFF :: ldIn.drop 1) = 1 ∧ (regsOf [(FAB_CTRL_NODE_ID, 0, 1)]).pktBad ldIn = 2 := by decide +kernel
def sTgt (l : List (Fld × Nat × Nat)) (f : Fab → Fab) : State := (regsOf ((FAB_PLANE_STATE, 7, 2) :: (FAB_NODE_STATE, 62, 1) :: l)).onFab f
theorem wit_targets : (sTgt [] id).pktBad ldIn = 0 ∧ (sTgt [] id).rd FAB_PLANE_STATE 7 = 2 ∧ (sTgt [(FAB_TEAR_QUIET, 0, 1)] id).quietFor (pktOf ldIn) = true
    ∧ (sTgt [] id).quietFor (pktOf ldIn) = false ∧ (let s := sTgt [] fun x => { x with ctxs := [⟨62, 4094, 5 + 1024, []⟩] }; (s.meet (pktOf ldIn)).tooOld (pktOf ldIn) = true)
    ∧ (let s := sTgt [] id; let p := pktOf ldIn
       (s.meet p).tooOld p = false ∧ s.inCtx p = none ∧ s.fab.ctxs.length < 4096 ∧ (smGet (fun _ => 0) s.fab.held (7 * 4 + p.vc) : Nat) + (ldIn.length + 63) / 64 ≤ 64
        ∧ (s.shg (paStack p.off)).lost = false ∧ s.portClear 40)
    ∧ ¬ ((smGet (fun _ => 0) (sTgt [] fun x => { x with held := [(28, 64)] }).fab.held (7 * 4 + 0) : Nat) + (ldIn.length + 63) / 64 ≤ 64)
    ∧ ({ sTgt [] id with shgs := [(0, { Shg.reset with lost := true })] } : State).shg (paStack 0) ≠ Shg.reset ∧ (sTgt [(FAB_NODE_STATE, 62, 2)] id).rd FAB_NODE_STATE (pktOf ldIn).src ≠ 1 ∧ (sTgt [] id).rd FAB_NODE_STATE (pktOf ldIn).src = 1
    ∧ paOk ((pktOf (inBytes (inPkt 1 0 32 (fun p => { p with off := 2 ^ 45 }) []))).off / 32 * 32) 32 = false ∧ (∀ r ∈ [5, 6, 0, 4], (pktOf (inBytes (inPkt 1 0 32 (fun p => { p with role := r }) []))).role = r)
    ∧ (1 ≠ (sTgt [] id).rd TID_MROLE_MROLE) ∧ (sTgt [] id).hbmReady (0 / 32 * 32) 32 ∧ (pktOf ldIn).role = 7 ∧ (sTgt [] id).fab.ctxs.length < 4096
    ∧ (∀ e, e < 64 → (sTgt [] id).rd FAB_REPL0_HELD e = 0) ∧ (pktOf stIn).pmask = 0 ∧ (sTgt [] id).applied (pktOf stIn) = false ∧ (sTgt [] id).inCtx (pktOf stIn) = none
    ∧ (let s := sTgt [] fun x => { x with ctxs := [⟨62, 4094, 5, [5]⟩] }; (s.meet (pktOf stIn)).applied (pktOf stIn) = true ∧ (s.meet (pktOf stIn)).tooOld (pktOf stIn) = false)
    ∧ (sTgt [(FAB_TEAR_QUIET, 0, 1)] id).rd FAB_PLANE_STATE 7 = 2 ∧ ((sTgt [] id).meet (pktOf stIn)).applied (pktOf stIn) = false := by unfold State.hbmReady State.portClear; decide +kernel
theorem wit_targetAtoms : (let e : Reply := ⟨62, 9, 4094, 5, 0, 7, 0⟩; e.node = (pktOf (atIn 0 false)).src ∧ e.req = (pktOf (atIn 0 false)).req ∧ e.flow = (pktOf (atIn 0 false)).flow
        ∧ e.seq = (pktOf (atIn 0 false)).seq ∧ (let s := sTgt [] fun x => { x with cache := [e] }; s.fab.cache = [e] ∧ s.fab.atoms = [] ∧ s.quietFor (pktOf (atIn 0 false)) = false))
    ∧ (let p := pktOf (atIn 0 false); ∃ x ∈ ([(7, p, true)] : List (Nat × Pkt × Bool)), x.2.1.unit = p.unit ∧ x.2.2 = true)
    ∧ (let e : Reply := ⟨62, 9, 4094, 4, 0, 7, 0⟩; e.seq ≠ (pktOf (atIn 0 false)).seq) ∧ (sTgt [] id).tooOld (pktOf (atIn 0 false)) = false
    ∧ (∀ x ∈ [(0, false, 4), (1, true, 8), (2, true, 8), (2, false, 4), (3, false, 4), (4, true, 8)], (let p := pktOf (atIn x.1 x.2.1); (sTgt [] id).hbmReady p.off x.2.2 ∧ p.off % x.2.2 = 0 ∧ p.aop ≤ 4 ∧ p.aop = x.1
        ∧ (sTgt [] id).pktBad (atIn x.1 x.2.1) = 0 ∧ p.pmask = 0 ∧ (sTgt [] id).fab.cache.length + ((sTgt [] id).fab.atoms.filter (·.2.2)).length < 4096
        ∧ ((sTgt [] id).meet p).tooOld p = false ∧ ((sTgt [] id).meet p).applied p = false ∧ paOk p.off x.2.2 = true ∧ p.role = 7)) := by unfold State.hbmReady; decide +kernel
/-- An access of the Harbour station's memory port whose answer stands in front of the inbox. -/
def sEnds (kind : Nat) (dest : MDest) (m : MMsg) (f : Fab → Fab) : State :=
  { sTgt [] f with mreqs := [⟨0, 40, 0, 0, kind, 0, 1, none, dest, 0, 0, [], 0, if kind = 1 then leBytes 32 0 else [], if kind = 1 then [false] else [], false⟩], inbox := [(40, 24, m)] }
def rdataMsg : MMsg := ⟨3, 0, 0, 0, 1, 0, 0, 0, leBytes 32 7, [false]⟩
def wackMsg : MMsg := ⟨4, 0, 0, 0, 1, 0, 0, 0, [], []⟩
/-- The request in front is this access, and its answer has come whole. -/
def endsWell (s : State) (kind : Nat) (dest : MDest) (m : MMsg) : Bool :=
  match s.mreqs with
  | [r] => decide (r.q = 40) && decide (r.k = 0) && decide (r.rid = m.rid) && decide (r.code = 0) && decide (r.kind = kind) && decide (r.dest = dest) && decide (r.seen = [])
      && decide (s.hrbDone = []) && decide (s.mwait = []) && decide (s.inbox = [(40, 24, m)]) && decide (m.code = 0)
      && (if kind = 1 then decide (m.typ = 3) && m.bad.all (!·) && decide (r.bad = List.replicate r.len false) && decide (m.bad = List.replicate r.len false)
            && decide (r.data.length = 32 * r.len) && decide (m.data.length = 32 * r.len) && decide (m.off = 0) else decide (m.typ = 4))
  | _ => false
def accessEnds : List (Nat × MDest × MMsg) := [(1, .hrb (.target 7 (pktOf ldIn)), rdataMsg), (2, .hrb (.target 7 (pktOf stIn)), wackMsg), (1, .hrb (.target 7 (pktOf (atIn 0 false))), rdataMsg),
  (2, .hrb (.atomic 7 (pktOf (atIn 0 false)) 7), wackMsg)]
def withAtom (f : Fab) : Fab := { f with atoms := [(7, pktOf (atIn 0 false), true)] }
theorem wit_accessEnds : accessEnds.all (fun x => endsWell (sEnds x.1 x.2.1 x.2.2 withAtom) x.1 x.2.1 x.2.2) = true ∧ (sTgt [] withAtom).rd FAB_PLANE_STATE 7 = 2
    ∧ (sTgt [] withAtom).fab.atoms = [(7, pktOf (atIn 0 false), true)] ∧ (sTgt [] withAtom).fab.cache.length < 4096
    ∧ ((sTgt [] withAtom).shg (paStack 0)).lost = false ∧ (sTgt [] withAtom).portClear 40 := by unfold State.portClear; decide +kernel
def sReq (typ : Nat) (two : Bool) : State := sFlow [] fun x => { x with pkts := pend typ (some 0) :: (if two then [{ pend typ (some 0) with pkt := req typ 1 32 [] }] else []), cmds := [cmdOf typ (some (0, 255, 3))] }
/-- One access of FAB_DIRECT, a load or a store of 32 B. -/
def sDirect (typ : Nat) : State := sFlow [] fun x => { x with pkts := [pend typ (some 0)], cmds := [{ cmdOf typ none with direct := true }] }
theorem wit_responses : (∀ b ∈ [true, false], ∀ x ∈ [(1, rsp 4 32 0 (List.replicate 32 1), 4), (2, rsp 5 32 0 [], 5), (3, rsp 6 4 0 (List.replicate 4 1), 6)], (let s := sReq x.1 b; let p := pktOf x.2.1
      s.pktBad x.2.1 = 0 ∧ p.typ = x.2.2 ∧ s.rd FAB_FLOW0_OPEN p.flow = 1 ∧ (pend x.1 (some 0)).pkt.flow = p.flow ∧ (pend x.1 (some 0)).pkt.seq = p.seq ∧ (pend x.1 (some 0)).pkt.typ + 3 = p.typ
        ∧ s.fab.cmds = [cmdOf x.1 (some ((0 : Fin 24).val, (255 : Fin 256).val, 3))] ∧ p.code = 0
        ∧ (∀ r ∈ s.fab.pkts.drop 1, ¬ (r.pkt.flow = p.flow ∧ r.pkt.seq = p.seq) ∧ r.cid = (cmdOf x.1 none).cid)
        ∧ (cmdOf x.1 none).first = none ∧ (cmdOf x.1 none).landing = 0 ∧ (s.tile (tileKey 0 255)).rep = [] ∧ (smGet (fun _ => 0) s.fab.held (7 * 4 + p.vc) : Nat) + (x.2.1.length + 63) / 64 ≤ 64))
    ∧ s0.rd FAB_FLOW0_OPEN (pktOf (rsp 5 32 0 [])).flow = 0 ∧ (pktOf (rsp 5 32 0 [])).flow ≠ 4095 ∧ (sFlow [] id).fab.pkts = []
    ∧ (∀ c ∈ [2, 4, 6, 8], (pktOf (rsp 6 0 c [])).code = c ∧ s0.pktBad (rsp 6 0 c []) = 0) := by decide +kernel
theorem wit_directResponses : (∀ x ∈ [(1, rsp 4 32 0 (List.replicate 32 1)), (2, rsp 5 32 0 [])], (let s := sDirect x.1; let p := pktOf x.2
        s.pktBad x.2 = 0 ∧ s.fab.pkts = [pend x.1 (some 0)] ∧ s.fab.cmds = [{ cmdOf x.1 none with direct := true }] ∧ (pend x.1 (some 0)).pkt.typ + 3 = p.typ ∧ p.code = 0
          ∧ (x.1 = 1 → p.data.take (min 32 (cmdOf x.1 none).room) ≠ [] ∧ (pend x.1 (some 0)).pkt.midx = 0 ∧ (s.shg (paStack 0)).lost = false ∧ s.portClear 40))) := by unfold State.portClear; decide +kernel
/-- The last attempt of flow 4,094 has failed; the tile's command waits on its one packet. -/
theorem wit_attempts : (let s := sFlow [(FAB_FLOW0_ATTEMPT, 4094, 4)] fun x => { x with pkts := [pend 1 (some 0)], cmds := [cmdOf 1 (some (0, 255, 3))], downFlows := [4094] }
      4094 ∈ s.fab.downFlows ∧ s.rd FAB_FLOW0_ATTEMPT 4094 = 4 ∧ s.fab.pkts = [pend 1 (some 0)] ∧ s.fab.cmds = [cmdOf 1 (some (0, 255, 3))] ∧ (pend 1 (some 0)).pkt.flow = 4094
        ∧ (pend 1 (some 0)).cid = (cmdOf 1 none).cid ∧ (cmdOf 1 none).code = 0 ∧ (cmdOf 1 none).first = none ∧ (cmdOf 1 none).landing = 0 ∧ (cmdOf 1 none).direct = false) := by decide +kernel

/-- A management packet from a node: 4 bytes, or the 16 of a teardown. -/
def mgmt (src : Nat) (data : List Byte) : List Byte := inBytes (inPkt 7 2 data.length (fun p => { p with src := src }) data)
theorem wit_management : (∀ x ∈ ([(63, [1, 7, 0, 0]), (63, [1, 7, 2, 0]), (63, [2, 62, 0, 1]), (63, [2, 62, 2, 1]), (62, [4, 0, 0, 0]), (62, [1, 0, 0, 0]), (62, [0, 0, 0, 0]), (62, [5, 0, 0, 0]),
      (63, [3, 2, 255] ++ List.replicate 13 0), (63, [3, 0, 62] ++ List.replicate 5 0 ++ [9] ++ List.replicate 7 0)] : List (Nat × List Byte)),
      s0.pktBad (mgmt x.1 x.2) = 0 ∧ (pktOf (mgmt x.1 x.2)).typ = 7 ∧ (pktOf (mgmt x.1 x.2)).src = x.1 ∧ (pktOf (mgmt x.1 x.2)).data = x.2)
    ∧ (sFlow [(FAB_PLANE_STATE, 7, 1)] id).rd FAB_PLANE_STATE 7 = 1 ∧ 7 ∈ (sFlow [(FAB_PLANE_STATE, 7, 0), (FAB_PLANE_DOWN_CAUSE, 7, 3)] fun x => { x with link := [7] }).fab.link
    ∧ (sFlow [(FAB_PLANE_STATE, 7, 0), (FAB_PLANE_DOWN_CAUSE, 7, 4)] id).rd FAB_PLANE_DOWN_CAUSE 7 = 4 ∧ (sFlow [] id).rd FAB_NODE_STATE 62 = 1
    ∧ (∀ q ∈ (sReq 1 false).fab.pkts, q.repl = none ∧ q.pkt.dst = 62) ∧ leNat (((List.replicate 16 0 : List Byte)).drop 8) = 0
    ∧ leNat ((([3, 0, 62] ++ List.replicate 5 0 ++ [9] ++ List.replicate 7 0 : List Byte)).drop 8) = 9 ∧ s0.plans = []
    ∧ ({ s0 with plans := [⟨none, 9, [], [], .running, 0⟩] } : State).plans ≠ []
    ∧ (let s := sReq 1 false; s.fab.pkts = [pend 1 (some 0)] ∧ s.fab.cmds = [cmdOf 1 (some (0, 255, 3))] ∧ (cmdOf 1 none).cid = (pend 1 (some 0)).cid ∧ (pend 1 (some 0)).pkt.dst = 62)
    ∧ (pktOf (mgmt 63 [1, 7, 2, 0])).vc = 2 ∧ (smGet (fun _ => 0) s0.fab.held (7 * 4 + 2) : Nat) + ((mgmt 63 [1, 7, 2, 0]).length + 63) / 64 ≤ 64
    ∧ (sFlow [(FAB_PLANE_STATE, 7, 3)] id).rd FAB_PLANE_STATE 7 = 3 ∧ (sFlow [] id).rd FAB_PLANE_DISABLE 7 = 0
    ∧ (∀ q ∈ (sFlow [] id).fab.pkts, q.repl = none) := by decide +kernel
theorem wit_drills : (let s := regsOf [(FAB_TEAR_QUIET, 0, 1)]; s.rd FAB_TEAR_QUIET = 1 ∧ s.fab.quiet ≤ s.wall) ∧ s0.wall < ({ Fab.reset with quiet := 1 } : Fab).quiet
    ∧ sOwn.owns 1 = true ∧ sOwn.rd FAB_SQUALL_CTRL_EN = 0 ∧ (0 : BitVec 2) ≠ 3 ∧ s0.owns 0 = false
    ∧ (let s := sOwn.wr FAB_SQUALL_CTRL_EN 0 1; s.owns 1 = true ∧ s.rd FAB_SQUALL_CTRL_EN = 1 ∧ s.rd FAB_SQUALL_CTRL_DURATION_MS = 0)
    ∧ (let s := regsOf [(FAB_SQUALL_CTRL_EN, 0, 1), (FAB_SQUALL_CTRL_DURATION_MS, 0, 1), (TID_WALL_TICKS, 0, 100000)]; s.rd FAB_SQUALL_CTRL_DURATION_MS ≠ 0
        ∧ s.fab.squallAt + 100000 * s.rd FAB_SQUALL_CTRL_DURATION_MS ≤ s.wall)
    ∧ (let s := regsOf [(FAB_SQUALL_CTRL_EN, 0, 1), (FAB_SQUALL_CTRL_DURATION_MS, 0, 1), (TID_WALL_TICKS, 0, 99999)]; s.wall < s.fab.squallAt + 100000 * s.rd FAB_SQUALL_CTRL_DURATION_MS) := by decide +kernel
theorem wit_direct : s0.mayFab 2 = true ∧ s0.mayFab 9 = false ∧ (regsOf [(FAB_DIRECT_CMD_BUSY, 0, 1)]).rd FAB_DIRECT_CMD_BUSY = 1 ∧ s0.rd FAB_DIRECT_CMD_BUSY = 0
    ∧ paOk (2 ^ 41 - 1) 0 = false ∧ 1 ≤ (256 : BitVec 9).toNat ∧ (256 : BitVec 9).toNat ≤ 256 ∧ paOk 0 256 = true ∧ 0 / 32 * 32 + 256 ≤ 2 ^ 46 ∧ s0.rd FAB_NODE_STATE 62 ≠ 1
    ∧ (let s := regsOf [(FAB_NODE_STATE, 62, 1), (FAB_PLANE_STATE, 0, 2)]; s.rd FAB_NODE_STATE 62 = 1 ∧ s.rd FAB_FLOW0_FAILED 4095 = 0 ∧ s.rd FAB_PLANE_STATE (s.rd FAB_FLOW0_CUR_PLANE 4095) = 2
        ∧ s.hbmReady 0 256 ∧ s.hbmReady 0 16 ∧ (s.shg (paStack 0)).lost = false ∧ s.portClear 40 ∧ paOk 0 16 = true) ∧ (∀ a ∈ [(0 : BitVec 3), 2, 4], a.toNat < 5) := by unfold State.hbmReady State.portClear; decide +kernel
/-- The operands of FAB_DIRECT's accesses have come from HBM; a load's data has landed there. -/
theorem wit_directEnds : ([(.hrb (.directRead 1 62 0 false 32 0 0), 1, rdataMsg), (.hrb (.directRead 2 62 0 false 0 0 0), 1, rdataMsg), (.hrb (.directLand 0), 2, wackMsg)] : List (MDest × Nat × MMsg)).all
      (fun x => endsWell (sEnds x.2.1 x.1 x.2.2 fun f => { f with cmds := [{ cmdOf 1 none with direct := true, landing := 1 }] }) x.2.1 x.1 x.2.2) = true
    ∧ (sTgt [] id).rd FAB_NODE_STATE 62 = 1 ∧ (sTgt [] id).fab.pkts = [] ∧ 0 % 32 + max 32 32 ≤ 32 * 1
    ∧ (let s := (regsOf [(FAB_PLANE_STATE, 0, 2)]); s.rd FAB_PLANE_STATE (s.rd FAB_FLOW0_CUR_PLANE 4095) = 2) := by decide +kernel
/-- The general clauses: an address with no register, one with a register, and a register a master may write that does nothing more. -/
theorem wit_anyRegister : regAt ((0x900028 : BitVec 26).toNat / 8 * 8) = none ∧ (0x900028 : BitVec 26).toNat % 8 = 0 ∧ (0x900104 : BitVec 26).toNat % 4 = 0 ∧ sUp.rd PWR_STATE_STATE ≠ 4
    ∧ (∃ r, regAt ((0x900104 : BitVec 26).toNat / 8 * 8) = some (r, 0) ∧ r.no = FAB_PLANE) ∧ 0x9020 ≤ (0x9020 : BitVec 26).toNat
    ∧ (∃ r, regAt ((0x902000 : BitVec 26).toNat / 8 * 8) = some (r, 0) ∧ r.no = FAB_RANK ∧ r.no ∉ actRegs ∧ sUp.mayWrite 2 r.no 0 = true ∧ sUp.frozen r.no 0 = false)
    ∧ ((2 ≤ 2 ∧ 2 ≠ 9) ∨ sUp.owns 2 = true) ∧ ((9 : Nat) % 8 ≠ 0) :=
  ⟨by decide +kernel, by decide, by decide, by decide +kernel, ⟨_, rfl, by decide +kernel⟩, by decide, ⟨_, rfl, by decide +kernel⟩, by decide, by decide⟩
theorem wit_registers : sUp.rst.held = false ∧ (0 : W64).toNat % 4 ≠ 2 ∧ (0xFF01 : W64).toNat % 4 ≠ 2 ∧ (3 ≠ 4 ∧ 3 ≠ 8) ∧ (0x900104 : BitVec 26).toNat % 8 ≠ 0 ∧ sUp.owns 0 = false
    ∧ (∀ v ∈ [0, 1], ((sUp.wr FAB_CTRL_LOCK 0 v).rd FAB_CTRL_LOCK = v ∧ (sUp.wr FAB_CTRL_LOCK 0 v).rst.held = false)) ∧ (sUp.wr FAB_REQLOG_VALID 0 1).rd FAB_REQLOG_VALID = 1
    ∧ (BitVec.ofNat 64 (2 ^ 60)).getLsbD 60 = true ∧ (0 : W64).getLsbD 60 = false ∧ (sOwn.owns 1 = true ∧ sOwn.owns 0 = false) := by decide +kernel
/-- A step runs the command in front of the queue, from a state in canonical form; two commands wait. -/
theorem wit_step : ∃ t, step { s0 with pending := [.nop pt0, .endIssue pt0] } = .next t ∧ Canonical { s0 with pending := [.nop pt0, .endIssue pt0] } :=
  ⟨_, rfl, by unfold Canonical Memory.wf; decide +kernel⟩
theorem wit_slots : (∃ i, isControl i = true) ∧ (∃ i, isScalar i = true) ∧ (∃ i, isVector i = true) ∧ (∃ i, isMatrix i = true) ∧ (∃ i, isMove i = true)
    ∧ (∃ w i, decodeControl pt0 w = some (i, false) ∧ isControl i = true) :=
  ⟨⟨.waitc pt0 ⟨0, true, 0⟩, rfl⟩, ⟨.addi pt0 ⟨1, 0, 5⟩, rfl⟩, ⟨.vadd pt0 ⟨1, 0, 1, 1, 0, 3, 0, 0⟩, rfl⟩, ⟨.mrd pt0 ⟨0, 1, 0, 0, 5, false⟩, rfl⟩, ⟨.tpld pt0 (mvOf 1 0), rfl⟩,
    ⟨0x00001884, _, rfl, rfl⟩⟩

/-! ### Well-formedness: a term each check refuses -/

theorem test_illFormed_scalar : Instr.wellFormed 0xFF (.slli pt0 ⟨1, 1, 64⟩) = false ∧ Instr.wellFormed 0xFF (.srai pt0 ⟨1, 1, 63⟩) = true ∧ Instr.wellFormed 0xFF (.crr pt0 ⟨1, 0, 4⟩) = false
    ∧ Instr.wellFormed 0xFF (.crr pt0 ⟨1, 1, 3⟩) = false ∧ Instr.wellFormed 0xFF (.crw pt0 ⟨1, 0, 3⟩) = false ∧ Instr.wellFormed 0xFF (.crw pt0 ⟨0, 1, 15⟩) = false := by decide
theorem test_illFormed_control : Instr.wellFormed 0xFF (.brc pt0 ⟨7, 0, 0⟩) = false ∧ Instr.wellFormed 0xFF (.brc pt0 ⟨0, 1, 0⟩) = false ∧ Instr.wellFormed 0xFF (.waitc pt0 ⟨0, true, 32⟩) = false
    ∧ Instr.wellFormed 0xFF (.fence pt0 ⟨0, 64⟩) = false ∧ causeLoopEnd 9 9 = 9 ∧ causeLoopEnd 9 10 = 0 := by decide
theorem test_illFormed_vector : Instr.wellFormed 0xFF (.vadd pt0 ⟨1, 0, 1, 1, 0, 3, 0, 0⟩) = false ∧ Instr.wellFormed 0xFF (.viadds pt0 ⟨1, 0, 1, 1, 1, 0, 0, 0⟩) = false
    ∧ Instr.wellFormed 0xFF (.vmovi pt0 ⟨1, 0, 1, 0, 5⟩) = false ∧ Instr.wellFormed 0xFF (.vcmpr pt0 ⟨1, 1, 1, 0, 0, 0, 0, 0⟩) = false ∧ Instr.wellFormed 0xFF (.pcnt pt0 ⟨1, 0, 8, 0, 0, 0, 0, 0⟩) = false
    ∧ Instr.wellFormed 0xFF (.vrsum pt0 ⟨1, 0, 2, 0, 0, 1, 4, 0⟩) = false ∧ Instr.wellFormed 0xFF (.vrmax pt0 ⟨1, 0, 2, 0, 0, 0, 0, 2⟩) = false := by decide
theorem test_illFormed_vector2 : Instr.wellFormed 0xFF (.vbmrg pt0 ⟨1, 0, 2, 3, 1, 0, 0, 0x0D⟩) = false ∧ Instr.wellFormed 0xFF (.vcvt pt0 ⟨1, 0, 2, 0, 0, 0, 0, 0x0A⟩) = false
    ∧ Instr.wellFormed 0xFF (.vcvtx pt0 ⟨1, 0, 2, 0, 3, 0, 0, 0x08⟩) = false ∧ Instr.wellFormed 0xFF (.vcmp pt0 ⟨7, 1, 2, 3, 0, 0, 0, 7⟩) = false
    ∧ Instr.wellFormed 0xFF (.pand pt0 ⟨0, 0, 8, 7, 0, 0, 0, 0⟩) = false := by decide
theorem test_illFormed_matrix : Instr.wellFormed 0xFF (.mma pt0 ⟨0, 1, 0xA, 3, 1, 2, 4, 0, true, false, false, false, false⟩) = true ∧ Instr.wellFormed 0xFF (.mma pt0 ⟨0, 0, 0, 3, 1, 2, 4, 0, true, false, false, false, false⟩) = false
    ∧ Instr.wellFormed 0xFE (.mma pt0 ⟨0, 0, 0xB, 3, 1, 2, 4, 0, true, false, false, false, false⟩) = false ∧ Instr.wellFormed 0xFF (.mmar pt0 ⟨0, 1, 0xA, 3, 1, 2, 4, 0, true, false, false, false, false⟩) = false
    ∧ Instr.wellFormed 0xFF (.mrd pt0 ⟨0, 1, 0, 0, 5, false⟩) = false ∧ Instr.wellFormed 0xFF (.mwr pt0 ⟨0, 1, 0, 0, 1, false⟩) = false := by decide
theorem test_illFormed_move : Instr.wellFormed 0xFF (.tpld pt0 ⟨0, 0, 0, 0, 1, 3⟩) = false ∧ Instr.wellFormed 0xFF (.msend pt0 ⟨0, 0, 0, 0, 1, 8⟩) = false ∧ Instr.wellFormed 0xFF (.otxa pt0 ⟨0, 0, 1, 0, 1, 0⟩) = false
    ∧ Instr.wellFormed 0xFF (.hbrd pt0 ⟨0, 0, 0, 0, 1, 1⟩) = false ∧ Instr.wellFormed 0xFF (.kvapp pt0 ⟨0, 0, 0, 0, 1, 128⟩) = false ∧ Instr.wellFormed 0xFF (.kvbws pt0 ⟨0, 0, 0, 0, 1, 0⟩) = false
    ∧ Instr.wellFormed 0xFF (.note pt0 ⟨0, 0, 0, 0, 5, 0⟩) = false ∧ Instr.wellFormed 0xFF (.fst pt0 ⟨0, 0, 0, 0, 0, 0⟩) = false ∧ Instr.wellFormed 0xFF (.fatm pt0 ⟨0, 0, 0, 0, 2, 0⟩) = false := by decide

/-! ### Words of the spec's worked encodings -/

/-- The three control slots encoded under R88. -/
theorem test_controlWords : decodeControl pt0 0x021000C3 = some (.loopi pt0 ⟨3, 0x021⟩, false) ∧ decodeControl pt0 0x00100A81 = some (.brc pt0 ⟨2, 5, 0x040⟩, false)
    ∧ decodeControl pt0 0x00001884 = some (.waitc pt0 ⟨2, false, 3⟩, false) := ⟨rfl, rfl, rfl⟩
/-- The transmit example before R146: TIDEW and OTXA. -/
theorem test_armWords : decodeControl pt0 0x00004985 = some (.tidew pt0 ⟨6, 9⟩, false) ∧ decodeMove pt0 0x088101C08310 = some (.otxa pt0 ⟨3, 8, 0, 7, 32, 17⟩, false) := ⟨rfl, rfl⟩

/-! ### The spec's worked numbers -/

/-- Table 2-8: 0x3E99999A to E4M3 in five modes. -/
theorem test_convert_e4m3 : roundF e4m3 .rne 0 false false false 0x99999A (-25) false = (0x2A, fNX) ∧ roundF e4m3 .rtz 0 false false false 0x99999A (-25) false = (0x29, fNX)
    ∧ roundF e4m3 .rup 0 false false false 0x99999A (-25) false = (0x2A, fNX) ∧ roundF e4m3 .sr 0x7000 false false false 0x99999A (-25) false = (0x2A, fNX)
    ∧ roundF e4m3 .sr 0x1234 false false false 0x99999A (-25) false = (0x29, fNX) := by decide +kernel
/-- 500.0 to both FP8 formats. -/
theorem test_convert_500 : roundF e4m3 .rne 0 false false false 500 0 false = (0x7E, fOF ||| fNX) ∧ roundF e4m3 .rtz 0 false false false 500 0 false = (0x7E, fOF ||| fNX)
    ∧ roundF e5m2 .rne 0 false false false 500 0 false = (0x60, fNX) := by decide +kernel
/-- R211: L = 2 idles cycles 3 and 7. -/
theorem test_throttlePattern : ((List.range 8).filter fun c => throttled 2 c) = [3, 7] := by decide +kernel
/-- R260: PA 0x0A0_1000_0000 is of stack 5; PA 0x0B8_0000_0000 lies in its hole. -/
theorem test_stacks : paStack 0x0A010000000 = 5 ∧ 0x0A010000000 % 2 ^ 37 = 0x10000000 ∧ paStack 0x0B800000000 = 5 ∧ paOk 0x0B800000000 32 = false ∧ paOk 0x0A010000000 32 = true := by decide +kernel
/-- Table 13-5: top-p keeps ranks 0 and 1; t = 1.0643768 selects token 3, x_u = 0.88 token 7. -/
theorem test_sampling : topPGo 0x3F8A3FBC 0 [(7, 0x3F800000), (3, 0x3E0A9556), (19, 0x3E0A9556)] = [(7, 0x3F800000), (3, 0x3E0A9556)]
    ∧ drawGo 0x3F883D80 0 7 [(7, 0x3F800000), (3, 0x3E0A9556)] = 3 ∧ drawGo 0x3F7FC4B2 0 7 [(7, 0x3F800000), (3, 0x3E0A9556)] = 7 := by decide +kernel
/-- Table 13-3: the path to node 4 is 0, 1, 4. -/
theorem test_treeWalk : walkGo [(500, 0), (11, 0), (12, 0), (21, 1), (22, 1), (31, 3), (41, 2)] [11, 22, 0, 0, 90, 0, 0] 64 0 = [0, 1, 4] := by decide +kernel

/-! ### The wire (R223 to R227) -/

/-- Hypotheses of the clause on symbol errors in NoteAndReportSwells: four errors fail a lane in Calm, and three in one lane and one in another are
corrected. -/
theorem wit_symbolErrors_fail : wireDiff true [(2, 0, 1), (2, 5, 2), (2, 9, 3), (2, 55, 4)] = none := by decide +kernel
theorem wit_symbolErrors_corrected : wireDiff true [(2, 0, 1), (2, 5, 2), (2, 55, 3), (9, 4, 0xFF)] = some (List.replicate 784 0) :=
  wireDiff_corrected (by decide +kernel) (by decide +kernel)
/-- R223, R224: a lane sends 640 bits a tick in Brisk and 480 in Calm, preamble 0xAAAAAAE7 first; byte 17 of the block is symbol 1 of lane 1. -/
theorem test_wire : let x : Swell := ⟨2, true, 6, 23, 16, 9, 600, 0x0A5C, [], []⟩
    (x.wire false).map (8 * ·.length) = List.replicate 16 640 ∧ (x.wire true).map (8 * ·.length) = List.replicate 16 480
    ∧ ((x.wire false).getD 1 []).take 6 = [0xAA, 0xAA, 0xAA, 0xE7, 0x06, 0] ∧ rsSyndromes 7 (rsEncode 7 (List.range 49)) = List.replicate 7 0 := by decide +kernel

/-! ### Single steps -/

/-- Tile 0 after one operation, read in a later cycle. -/
def after (t : Tile) (i : Instr) (c : Nat) : Tile := match exec i (onT t) with | .next s => (s.here pt0).settle c | _ => t
/-- S1 = −2, S2 = 3. -/
def tAB : Tile := { Tile.reset with s := [(1, 0xFFFFFFFFFFFFFFFE), (2, 3)] }
/-- R133: a sum wraps; a write to S0 is discarded; −2 < 3 signed, not unsigned. -/
theorem test_scalar : (after tAB (.add pt0 ⟨1, 1, 2⟩) 1).rdS 1 = 1 ∧ (after tAB (.add pt0 ⟨0, 1, 2⟩) 1).rdS 0 = 0 ∧ (after tAB (.slt pt0 ⟨3, 1, 2⟩) 1).rdS 3 = 1
    ∧ (after tAB (.sltu pt0 ⟨3, 1, 2⟩) 1).rdS 3 = 0 := by decide +kernel
/-- R134: division by 0 gives all ones and REM the dividend; DIV truncates toward zero; the most negative value over −1 is itself. -/
theorem test_division : (after tAB (.div pt0 ⟨3, 2, 4⟩) 20).rdS 3 = 0xFFFFFFFFFFFFFFFF ∧ (after tAB (.rem pt0 ⟨3, 2, 4⟩) 20).rdS 3 = 3 ∧ (after tAB (.div pt0 ⟨3, 1, 2⟩) 20).rdS 3 = 0
    ∧ (after { Tile.reset with s := [(1, 0x8000000000000000), (2, 0xFFFFFFFFFFFFFFFF)] } (.div pt0 ⟨3, 1, 2⟩) 20).rdS 3 = 0x8000000000000000 := by decide +kernel
/-- A result is not visible before its latency has passed (R54). -/
theorem test_latency : (after tAB (.mul pt0 ⟨3, 1, 2⟩) 2).rdS 3 = 0 ∧ (after tAB (.mul pt0 ⟨3, 1, 2⟩) 3).rdS 3 = 0xFFFFFFFFFFFFFFFA := by decide +kernel
/-- The tide counter running, in an idle cycle or not. -/
def sTick (idle : Nat) : State := { regsOf [(TID_STATUS_IDLE_NOW, 0, idle)] with tide := { s0.tide with aligned := true, started := true } }
/-- R189: a reference tick advances the wall count; in an idle tide cycle the tide counter stands still. -/
theorem test_referenceTick : (match exec .referenceTick (sTick 0) with | .next s => (s.wall, s.ticks) | _ => (0, 0)) = (s0.wall + 1, s0.ticks + 1)
    ∧ (match exec .referenceTick (sTick 1) with | .next s => (s.wall, s.ticks) | _ => (9, 9)) = (s0.wall + 1, s0.ticks) := by decide +kernel
/-- Node 62 stores 32 B: the write is asked of stack 0 over the Harbour station's memory port; a packet with a bad CRC asks nothing and is counted. -/
theorem test_fabricStore : (match exec (.st 7 stIn) (sTgt [] id) with | .next s => (s.mreqs.map fun r => (r.q, r.k, r.kind, r.pa, r.len)) | _ => []) = [(40, 0, 2, 0, 1)]
    ∧ (match exec (.st 7 stIn) (sTgt [] id) with | .next s => (s.mout.map fun m => m.2.2.data) | _ => []) = [List.replicate 32 1]
    ∧ (match exec (.st 7 (0xFF :: stIn.drop 1)) (sTgt [] id) with | .next s => (s.mreqs.length, s.rd FAB_PLANE_CRC_ERR 7) | _ => (1, 0)) = (0, 1) := by decide +kernel
end Sys2Proof.Machine.Tests
end

section
/-! SUPPORT. Laws of the register file beside a written field, of a state that differs in one tile, and of a move command that the
engine takes in the cycle after its issue. -/
namespace Sys2Proof.Machine

/-! ### Registers outside a written field -/

/-- A bit beside a replaced field is as before. -/
theorem testBit_setBitsN_ne (x lo w v b : Nat) (h : b < lo ∨ lo + w ≤ b) : (setBitsN x lo w v).testBit b = x.testBit b := by
  have e := bitsN_setBitsN_ne x lo w v b 1 (by omega)
  simp only [bitsN, Nat.pow_one] at e
  rw [Nat.testBit_eq_decide_div_mod_eq, Nat.testBit_eq_decide_div_mod_eq, e]

/-- A write of a field changes no register bit outside it. -/
theorem RegsBut.of_wr (s : State) (f : Fld) (i v : Nat) : RegsBut [(f, i)] s (s.wr f i v) := by
  intro key b h
  rw [State.wr_regs, rfSet, rfSetWord, smGet_smSet]
  split
  · next hk =>
    subst hk
    have hb := h (f, i) (List.mem_singleton_self _) rfl
    rw [BitVec.getLsbD_ofNat, testBit_setBitsN_ne _ _ _ _ _ hb, ← BitVec.getLsbD, rfWord]
    by_cases h64 : b < 64
    · rw [decide_eq_true h64, Bool.true_and]
    · rw [decide_eq_false h64, Bool.false_and, BitVec.getLsbD_of_ge _ _ (by omega)]
  · rfl

/-! ### A state that differs in one tile -/

theorem OnlyTile.eq {pt : At} {s t : State} (h : OnlyTile pt s t) : t = { s with tiles := t.tiles } :=
  congrArg (fun x : State => { x with tiles := t.tiles }) h.1
theorem OnlyTile.regs {pt : At} {s t : State} (h : OnlyTile pt s t) : t.regs = s.regs := by rw [h.eq]
theorem OnlyTile.fab {pt : At} {s t : State} (h : OnlyTile pt s t) : t.fab = s.fab := by rw [h.eq]
theorem OnlyTile.hbm {pt : At} {s t : State} (h : OnlyTile pt s t) : t.hbm = s.hbm := by rw [h.eq]
theorem OnlyTile.raised {pt : At} {s t : State} (h : OnlyTile pt s t) : t.raised = s.raised := by rw [h.eq]
theorem OnlyTile.rd {pt : At} {s t : State} (h : OnlyTile pt s t) (f : Fld) (i : Nat) : t.rd f i = s.rd f i := by
  simp only [State.rd, h.regs]
theorem OnlyTile.trans {pt : At} {a b c : State} (h : OnlyTile pt a b) (g : OnlyTile pt b c) : OnlyTile pt a c :=
  ⟨(congrArg (fun x : State => { x with tiles := a.tiles }) g.1).trans h.1, fun k hk => (g.2 k hk).trans (h.2 k hk)⟩

/-! ### A move command that the engine takes at once (R74, Table 6-4) -/

theorem Tile.moveFree_iff (t : Tile) (c : Nat) : t.moveFree c = true ↔ t.quiet = true ∧ t.queue = [] ∧ t.lastStart ≤ c := by
  simp only [Tile.moveFree, Bool.and_eq_true, List.isEmpty_iff, decide_eq_true_eq, and_assoc]

/-- The place of a tile, a cycle later. -/
def nextCycle (pt : At) : At := { pt with cyc := pt.cyc + 1 }

/-- The tile with a command issued in cycle `c` alone in its queue. -/
def Tile.queued (t : Tile) (c : Nat) (m : MoveCmd) : Tile :=
  { t with now := max t.now c, queue := [m], nextId := t.nextId + 1 }
/-- The tile whose engine has taken, in cycle `c + 1`, the command issued in cycle `c`. -/
def Tile.taken (t : Tile) (c : Nat) : Tile :=
  { t with now := max (max t.now c) (c + 1), nextId := t.nextId + 1, queue := [], lastStart := c + 1 }

/-- A taken tile has seen the cycle of the start. -/
theorem Tile.settle_taken {t : Tile} (h : t.quiet = true) (c : Nat) : (t.taken c).settle (c + 1) = t.taken c := by
  have hq : (t.taken c).quiet = true := h
  have hnow : max (t.taken c).now (c + 1) = (t.taken c).now := by simp only [Tile.taken]; omega
  rw [Tile.settle_quiet hq, hnow]

/-- A move-slot operation on a quiet tile with an empty queue leaves its command alone in the queue. -/
theorem onTile_issueMove {pt : At} {s : State} (kind : MvKind) (o : MV) (hq : (s.here pt).quiet = true)
    (hqueue : (s.here pt).queue = []) :
    OnlyTile pt s (s.onTile pt (issueMove pt kind o)) ∧
      (s.onTile pt (issueMove pt kind o)).here pt = (s.here pt).queued pt.cyc (mkMove kind o (s.here pt)) := by
  obtain ⟨-, -, -, -, hrep⟩ := (Tile.quiet_iff _).mp hq
  have hissue : issueMove pt kind o { s.here pt with now := max (s.here pt).now pt.cyc } =
      (s.here pt).queued pt.cyc (mkMove kind o (s.here pt)) := by
    simp only [issueMove, Tile.enqueue, hqueue]
    rfl
  have h := State.onTile_quiet s pt (issueMove pt kind o) hq (by rw [hissue]; exact hrep)
  rwa [hissue] at h

/-- The engine, idle since an earlier cycle, takes the only queued command of a quiet tile. -/
theorem startFront_single {pt : At} {s : State} {m : MoveCmd} (hq : (s.here pt).quiet = true) (hm : (s.here pt).queue = [m])
    (hlast : (s.here pt).lastStart < pt.cyc) (hwait : s.poolWait pt.die.val m = false) :
    startFront pt s = startMove pt m (s.putTile pt.die.val pt.tile.val
      { s.here pt with now := max (s.here pt).now pt.cyc, queue := [], lastStart := pt.cyc }) := by
  have hsettle : (s.tile (tileKey pt.die pt.tile)).settle pt.cyc = { s.here pt with now := max (s.here pt).now pt.cyc } :=
    Tile.settle_quiet hq _
  simp only [startFront, hsettle, hm, hwait, Bool.or_false, decide_eq_true_eq]
  rw [if_neg (by omega)]

/-- With the engine free, a move-slot operation that no Tidepool must answer starts in the next cycle, on a state that
differs in its tile only. -/
theorem moveOp_taken {pt : At} {s : State} (kind : MvKind) (o : MV) (h : (s.here pt).moveFree pt.cyc = true)
    (hk : kind ≠ .tpld ∧ kind ≠ .tpst) :
    ∃ u, OnlyTile pt s u ∧ u.here pt = (s.here pt).taken pt.cyc ∧
      moveOp pt 0 kind o s = startMove (nextCycle pt) (mkMove kind o (s.here pt)) u := by
  obtain ⟨hq, hqueue, hlast⟩ := (Tile.moveFree_iff _ _).mp h
  obtain ⟨-, -, -, -, hrep⟩ := (Tile.quiet_iff _).mp hq
  obtain ⟨honly, hhere⟩ := onTile_issueMove kind o hq hqueue
  have hop : moveOp pt 0 kind o s = startFront (nextCycle pt) (s.onTile pt (issueMove pt kind o)) := by
    have hsettled : ((s.here pt).settle pt.cyc).queue = [] := by rw [Tile.settle_quiet hq, hqueue]
    exact if_pos ⟨rfl, List.isEmpty_iff.mpr hsettled⟩
  generalize s.onTile pt (issueMove pt kind o) = v at honly hhere hop
  have hv : v.here (nextCycle pt) = (s.here pt).queued pt.cyc (mkMove kind o (s.here pt)) := hhere
  have hwait : v.poolWait (nextCycle pt).die.val (mkMove kind o (s.here pt)) = false := by
    simp [State.poolWait, mkMove, hk]
  refine ⟨v.putTile pt.die.val pt.tile.val ((s.here pt).taken pt.cyc), honly.trans (v.onlyTile_putTile pt _ hrep), ?_, ?_⟩
  · rw [State.here_putTile]
    simp only [Tile.taken, hrep]
  · rw [hop, startFront_single (by rw [hv]; exact hq) (by rw [hv]; rfl) (by rw [hv]; exact Nat.lt_succ_of_le hlast) hwait, hv]
    rfl

/-- What the engine does with a taken tile in the cycle of the start. -/
theorem State.settle_of_taken {pt : At} {u : State} {t : Tile} (h : u.here pt = t.taken pt.cyc) (hq : t.quiet = true) :
    (u.tile (tileKey (nextCycle pt).die (nextCycle pt).tile)).settle (nextCycle pt).cyc = t.taken pt.cyc := by
  rw [← Tile.settle_taken hq pt.cyc, ← h]; rfl

/-- The tile whose engine has taken a command and made it active, with `left` parts outstanding. -/
def Tile.activated (t : Tile) (c : Nat) (kind : MvKind) (o : MV) (code left : Nat) (data : List Byte) : Tile :=
  (t.taken c).activate (c + 1) (mkMove kind o t) code left data false

/-- A command that ends at its start leaves its code with nothing outstanding. -/
theorem State.endAt_of_taken {pt : At} {u : State} {t : Tile} (h : u.here pt = t.taken pt.cyc) (hq : t.quiet = true) (kind : MvKind)
    (o : MV) (code : Nat) : u.endAt (nextCycle pt) (mkMove kind o t) code =
      u.putTile pt.die.val pt.tile.val (t.activated pt.cyc kind o code 0 []) := by
  rw [State.endAt, State.onTile, State.settle_of_taken h hq]; rfl

/-- Storing a quiet tile with its new active command changes nothing else. -/
theorem State.putTile_activated {t : Tile} (hq : t.quiet = true) (u : State) (pt : At) (kind : MvKind) (o : MV) (code left : Nat)
    (data : List Byte) :
    OnlyTile pt u (u.putTile pt.die.val pt.tile.val (t.activated pt.cyc kind o code left data)) ∧
      (u.putTile pt.die.val pt.tile.val (t.activated pt.cyc kind o code left data)).here pt = t.activated pt.cyc kind o code left data := by
  obtain ⟨-, -, -, -, hrep⟩ := (Tile.quiet_iff _).mp hq
  refine ⟨u.onlyTile_putTile pt _ hrep, ?_⟩
  rw [State.here_putTile]
  simp only [Tile.activated, Tile.activate, Tile.taken, hrep]

/-- The active command has started, with the tile store as it was. -/
theorem Tile.started_activated (t : Tile) (c : Nat) (kind : MvKind) (o : MV) (code left : Nat) (data : List Byte) :
    Started (t.activated c kind o code left data) t.nextId o.k code left ∧ (t.activated c kind o code left data).store = t.store :=
  ⟨⟨rfl, _, List.mem_append_right _ (List.mem_singleton_self _), rfl, rfl, rfl, rfl⟩, rfl⟩

end Sys2Proof.Machine
end

section
/-! SUPPORT. The fabric commands at the requester: what they meet (R7), what a refusal logs (R368) and what the others send (R333). -/
namespace Sys2Proof.Machine

/-! ### The requester log (R368) -/

/-- What FAB_REQLOG and FAB_REQLOG_INFO hold in `t` after a command recorded in state `s`: the first one stays, a later one sets MULTI. -/
structure ReqLogged (faddr code flow rank station tile : Nat) (s t : State) : Prop where
  valid : t.rd FAB_REQLOG_VALID = 1
  later : s.rd FAB_REQLOG_VALID = 1 → t.rd FAB_REQLOG_MULTI = 1 ∧ t.rd FAB_REQLOG_CODE = s.rd FAB_REQLOG_CODE ∧
    t.rd FAB_REQLOG_FADDR = s.rd FAB_REQLOG_FADDR
  first : s.rd FAB_REQLOG_VALID = 0 → t.rd FAB_REQLOG_CODE = code % 2 ^ 8 ∧ t.rd FAB_REQLOG_FADDR = faddr % 2 ^ 52 ∧
    t.rd FAB_REQLOG_INFO_FLOW = flow % 2 ^ 12 ∧ t.rd FAB_REQLOG_INFO_RANK = rank % 2 ^ 8 ∧
    t.rd FAB_REQLOG_INFO_STATION = station % 2 ^ 8 ∧ t.rd FAB_REQLOG_INFO_TILE = tile % 2 ^ 8

/-- The log depends on the registers alone. -/
theorem ReqLogged.of_regs {faddr code flow rank station tile : Nat} {s s' t t' : State}
    (h : ReqLogged faddr code flow rank station tile s t) (hs : s'.regs = s.regs) (ht : t'.regs = t.regs) :
    ReqLogged faddr code flow rank station tile s' t' := by
  have rs : ∀ f i, s'.rd f i = s.rd f i := fun f i => by rw [State.rd, hs]; rfl
  have rt : ∀ f i, t'.rd f i = t.rd f i := fun f i => by rw [State.rd, ht]; rfl
  obtain ⟨valid, later, first⟩ := h
  exact ⟨by rw [rt]; exact valid, by simpa only [rs, rt] using later, by simpa only [rs, rt] using first⟩

/-- The log changes registers only. -/
theorem State.reqLog_eq (s : State) (faddr code flow rank station tile : Nat) (late : Bool) :
    s.reqLog faddr code flow rank station tile late = { s with regs := (s.reqLog faddr code flow rank station tile late).regs } := by
  unfold State.reqLog
  split <;> rfl

theorem State.reqLog_logged (s : State) (faddr code flow rank station tile : Nat) (late : Bool) :
    ReqLogged faddr code flow rank station tile s (s.reqLog faddr code flow rank station tile late) := by
  have hbit := s.rd_lt FAB_REQLOG_VALID 0
  unfold State.reqLog
  by_cases h : s.rd FAB_REQLOG_VALID = 0
  · have hon : s.on FAB_REQLOG_VALID = false := by rw [State.on, h]; rfl
    refine ⟨?_, fun h' => absurd (h.symm.trans h') (by decide), fun _ => ?_⟩ <;>
      simp (disch := decide) only [hon, Bool.false_eq_true, if_false, State.bump, State.flag, State.rd_wr_same, State.rd_wr_apart,
        State.rd_wr_reg]
    · rfl
    · exact ⟨rfl, rfl, rfl, rfl, rfl, rfl⟩
  · have h1 : s.rd FAB_REQLOG_VALID = 1 := by simp only [FAB_REQLOG_VALID] at h hbit ⊢; omega
    have hon : s.on FAB_REQLOG_VALID = true := by rw [State.on, h1]; rfl
    refine ⟨?_, fun _ => ?_, fun h' => absurd h' h⟩ <;>
      simp (disch := decide) only [hon, if_true, State.bump, State.rd_wr_same, State.rd_wr_apart, State.rd_wr_reg]
    · exact h1
    · exact ⟨rfl, trivial, trivial⟩

/-! ### What a fabric command meets (R7, R151, R153, R332, R333, R338, R363) -/

/-- Rank, flow and offset of a fabric command (Table 6-2). -/
def fabRank (o : MV) : Nat := o.osf.toNat % 256
def fabFlow (o : MV) : Nat := o.osf.toNat / 256 % 4096
def fabOff (t : Tile) (o : MV) : Nat := (t.rdS o.sb).toNat
/-- Operand bytes of an atomic (R153). -/
def atomBytes (o : MV) : Nat := if o.osf.getLsbD 23 = true then 8 else 4
/-- Remote range of a command of packet type `typ`: an atomic's operand, or whole units from the offset's unit on. -/
def fabStart (typ : Nat) (t : Tile) (o : MV) : Nat := if typ = pATOM then fabOff t o else fabOff t o / 32 * 32
def fabBytes (typ : Nat) (o : MV) : Nat := if typ = pATOM then atomBytes o else 32 * o.len.toNat

/-- The flow is open to the rank (R332). -/
def State.flowBound (s : State) (o : MV) : Prop :=
  fabFlow o ≠ 4095 ∧ s.rd FAB_FLOW0_OPEN (fabFlow o) = 1 ∧ s.rd FAB_FLOW0_RANK (fabFlow o) = fabRank o
/-- Both ranges of a command are addresses, and its rank is valid (R136, R151, R153, R330). -/
structure State.fabAddressed (s : State) (typ : Nat) (t : Tile) (o : MV) : Prop where
  fits : moveFits t o
  window : fabOff t o < 2 ^ 46
  rank : s.rd FAB_RANK_VALID (fabRank o) = 1
  inside : fabStart typ t o + fabBytes typ o ≤ 2 ^ 46
  aligned : typ = pATOM → fabOff t o % atomBytes o = 0

theorem State.fabAddressed_iff {s : State} {typ : Nat} {t : Tile} {o : MV} : s.fabAddressed typ t o ↔
    moveFits t o ∧ fabOff t o < 2 ^ 46 ∧ s.rd FAB_RANK_VALID (fabRank o) = 1 ∧ fabStart typ t o + fabBytes typ o ≤ 2 ^ 46 ∧
      (typ = pATOM → fabOff t o % atomBytes o = 0) :=
  ⟨fun ⟨fits, window, rank, inside, aligned⟩ => ⟨fits, window, rank, inside, aligned⟩,
    fun ⟨fits, window, rank, inside, aligned⟩ => ⟨fits, window, rank, inside, aligned⟩⟩

theorem State.on_iff_rd_eq_one (s : State) (f : Fld) (i : Nat) (h : f.wd = 1) : s.on f i = true ↔ s.rd f i = 1 := by
  have := s.rd_lt f i
  rw [h] at this
  rw [State.on, bne_iff_ne]
  omega

section command
variable (kind : MvKind) (t : Tile) (o : MV) (typ : Nat)

theorem mkMove_rank : (mkMove kind o t).osfAt 39 8 = fabRank o := by
  simp only [MoveCmd.osfAt, bitsN, Nat.sub_self, Nat.pow_zero, Nat.div_one]; rfl
theorem mkMove_flow : (mkMove kind o t).osfAt 47 12 = fabFlow o := rfl
theorem mkMove_aop : (mkMove kind o t).osfAt 59 3 = o.osf.toNat / 2 ^ 20 % 8 := rfl
theorem mkMove_w64 : (mkMove kind o t).osfAt 62 1 = 1 ↔ o.osf.getLsbD 23 = true := by
  rw [BitVec.getLsbD, Nat.testBit_eq_decide_div_mod_eq, decide_eq_true_eq]; rfl
theorem mkMove_atomBytes : (if (mkMove kind o t).osfAt 62 1 = 1 then 8 else 4) = atomBytes o := by
  simp only [mkMove_w64, atomBytes]
theorem mkMove_start : (if typ = pATOM then (mkMove kind o t).rb.toNat else align32 (mkMove kind o t).rb.toNat) = fabStart typ t o := rfl

theorem mkMove_len (h : o.len ≠ 0) : (mkMove kind o t).len = o.len.toNat := if_neg h
theorem mkMove_len_ne {o : MV} (h : o.len ≠ 0) : (mkMove kind o t).len ≠ 0 := by
  rw [mkMove_len kind t o h]; exact fun h0 => h (BitVec.eq_of_toNat_eq h0)
theorem mkMove_bytes (h : o.len ≠ 0) : (mkMove kind o t).bytes = 32 * o.len.toNat := by rw [MoveCmd.bytes, mkMove_len kind t o h]

/-- The engine's check of the local range is the statements' (R136). -/
theorem mkMove_localOk : (mkMove kind o t).localOk = true ↔ moveFits t o := by
  simp only [MoveCmd.localOk, Bool.and_eq_true, decide_eq_true_eq]
  rfl

end command

/-- R7's order over the five causes a fabric command can meet. -/
theorem armCode_fabric : ∀ perm addr lost repl timeout : Bool,
    armCode [(cPERM, perm), (cADDR_FAULT, addr), (cTARGET_LOST, lost), (cREPLICA_WRITE, repl), (cTIMEOUT, timeout)] =
      if perm then cPERM else if addr then cADDR_FAULT else if lost then cTARGET_LOST else if repl then cREPLICA_WRITE
      else if timeout then cTIMEOUT else 0 := by decide

/-- A replica entry covers part of a command's remote range (R361). -/
def State.replicated (s : State) (typ : Nat) (t : Tile) (o : MV) : Prop :=
  (s.replMatch (fabRank o) (fabStart typ t o) (fabBytes typ o)).isSome = true

/-- A choice between the same value and equal others, by equivalent conditions. -/
theorem ite_of_iff {α : Type} {b c : Prop} [Decidable b] [Decidable c] {x y z : α} (h : b ↔ c) (hy : y = z) :
    (if b then x else y) = if c then x else z := ite_congr (propext h) (fun _ => rfl) fun _ => hy

/-- The cause of a fabric command: the first of its conditions that holds. -/
theorem State.fabCause_eq (s : State) (kind : MvKind) (typ : Nat) {t : Tile} {o : MV} (hl : o.len ≠ 0)
    [Decidable (s.flowBound o)] [Decidable (s.fabAddressed typ t o)] [Decidable (s.replicated typ t o)] :
    s.fabCause (mkMove kind o t) typ =
      if ¬ s.flowBound o then cPERM else if ¬ s.fabAddressed typ t o then cADDR_FAULT
      else if s.rd FAB_NODE_STATE (s.rd FAB_RANK_NODE (fabRank o)) ≠ 1 ∧ ¬ (typ = pLD ∧ s.replicated typ t o) then cTARGET_LOST
      else if typ ≠ pLD ∧ s.replicated typ t o then cREPLICA_WRITE
      else if s.rd FAB_FLOW0_FAILED (fabFlow o) = 1 then cTIMEOUT else 0 := by
  have hon := s.on_iff_rd_eq_one
  simp only [State.fabCause, armCode_fabric, mkMove_rank, mkMove_flow, mkMove_atomBytes, mkMove_start, mkMove_bytes kind t o hl]
  refine ite_of_iff ?_ (ite_of_iff ?_ (ite_of_iff ?_ (ite_of_iff ?_ (ite_of_iff ?_ rfl))))
  · simp only [Bool.or_eq_true, Bool.not_eq_true', ← Bool.not_eq_true, hon FAB_FLOW0_OPEN _ rfl, beq_iff_eq, bne_iff_ne, State.flowBound,
      Classical.not_and_iff_not_or_not, Classical.not_not, ne_eq, or_assoc]
  · simp only [Bool.or_eq_true, Bool.and_eq_true, Bool.not_eq_true', ← Bool.not_eq_true, hon FAB_RANK_VALID _ rfl, beq_iff_eq,
      bne_iff_ne, decide_eq_true_eq, mkMove_localOk, State.fabAddressed_iff]
    change (((¬ moveFits t o ∨ 2 ^ 46 ≤ fabOff t o) ∨ _) ∨ 2 ^ 46 < fabStart typ t o + fabBytes typ o) ∨
      typ = pATOM ∧ ¬ fabOff t o % atomBytes o = 0 ↔ _
    have hoff : 2 ^ 46 ≤ fabOff t o ↔ ¬ fabOff t o < 2 ^ 46 := Nat.not_lt.symm
    have hend : 2 ^ 46 < fabStart typ t o + fabBytes typ o ↔ ¬ fabStart typ t o + fabBytes typ o ≤ 2 ^ 46 := Nat.not_le.symm
    simp only [hoff, hend, Classical.not_and_iff_not_or_not, Classical.not_imp, or_assoc]
  · simp only [Bool.and_eq_true, Bool.not_eq_true', ← Bool.not_eq_true, beq_iff_eq, State.nodeUp]
    rfl
  · simp only [Bool.and_eq_true, bne_iff_ne]; rfl
  · exact hon FAB_FLOW0_FAILED _ rfl

/-- With no valid replica entry nothing is redirected (R361). -/
theorem State.replMatch_plain {s : State} (h : ∀ e, e < 64 → s.rd FAB_REPL0_VALID e = 0) (rank off len : Nat) :
    s.replMatch rank off len = none := by
  rw [State.replMatch, List.find?_eq_none]
  intro e he
  have hv := h e (List.mem_range.mp he)
  simp [State.replRange, State.replOn, State.on, hv]

section causes
variable {s : State} {kind : MvKind} {typ : Nat} {t : Tile} {o : MV}

theorem State.fabCause_perm (hl : o.len ≠ 0) (hb : ¬ s.flowBound o) : s.fabCause (mkMove kind o t) typ = cPERM := by
  classical
  rw [s.fabCause_eq kind typ hl, if_pos hb]

theorem State.fabCause_addr (hl : o.len ≠ 0) (hb : s.flowBound o) (ha : ¬ s.fabAddressed typ t o) :
    s.fabCause (mkMove kind o t) typ = cADDR_FAULT := by
  classical
  rw [s.fabCause_eq kind typ hl, if_neg (not_not_intro hb), if_pos ha]

/-- Past the checks of the flow and of the addresses, the target decides (R7). -/
theorem State.fabCause_target (hl : o.len ≠ 0) (hb : s.flowBound o) (ha : s.fabAddressed typ t o) [Decidable (s.replicated typ t o)] :
    s.fabCause (mkMove kind o t) typ =
      if s.rd FAB_NODE_STATE (s.rd FAB_RANK_NODE (fabRank o)) ≠ 1 ∧ ¬ (typ = pLD ∧ s.replicated typ t o) then cTARGET_LOST
      else if typ ≠ pLD ∧ s.replicated typ t o then cREPLICA_WRITE
      else if s.rd FAB_FLOW0_FAILED (fabFlow o) = 1 then cTIMEOUT else 0 := by
  classical
  rw [s.fabCause_eq kind typ hl, if_neg (not_not_intro hb), if_neg (not_not_intro ha)]

theorem State.not_replicated (h : ∀ e, e < 64 → s.rd FAB_REPL0_VALID e = 0) : ¬ s.replicated typ t o := by
  simp [State.replicated, State.replMatch_plain h]

/-- With no replica entry, a command meets its node's state, then its flow's. -/
theorem State.fabCause_plain (hl : o.len ≠ 0) (hb : s.flowBound o) (ha : s.fabAddressed typ t o)
    (hplain : ∀ e, e < 64 → s.rd FAB_REPL0_VALID e = 0) :
    s.fabCause (mkMove kind o t) typ =
      if s.rd FAB_NODE_STATE (s.rd FAB_RANK_NODE (fabRank o)) ≠ 1 then cTARGET_LOST
      else if s.rd FAB_FLOW0_FAILED (fabFlow o) = 1 then cTIMEOUT else 0 := by
  classical
  simp only [s.fabCause_target hl hb ha, State.not_replicated hplain, and_false, not_false_eq_true, and_true, if_false]

theorem State.fabCause_replica (hl : o.len ≠ 0) (hb : s.flowBound o) (ha : s.fabAddressed typ t o)
    (hn : s.rd FAB_NODE_STATE (s.rd FAB_RANK_NODE (fabRank o)) = 1) (ht : typ ≠ pLD) (hr : s.replicated typ t o) :
    s.fabCause (mkMove kind o t) typ = cREPLICA_WRITE := by
  classical
  rw [s.fabCause_target hl hb ha, if_neg fun h => h.1 hn, if_pos ⟨ht, hr⟩]

end causes

/-! ### Starting a fabric command -/

/-- `i` is a fabric operation of kind `kind` and packet type `typ`: in state `s` the engine starts it at once. -/
structure FabricOp (pt : At) (o : MV) (s : State) (i : Instr) (kind : MvKind) (typ : Nat) : Prop where
  len : o.len ≠ 0
  starts : ∃ u, OnlyTile pt s u ∧ u.here pt = (s.here pt).taken pt.cyc ∧
    exec i s = .next (startFabric typ (nextCycle pt) (mkMove kind o (s.here pt)) u)

theorem firstCause_eq_zero (cs : List (Nat × Bool)) (hc : ∀ x ∈ cs, x.1 ≠ 0) : firstCause cs = 0 ↔ ∀ x ∈ cs, x.2 = false := by
  induction cs with
  | nil => simp [firstCause]
  | cons x cs ih =>
    obtain ⟨c, b⟩ := x
    rw [List.forall_mem_cons] at hc
    cases b <;> simp [firstCause, ih hc.2, hc.1]

section ops
variable {pt : At} {o : MV} {s : State}

theorem causeFl_len (h : causeFl o = 0) : o.len ≠ 0 := by
  have := (firstCause_eq_zero _ (by simp)).mp h (8, o.len == 0) (by simp)
  simpa using this
theorem causeFatm_len (h : causeFatm o = 0) : o.len ≠ 0 := by
  have := (firstCause_eq_zero _ (by simp)).mp h (8, _) (List.mem_cons_of_mem _ (List.mem_singleton_self _))
  simp only [Bool.or_eq_false_iff, bne_eq_false_iff_eq] at this
  rw [this.1]
  decide

/-- A fabric operation without a cause starts at once on a free engine. -/
theorem fabricOp_of_exec {i : Instr} {kind : MvKind} {typ cause : Nat} (hf : (s.here pt).moveFree pt.cyc = true) (hc : cause = 0)
    (hl : o.len ≠ 0) (hk : kind ≠ .tpld ∧ kind ≠ .tpst) (hexec : exec i s = .next (moveOp pt cause kind o s))
    (hstart : ∀ u, startMove (nextCycle pt) (mkMove kind o (s.here pt)) u = startFabric typ (nextCycle pt) (mkMove kind o (s.here pt)) u) :
    FabricOp pt o s i kind typ := by
  obtain ⟨u, honly, hhere, hop⟩ := moveOp_taken kind o hf hk
  exact ⟨hl, u, honly, hhere, by rw [hexec, hc, hop, hstart]⟩

theorem fabricOp_fld (hf : (s.here pt).moveFree pt.cyc = true) (h : Legal s (.fld pt o)) : FabricOp pt o s (.fld pt o) .fld pLD :=
  fabricOp_of_exec hf h (causeFl_len h) (by decide) rfl fun _ => rfl
theorem fabricOp_fst (hf : (s.here pt).moveFree pt.cyc = true) (h : Legal s (.fst pt o)) : FabricOp pt o s (.fst pt o) .fst pST :=
  fabricOp_of_exec hf h (causeFl_len h) (by decide) rfl fun _ => rfl
theorem fabricOp_fatm (hf : (s.here pt).moveFree pt.cyc = true) (h : Legal s (.fatm pt o)) : FabricOp pt o s (.fatm pt o) .fatm pATOM :=
  fabricOp_of_exec hf h (causeFatm_len h) (by decide) rfl fun _ => rfl

end ops

/-! ### A command that sends nothing -/

/-- The state with a refusal in the requester log; a lost target raises kind 0x56 (R368, Table 20-2). -/
def State.noteRefusal (s : State) (faddr code flow rank station tile : Nat) : State :=
  { s with regs := (s.reqLog faddr code flow rank station tile false).regs,
           raised := s.raised ++ if code = cTARGET_LOST then [⟨0x56, 0x30, flow, none, 0, 0⟩] else [] }

/-- A fabric command with a cause that the log records ends at its start with it. -/
theorem startFabric_refused {typ code : Nat} {pt : At} {m : MoveCmd} {s : State} (hc : s.fabCause m typ = code)
    (hlog : logged code = true) (hl : m.len ≠ 0) (hok : code = cADDR_FAULT → m.localOk = true) :
    startFabric typ pt m s =
      (s.noteRefusal (s.rd FAB_RANK_NODE (m.osfAt 39 8) * 2 ^ 46 + (if typ = pATOM then m.rb.toNat else align32 m.rb.toNat) % 2 ^ 46)
        code (m.osfAt 47 12) (m.osfAt 39 8) pt.die.val pt.tile.val).endAt pt m code := by
  have hend : (code = cADDR_FAULT && !m.localOk) = false := by
    by_cases h : code = cADDR_FAULT
    · rw [hok h]; simp
    · simp [h]
  cases code with
  | zero => exact absurd hlog (by decide)
  | succ c =>
    simp only [startFabric, if_neg hl, hc, hlog, hend, if_true, Bool.false_eq_true, if_false, State.noteRefusal]
    rw [State.reqLog_eq]
    split
    · rfl
    · rw [List.append_nil]

/-- The fabric address of an offset at a command's rank (R347). -/
def State.fabAddr (s : State) (o : MV) (start : Nat) : Nat := s.rd FAB_RANK_NODE (fabRank o) * 2 ^ 46 + start % 2 ^ 46

/-- What a refused fabric command leaves: its code at the tile, its entry in the log, and nothing sent. -/
def FabRefused (pt : At) (o : MV) (start code : Nat) (s t : State) : Prop :=
  Started (t.here pt) (s.here pt).nextId o.k code 0 ∧ (t.here pt).store = (s.here pt).store ∧ t.fab = s.fab ∧ t.hbm = s.hbm ∧
    t.rd FAB_REQLOG_VALID = 1 ∧
    (s.rd FAB_REQLOG_VALID = 1 → t.rd FAB_REQLOG_MULTI = 1 ∧ t.rd FAB_REQLOG_CODE = s.rd FAB_REQLOG_CODE ∧
      t.rd FAB_REQLOG_FADDR = s.rd FAB_REQLOG_FADDR) ∧
    (s.rd FAB_REQLOG_VALID = 0 → t.rd FAB_REQLOG_CODE = code ∧
      t.rd FAB_REQLOG_FADDR = s.fabAddr o start ∧ t.rd FAB_REQLOG_INFO_FLOW = fabFlow o ∧
      t.rd FAB_REQLOG_INFO_RANK = fabRank o ∧ t.rd FAB_REQLOG_INFO_STATION = pt.die.val ∧ t.rd FAB_REQLOG_INFO_TILE = pt.tile.val) ∧
    t.raised = s.raised ++ if code = 2 then [⟨0x56, 0x30, fabFlow o, none, 0, 0⟩] else []

/-- The log's fields hold a fabric command's address, flow, rank and place whole. -/
theorem ReqLogged.whole {pt : At} {o : MV} {start code : Nat} {s t : State} (hcode : code < 256)
    (h : ReqLogged (s.fabAddr o start) code (fabFlow o) (fabRank o) pt.die.val pt.tile.val s t)
    (h0 : s.rd FAB_REQLOG_VALID = 0) :
    t.rd FAB_REQLOG_CODE = code ∧ t.rd FAB_REQLOG_FADDR = s.fabAddr o start ∧
      t.rd FAB_REQLOG_INFO_FLOW = fabFlow o ∧ t.rd FAB_REQLOG_INFO_RANK = fabRank o ∧
      t.rd FAB_REQLOG_INFO_STATION = pt.die.val ∧ t.rd FAB_REQLOG_INFO_TILE = pt.tile.val := by
  obtain ⟨hc, ha, hf, hr, hd, ht⟩ := h.first h0
  have hnode : s.rd FAB_RANK_NODE (fabRank o) < 2 ^ 6 := s.rd_lt FAB_RANK_NODE _
  refine ⟨?_, ?_, ?_, ?_, ?_, ?_⟩
  · rw [hc]; omega
  · rw [ha, State.fabAddr]; omega
  · rw [hf, fabFlow]; omega
  · rw [hr, fabRank]; omega
  · rw [hd]; have := pt.die.isLt; omega
  · rw [ht]; have := pt.tile.isLt; omega

/-- A fabric operation with a cause that the log records is refused. -/
theorem FabricOp.refused {pt : At} {o : MV} {s : State} {i : Instr} {kind : MvKind} {typ code : Nat} (h : FabricOp pt o s i kind typ)
    (hq : (s.here pt).quiet = true) (hc : s.fabCause (mkMove kind o (s.here pt)) typ = code) (hlog : logged code = true)
    (hcode : code < 256) (hok : code = cADDR_FAULT → moveFits (s.here pt) o) :
    Yields i s (FabRefused pt o (fabStart typ (s.here pt) o) code s) := by
  obtain ⟨hlen, u, honly, hhere, hexec⟩ := h
  rw [startFabric_refused (by rw [honly.eq]; exact hc) hlog (mkMove_len_ne kind _ hlen) fun h4 => (mkMove_localOk _ _ _).mpr (hok h4),
    mkMove_rank, mkMove_flow, mkMove_start, honly.rd, State.endAt_of_taken (by exact hhere) hq] at hexec
  obtain ⟨hw, hwhere⟩ := State.putTile_activated hq (u.noteRefusal (s.fabAddr o (fabStart typ (s.here pt) o)) code (fabFlow o)
    (fabRank o) pt.die.val pt.tile.val) pt kind o code 0 []
  have hlogged := (u.reqLog_logged (s.fabAddr o (fabStart typ (s.here pt) o)) code (fabFlow o) (fabRank o) pt.die.val pt.tile.val
    false).of_regs honly.regs.symm hw.regs
  obtain ⟨hstarted, hstore⟩ := (s.here pt).started_activated pt.cyc kind o code 0 []
  rw [← hwhere] at hstarted hstore
  refine ⟨_, hexec, hstarted, hstore, honly.fab, honly.hbm, hlogged.valid, hlogged.later, hlogged.whole hcode, ?_⟩
  rw [← honly.raised]
  exact hw.raised

/-! ### A command that is sent -/

/-- A command's packets, listed by their index. -/
theorem splitCmd_eq (mk : Nat → Nat → Nat → Bool → FabPkt) (off len n i : Nat) :
    splitCmd mk off len n i =
      (List.range n).map fun j => mk (i + j) (off + 256 * (i + j)) (min 256 (len - 256 * (i + j))) (decide (j + 1 = n)) := by
  induction n generalizing i with
  | zero => rfl
  | succ n ih =>
    rw [splitCmd, ih, List.range_succ_eq_map, List.map_cons, List.map_map]
    congr 1
    · cases n <;> rfl
    · refine List.map_congr_left fun j _ => ?_
      have hi : i + 1 + j = i + (j + 1) := by omega
      simp only [Function.comp, hi, Nat.succ_eq_add_one, Nat.add_right_cancel_iff]

/-- Packet `i` of a command whose data holds no poison and that no replica entry redirects, as `issue` queues it (Table 14-1). -/
def State.fabPkt (s : State) (c : FabCmd) (node role epoch aop : Nat) (w64 : Bool) (data : List Byte) (i off len : Nat) (last : Bool) : FabPkt :=
  ⟨c.cid, ⟨c.typ, 0, node, s.rd FAB_CTRL_NODE_ID, 0, last, c.flow, 0, 0, (s.rd FAB_FLOW1_NEXT_SEQ c.flow + i) % 2 ^ 32, off,
    if c.typ = pATOM then data.length else len, epoch, role, aop, w64, 0, i, 0,
    if c.typ = pLD then [] else if c.typ = pATOM then data else (data.drop (256 * i)).take len⟩, none, false, true, none⟩
/-- The packets of a command over its remote range (R333). -/
def State.fabPkts (s : State) (c : FabCmd) (node off len role epoch aop : Nat) (w64 : Bool) (data : List Byte) : List FabPkt :=
  splitCmd (s.fabPkt c node role epoch aop w64 data) off len (if c.typ = pATOM then 1 else (len + 255) / 256) 0

theorem State.fabPkts_aim {s : State} {c : FabCmd} {node off len role epoch aop : Nat} {w64 : Bool} {data : List Byte} {p : FabPkt}
    (h : p ∈ s.fabPkts c node off len role epoch aop w64 data) : p.repl = none ∧ p.pkt.dst = node := by
  rw [State.fabPkts, splitCmd_eq, List.mem_map] at h
  obtain ⟨j, -, rfl⟩ := h
  exact ⟨rfl, rfl⟩

theorem filter_const_false {α : Type} (l : List α) : (l.filter fun _ => false) = [] :=
  List.filter_eq_nil_iff.mpr fun _ _ => Bool.false_ne_true
theorem getD_false_of_forall {bs : List Bool} (h : ∀ b ∈ bs, b = false) (n : Nat) : bs.getD n false = false := by
  rw [List.getD_eq_getElem?_getD, Option.getD_eq_iff]
  by_cases hn : n < bs.length
  · exact .inl (by rw [List.getElem?_eq_getElem hn, h _ (List.getElem_mem hn)])
  · exact .inr ⟨List.getElem?_eq_none (by omega), rfl⟩

/-- Taking sequence numbers leaves a flow's plane UP. -/
theorem State.planeUp_wr_nextSeq {s : State} {f : Nat} (hplane : s.rd FAB_PLANE_STATE (s.rd FAB_FLOW0_CUR_PLANE f) = 2) (hf : f < 4096)
    (v : Nat) : ((s.wr FAB_FLOW1_NEXT_SEQ f v).planeSt ((s.wr FAB_FLOW1_NEXT_SEQ f v).rd FAB_FLOW0_CUR_PLANE f) != planeUp) = false := by
  have hp : s.rd FAB_FLOW0_CUR_PLANE f < 2 ^ 3 := s.rd_lt _ _
  rw [State.planeSt, State.rd_wr_reg s _ FAB_FLOW0_CUR_PLANE _ _ v (by omega) (by omega) (by decide),
    State.rd_wr_reg s _ _ _ _ v (by omega) (by omega) (by decide), hplane]
  rfl

/-- Issuing on a flow leaves a node UP. -/
theorem State.nodeUp_issued {s : State} {f node : Nat} (hnode : s.rd FAB_NODE_STATE node = 1) (hf : f < 4096) (hn : node < 64) (v : Nat)
    (g : Fab → Fab) : (((s.wr FAB_FLOW1_NEXT_SEQ f v).onFab g).countOut f).nodeUp node = true := by
  rw [State.nodeUp, State.countOut, State.rd_wr_reg _ _ _ _ _ _ (by omega) (by omega) (by decide)]
  change ((s.wr FAB_FLOW1_NEXT_SEQ f v).rd FAB_NODE_STATE node == 1) = true
  rw [State.rd_wr_reg s _ _ _ _ v (by omega) (by omega) (by decide), hnode]
  rfl

/-- A command to a node that is UP, on a plane that is UP, queues its packets and takes its sequence numbers (R333). -/
theorem State.issue_plain {s : State} {c : FabCmd} {node off len role epoch aop : Nat} {w64 : Bool} {data : List Byte} {bad : List Bool}
    (hplain : ∀ e, e < 64 → s.rd FAB_REPL0_VALID e = 0) (hbad : ∀ b ∈ bad, b = false) (hnode : s.rd FAB_NODE_STATE node = 1)
    (hplane : s.rd FAB_PLANE_STATE (s.rd FAB_FLOW0_CUR_PLANE c.flow) = 2) (hf : c.flow < 4096) (hn : node < 64) :
    s.issue c node off len role epoch aop w64 data bad =
      ((s.wr FAB_FLOW1_NEXT_SEQ c.flow ((s.rd FAB_FLOW1_NEXT_SEQ c.flow + if c.typ = pATOM then 1 else (len + 255) / 256) % 2 ^ 32)).onFab fun x =>
        { x with cmds := x.cmds ++ [c], pkts := x.pkts ++ s.fabPkts c node off len role epoch aop w64 data,
                 nextCid := x.nextCid + 1 }).countOut c.flow := by
  have hgood := getD_false_of_forall hbad
  have hdown := State.planeUp_wr_nextSeq hplane hf
  have hup := State.nodeUp_issued hnode hf hn
  simp only [State.issue, State.replMatch_plain hplain, hgood, hdown, ite_self, filter_const_false, List.foldl_nil, Option.isSome_none,
    Bool.false_and, Bool.false_eq_true, if_false]
  refine (congrArg (List.foldl _ _) (List.filter_eq_nil_iff.mpr fun p hp => ?_)).trans rfl
  obtain ⟨hrepl, hdst⟩ := State.fabPkts_aim (s := s) (c := c) hp
  simp only [hrepl, hdst, hup, Bool.not_true, Bool.false_eq_true, not_false_eq_true]

/-! ### The data of a command -/

/-- The data a fabric command sends: nothing, an atomic's operands, or its local range (R153). -/
def fabData (typ : Nat) (t : Tile) (o : MV) : List Byte :=
  let bs := t.bytes (moveLocal t o) (32 * o.len.toNat)
  if typ = pLD then [] else if typ = pATOM then
    bs.take (atomBytes o) ++ (if o.osf.toNat / 2 ^ 20 % 8 = 2 then (bs.drop 8).take (atomBytes o) else []) else bs

/-- The command as the requester holds it. -/
def State.fabCmd (s : State) (pt : At) (typ : Nat) (o : MV) : FabCmd :=
  ⟨s.fab.nextCid, fabFlow o, fabRank o, typ, some (pt.die.val, pt.tile.val, (s.here pt).nextId), false, moveLocal (s.here pt) o, 0, false,
    32 * o.len.toNat, 0, none⟩

/-- A read of a store without errors reports nothing and is not poisoned (R72). -/
theorem Tile.readLocal_good {t : Tile} (h : t.ecc = []) (m : MoveCmd) : t.readLocal m = (t, t.bytes m.la32 m.bytes, false) := by
  have hr : t.readFaults false m.la32 m.bytes = t := by
    cases t; subst h
    simp [Tile.readFaults, Tile.reportWords]
  simp only [Tile.readLocal, hr, h]
  rfl

theorem Tile.badUnits_good {t : Tile} (h : t.ecc = []) (a n : Nat) : ∀ b ∈ t.badUnits a n, b = false := by
  intro b hb
  rw [Tile.badUnits, h, List.mem_map] at hb
  obtain ⟨u, -, rfl⟩ := hb
  rfl

/-- From `u`, the packets of a fabric operation of type `typ` that state `s` issues; `bad` is the poison of its units. -/
def State.issueOp (u s : State) (pt : At) (typ : Nat) (o : MV) (bad : List Bool) : State :=
  u.issue (s.fabCmd pt typ o) (s.rd FAB_RANK_NODE (fabRank o)) (fabStart typ (s.here pt) o) (fabBytes typ o)
    (((s.here pt).rdS o.sc).toNat / 2 ^ 16 % 8) (((s.here pt).rdS o.sc).toNat % 2 ^ 16)
    (if typ = pATOM then o.osf.toNat / 2 ^ 20 % 8 else 0) (typ == pATOM && o.osf.getLsbD 23) (fabData typ (s.here pt) o) bad

/-- The packets of a fabric operation of type `typ` (R333). -/
def State.opPkts (s : State) (pt : At) (typ : Nat) (o : MV) : List FabPkt :=
  s.fabPkts (s.fabCmd pt typ o) (s.rd FAB_RANK_NODE (fabRank o)) (fabStart typ (s.here pt) o) (fabBytes typ o)
    (((s.here pt).rdS o.sc).toNat / 2 ^ 16 % 8) (((s.here pt).rdS o.sc).toNat % 2 ^ 16)
    (if typ = pATOM then o.osf.toNat / 2 ^ 20 % 8 else 0) (typ == pATOM && o.osf.getLsbD 23) (fabData typ (s.here pt) o)

/-- A fabric command without a cause, on a tile store without errors, is active with one part and issues its packets. -/
theorem startFabric_sent {typ : Nat} {pt : At} {kind : MvKind} {o : MV} {s u : State} (hu : OnlyTile pt s u)
    (hhere : u.here pt = (s.here pt).taken pt.cyc) (hq : (s.here pt).quiet = true) (hecc : (s.here pt).ecc = [])
    (hc : s.fabCause (mkMove kind o (s.here pt)) typ = 0) (hl : o.len ≠ 0) :
    ∃ bad, (∀ b ∈ bad, b = false) ∧ startFabric typ (nextCycle pt) (mkMove kind o (s.here pt)) u =
      (u.putTile pt.die.val pt.tile.val ((s.here pt).activated pt.cyc kind o cOK 1 (fabData typ (s.here pt) o))).issueOp s pt typ o
        bad := by
  have hcu : u.fabCause (mkMove kind o (s.here pt)) typ = 0 := by rw [hu.eq]; exact hc
  have hw : ((mkMove kind o (s.here pt)).osfAt 62 1 == 1) = o.osf.getLsbD 23 := by
    rw [Bool.eq_iff_iff, beq_iff_eq, mkMove_w64]
  have hecc' : ((s.here pt).taken pt.cyc).ecc = [] := hecc
  refine ⟨if typ = pLD then [] else ((s.here pt).taken pt.cyc).badUnits (moveLocal (s.here pt) o) (32 * o.len.toNat), ?_, ?_⟩
  · split
    · simp
    · exact Tile.badUnits_good hecc' _ _
  · simp only [startFabric, if_neg (mkMove_len_ne kind _ hl), hcu, State.settle_of_taken hhere hq, Tile.readLocal_good hecc', mkMove_rank,
      mkMove_flow, mkMove_aop, mkMove_start, hw, mkMove_bytes _ _ _ hl, hu.rd, State.issueOp, State.fabCmd, ← hu.fab]
    by_cases hld : typ = pLD
    · subst hld; rfl
    · simp only [if_neg hld, fabData, Bool.false_eq_true, if_false]
      rfl

/-- What the issue of `k` packets `ps` of a command leaves: its sequence numbers taken, the command and its packets queued. -/
structure Issued (c : FabCmd) (k : Nat) (ps : List FabPkt) (s t : State) : Prop where
  seq : t.rd FAB_FLOW1_NEXT_SEQ c.flow = (s.rd FAB_FLOW1_NEXT_SEQ c.flow + k) % 2 ^ 32
  regs : RegsBut [(FAB_FLOW1_NEXT_SEQ, c.flow), (FAB_FLOW1_OUTSTANDING, c.flow)] s t
  cmds : t.fab.cmds = s.fab.cmds ++ [c]
  pkts : t.fab.pkts = s.fab.pkts ++ ps
  frame : { t with fab := s.fab, regs := s.regs } = s

theorem State.issue_issued {s : State} {c : FabCmd} {node off len role epoch aop : Nat} {w64 : Bool} {data : List Byte} {bad : List Bool}
    (hplain : ∀ e, e < 64 → s.rd FAB_REPL0_VALID e = 0) (hbad : ∀ b ∈ bad, b = false) (hnode : s.rd FAB_NODE_STATE node = 1)
    (hplane : s.rd FAB_PLANE_STATE (s.rd FAB_FLOW0_CUR_PLANE c.flow) = 2) (hf : c.flow < 4096) (hn : node < 64) :
    Issued c (if c.typ = pATOM then 1 else (len + 255) / 256) (s.fabPkts c node off len role epoch aop w64 data) s
      (s.issue c node off len role epoch aop w64 data bad) := by
  rw [State.issue_plain hplain hbad hnode hplane hf hn]
  refine ⟨?_, ?_, rfl, rfl, rfl⟩
  · rw [State.countOut, State.rd_wr_apart _ FAB_FLOW1_OUTSTANDING FAB_FLOW1_NEXT_SEQ _ _ (by decide) rfl (by decide)]
    exact (State.rd_wr_same s _ _ _ (by decide)).trans (Nat.mod_mod _ _)
  · exact ((RegsBut.of_wr s _ _ _).mono (by simp)).trans ((RegsBut.of_wr _ FAB_FLOW1_OUTSTANDING c.flow _).mono (by simp))

/-- The packets of a command depend on the registers alone. -/
theorem State.fabPkts_of_regs {s u : State} (h : u.regs = s.regs) (c : FabCmd) : u.fabPkts c = s.fabPkts c := by
  have hpkt : u.fabPkt c = s.fabPkt c := by
    funext node role epoch aop w64 data i off len last
    simp only [State.fabPkt, State.rd, h]
  funext node off len role epoch aop w64 data
  rw [State.fabPkts, hpkt, State.fabPkts]

section sent
variable {pt : At} {o : MV} {s : State} {typ : Nat}

/-- A command's packets go to its own node at once: no replica entry is valid, its node and its plane are UP (R330, R340, R361). -/
structure State.pathUp (s : State) (o : MV) : Prop where
  plain : ∀ e, e < 64 → s.rd FAB_REPL0_VALID e = 0
  node : s.rd FAB_NODE_STATE (s.rd FAB_RANK_NODE (fabRank o)) = 1
  plane : s.rd FAB_PLANE_STATE (s.rd FAB_FLOW0_CUR_PLANE (fabFlow o)) = 2

theorem State.issueOp_issued {u : State} (hu : OnlyTile pt s u) (hp : s.pathUp o) {bad : List Bool} (hbad : ∀ b ∈ bad, b = false) :
    Issued (s.fabCmd pt typ o) (if typ = pATOM then 1 else (fabBytes typ o + 255) / 256) (s.opPkts pt typ o) u
      (u.issueOp s pt typ o bad) := by
  obtain ⟨hplain, hnode, hplane⟩ := hp
  rw [State.opPkts, ← State.fabPkts_of_regs hu.regs]
  exact State.issue_issued (by simpa only [hu.rd] using hplain) hbad (by rw [hu.rd]; exact hnode)
    (by simp only [hu.rd]; exact hplane) (Nat.mod_lt _ (by decide)) (s.rd_lt FAB_RANK_NODE _)

/-- What a fabric command that is sent leaves: it is active with one part, and its packets wait for their ports. -/
def FabSent (pt : At) (o : MV) (typ k : Nat) (ps : List FabPkt) (s t : State) : Prop :=
  Started (t.here pt) (s.here pt).nextId o.k 0x00 1 ∧ (t.here pt).store = (s.here pt).store ∧
    t.rd FAB_FLOW1_NEXT_SEQ (fabFlow o) = (s.rd FAB_FLOW1_NEXT_SEQ (fabFlow o) + k) % 2 ^ 32 ∧
    RegsBut [(FAB_FLOW1_NEXT_SEQ, fabFlow o), (FAB_FLOW1_OUTSTANDING, fabFlow o)] s t ∧
    t.fab.cmds = s.fab.cmds ++ [s.fabCmd pt typ o] ∧ t.fab.pkts = s.fab.pkts ++ ps ∧
    { t with tiles := s.tiles, fab := s.fab, regs := s.regs } = s

/-- A fabric operation that meets nothing is sent. -/
theorem FabricOp.sent {i : Instr} {kind : MvKind} (h : FabricOp pt o s i kind typ)
    (hq : (s.here pt).quiet = true) (hb : s.flowBound o) (ha : s.fabAddressed typ (s.here pt) o) (hp : s.pathUp o)
    (hfailed : s.rd FAB_FLOW0_FAILED (fabFlow o) = 0) (hecc : (s.here pt).ecc = []) :
    Yields i s (FabSent pt o typ (if typ = pATOM then 1 else (fabBytes typ o + 255) / 256) (s.opPkts pt typ o) s) := by
  obtain ⟨hlen, u, honly, hhere, hexec⟩ := h
  have hcause : s.fabCause (mkMove kind o (s.here pt)) typ = 0 := by
    rw [State.fabCause_plain hlen hb ha hp.plain, if_neg (not_not_intro hp.node), if_neg (by rw [hfailed]; decide)]
  obtain ⟨bad, hbad, hstart⟩ := startFabric_sent honly hhere hq hecc hcause hlen
  rw [hstart] at hexec
  obtain ⟨hu, hhereA⟩ := State.putTile_activated hq u pt kind o cOK 1 (fabData typ (s.here pt) o)
  generalize u.putTile pt.die.val pt.tile.val _ = v at hexec hu hhereA
  have hv : OnlyTile pt s v := honly.trans hu
  obtain ⟨hseq, hregs, hcmds, hpkts, hframe⟩ := State.issueOp_issued (typ := typ) hv hp hbad
  generalize v.issueOp s pt typ o bad = w at *
  have hw : w.here pt = (s.here pt).activated pt.cyc kind o cOK 1 (fabData typ (s.here pt) o) := by rw [← hhereA, ← hframe]; rfl
  obtain ⟨hstarted, hstore⟩ := (s.here pt).started_activated pt.cyc kind o cOK 1 (fabData typ (s.here pt) o)
  rw [← hw] at hstarted hstore
  refine ⟨w, hexec, hstarted, hstore, ?_, (RegsBut.of_regs hv.regs).trans hregs, ?_, ?_, ?_⟩
  · rw [← hv.rd]; exact hseq
  · rw [hcmds, hv.fab]
  · rw [hpkts, hv.fab]
  · rw [← hv.fab, ← hv.regs]
    exact (congrArg (fun y : State => { y with tiles := s.tiles }) hframe).trans hv.1

end sent

section settle
variable {pt : At} {o : MV} {s : State} {i : Instr} {kind : MvKind} {typ : Nat}

theorem FabricOp.refused_perm (h : FabricOp pt o s i kind typ) (hq : (s.here pt).quiet = true) (hb : ¬ s.flowBound o) :
    Yields i s (FabRefused pt o (fabStart typ (s.here pt) o) 0x05 s) :=
  h.refused hq (State.fabCause_perm h.len hb) rfl (by decide) fun h4 => absurd h4 (by decide)

theorem FabricOp.refused_addr (h : FabricOp pt o s i kind typ) (hq : (s.here pt).quiet = true) (hb : s.flowBound o)
    (hfits : moveFits (s.here pt) o) (ha : ¬ s.fabAddressed typ (s.here pt) o) :
    Yields i s (FabRefused pt o (fabStart typ (s.here pt) o) 0x04 s) :=
  h.refused hq (State.fabCause_addr h.len hb ha) rfl (by decide) fun _ => hfits

theorem FabricOp.refused_lost (h : FabricOp pt o s i kind typ) (hq : (s.here pt).quiet = true) (hb : s.flowBound o)
    (ha : s.fabAddressed typ (s.here pt) o) (hplain : ∀ e, e < 64 → s.rd FAB_REPL0_VALID e = 0)
    (hn : s.rd FAB_NODE_STATE (s.rd FAB_RANK_NODE (fabRank o)) ≠ 1) :
    Yields i s (FabRefused pt o (fabStart typ (s.here pt) o) 0x02 s) :=
  h.refused hq ((State.fabCause_plain h.len hb ha hplain).trans (if_pos hn)) rfl (by decide) fun h4 => absurd h4 (by decide)

theorem FabricOp.refused_timeout (h : FabricOp pt o s i kind typ) (hq : (s.here pt).quiet = true) (hb : s.flowBound o)
    (ha : s.fabAddressed typ (s.here pt) o) (hplain : ∀ e, e < 64 → s.rd FAB_REPL0_VALID e = 0)
    (hn : s.rd FAB_NODE_STATE (s.rd FAB_RANK_NODE (fabRank o)) = 1) (hfailed : s.rd FAB_FLOW0_FAILED (fabFlow o) = 1) :
    Yields i s (FabRefused pt o (fabStart typ (s.here pt) o) 0x08 s) :=
  h.refused hq ((State.fabCause_plain h.len hb ha hplain).trans ((if_neg (not_not_intro hn)).trans (if_pos hfailed))) rfl (by decide)
    fun h4 => absurd h4 (by decide)

theorem FabricOp.refused_replica (h : FabricOp pt o s i kind typ) (hq : (s.here pt).quiet = true) (hb : s.flowBound o)
    (ha : s.fabAddressed typ (s.here pt) o) (hn : s.rd FAB_NODE_STATE (s.rd FAB_RANK_NODE (fabRank o)) = 1) (ht : typ ≠ pLD)
    (hr : s.replicated typ (s.here pt) o) : Yields i s (FabRefused pt o (fabStart typ (s.here pt) o) 0x0A s) :=
  h.refused hq (State.fabCause_replica h.len hb ha hn ht hr) rfl (by decide) fun h4 => absurd h4 (by decide)

/-! ### Remote ranges -/

/-- A range of whole units that ends in the window is addressed (R151, R333). -/
theorem State.fabAddressed_units (ht : typ ≠ pATOM) (hfits : moveFits (s.here pt) o) (hoff : fabOff (s.here pt) o < 2 ^ 46)
    (hv : s.rd FAB_RANK_VALID (fabRank o) = 1) (hend : fabOff (s.here pt) o / 32 * 32 + 32 * o.len.toNat ≤ 2 ^ 46) :
    s.fabAddressed typ (s.here pt) o := by
  refine ⟨hfits, hoff, hv, ?_, fun h => absurd h ht⟩
  rw [fabStart, fabBytes, if_neg ht, if_neg ht]
  exact hend

/-- An operand aligned to its size lies in the window with its first byte (R153). -/
theorem State.fabAddressed_atom (hfits : moveFits (s.here pt) o) (hoff : fabOff (s.here pt) o < 2 ^ 46)
    (hv : s.rd FAB_RANK_VALID (fabRank o) = 1) (hal : fabOff (s.here pt) o % atomBytes o = 0) : s.fabAddressed pATOM (s.here pt) o := by
  refine ⟨hfits, hoff, hv, ?_, fun _ => hal⟩
  rw [fabStart, fabBytes, if_pos rfl, if_pos rfl]
  have hw : atomBytes o = 8 ∨ atomBytes o = 4 := by
    unfold atomBytes
    split
    · exact .inl rfl
    · exact .inr rfl
  rcases hw with hw | hw <;> rw [hw] at hal ⊢ <;> omega

/-! ### The packets of each operation -/

/-- Packet `i` of a command, as the statement writes it. -/
def State.sentPkt (s : State) (pt : At) (o : MV) (typ i : Nat) (last : Bool) (start plen aop : Nat) (w64 : Bool) (data : List Byte) : FabPkt :=
  ⟨s.fab.nextCid, ⟨typ, 0, s.rd FAB_RANK_NODE (fabRank o), s.rd FAB_CTRL_NODE_ID, 0, last, fabFlow o, 0, 0,
    (s.rd FAB_FLOW1_NEXT_SEQ (fabFlow o) + i) % 2 ^ 32, start, plen, ((s.here pt).rdS o.sc).toNat % 65536,
    ((s.here pt).rdS o.sc).toNat / 65536 % 8, aop, w64, 0, i, 0, data⟩, none, false, true, none⟩

theorem State.opPkts_fld (s : State) (pt : At) (o : MV) :
    s.opPkts pt pLD o = (List.range ((32 * o.len.toNat + 255) / 256)).map fun i =>
      s.sentPkt pt o 1 i (decide (i + 1 = (32 * o.len.toNat + 255) / 256)) (fabOff (s.here pt) o / 32 * 32 + 256 * i)
        (min 256 (32 * o.len.toNat - 256 * i)) 0 false [] := by
  rw [State.opPkts, State.fabPkts, splitCmd_eq]
  simp only [Nat.zero_add]
  rfl

theorem State.opPkts_fst (s : State) (pt : At) (o : MV) :
    s.opPkts pt pST o = (List.range ((32 * o.len.toNat + 255) / 256)).map fun i =>
      s.sentPkt pt o 2 i (decide (i + 1 = (32 * o.len.toNat + 255) / 256)) (fabOff (s.here pt) o / 32 * 32 + 256 * i)
        (min 256 (32 * o.len.toNat - 256 * i)) 0 false
        ((((s.here pt).bytes (moveLocal (s.here pt) o) (32 * o.len.toNat)).drop (256 * i)).take (min 256 (32 * o.len.toNat - 256 * i))) := by
  rw [State.opPkts, State.fabPkts, splitCmd_eq]
  simp only [Nat.zero_add]
  rfl

theorem State.opPkts_fatm (s : State) (pt : At) (o : MV) :
    s.opPkts pt pATOM o = [s.sentPkt pt o 3 0 true (fabOff (s.here pt) o) (fabData pATOM (s.here pt) o).length (o.osf.toNat / 2 ^ 20 % 8)
      (o.osf.getLsbD 23) (fabData pATOM (s.here pt) o)] := rfl

/-- The three fabric operations, each with the start of its remote range. -/
theorem fabricOp_of_mem (hf : (s.here pt).moveFree pt.cyc = true) {x : (At → MV → Instr) × Nat}
    (hx : x ∈ ([(.fld, fabOff (s.here pt) o / 32 * 32), (.fst, fabOff (s.here pt) o / 32 * 32), (.fatm, fabOff (s.here pt) o)] :
      List ((At → MV → Instr) × Nat))) (hl : Legal s (x.1 pt o)) :
    ∃ kind typ, FabricOp pt o s (x.1 pt o) kind typ ∧ x.2 = fabStart typ (s.here pt) o := by
  simp only [List.mem_cons, List.not_mem_nil, or_false] at hx
  rcases hx with rfl | rfl | rfl
  · exact ⟨_, _, fabricOp_fld hf hl, rfl⟩
  · exact ⟨_, _, fabricOp_fst hf hl, rfl⟩
  · exact ⟨_, _, fabricOp_fatm hf hl, rfl⟩

end settle

/-- Settles O49: the engine starts each operation at once; its cause is the first in R7's order, and a command without one issues its packets. -/
theorem moveFabric : Obligations.MoveFabric := by
  unfold Obligations.MoveFabric
  intro pt o s hfree
  obtain ⟨hq, -, -⟩ := (Tile.moveFree_iff _ _).mp hfree
  intro T rank f off a rc n w aop node seq bound valid plain refused
  refine ⟨fun x hx hl => ?_, fun hl hb hfits hal => ?_, ?_, ?_⟩
  · obtain ⟨kind, typ, hop, hstart⟩ := fabricOp_of_mem hfree hx hl
    rw [hstart]
    refine ⟨fun hb => hop.refused_perm hq hb, fun hb hfits hbad => hop.refused_addr hq hb hfits fun ha => ?_, ?_⟩
    · exact hbad.elim (Nat.not_le.mpr ha.window) fun h0 => absurd (h0.symm.trans ha.rank) (by decide)
    · rintro ⟨hb, hfits, hend, hvalid⟩ hoff hal hplain
      have ha : s.fabAddressed typ T o := by
        by_cases ht : typ = pATOM
        · rw [ht]; exact State.fabAddressed_atom hfits hoff hvalid hal
        · exact State.fabAddressed_units ht hfits hoff hvalid hend
      exact ⟨fun hn => hop.refused_lost hq hb ha hplain hn, fun hn hfailed => hop.refused_timeout hq hb ha hplain hn hfailed⟩
  · exact (fabricOp_fatm hfree hl).refused_addr hq hb hfits fun ha => hal (ha.aligned rfl)
  · rintro ⟨hb, hfits, hend, hvalid⟩ hoff hal hn
    have hunits : s.fabAddressed pST T o := State.fabAddressed_units (by decide) hfits hoff hvalid hend
    have hatom : s.fabAddressed pATOM T o := State.fabAddressed_atom hfits hoff hvalid hal
    exact ⟨fun e he hl => (fabricOp_fst hfree hl).refused_replica hq hb hunits hn (by decide) (Option.isSome_of_eq_some he),
      fun e he hl => (fabricOp_fatm hfree hl).refused_replica hq hb hatom hn (by decide) (Option.isSome_of_eq_some he)⟩
  · rintro ⟨hb, hfits, hend, hvalid⟩ hoff hplain hn hfailed hplane hecc
    have hp : s.pathUp o := ⟨hplain, hn, hplane⟩
    have hunits : ∀ typ, typ ≠ pATOM → s.fabAddressed typ T o := fun _ ht => State.fabAddressed_units ht hfits hoff hvalid hend
    refine ⟨fun hl => ?_, fun hl => ?_, fun hl hal => ?_⟩
    · have h := (fabricOp_fld hfree hl).sent hq hb (hunits _ (by decide)) hp hfailed hecc
      rw [State.opPkts_fld] at h
      exact h
    · have h := (fabricOp_fst hfree hl).sent hq hb (hunits _ (by decide)) hp hfailed hecc
      rw [State.opPkts_fst] at h
      exact h
    · have h := (fabricOp_fatm hfree hl).sent hq hb (State.fabAddressed_atom hfits hoff hvalid hal) hp hfailed hecc
      rw [State.opPkts_fatm] at h
      exact h

end Sys2Proof.Machine
end

section
/-! SUPPORT. A tile in the cycle of its bundle: nothing in it is due before that cycle, and the operations of the scalar, vector, matrix
and move slots keep it so. -/
namespace Sys2Proof.Machine

/-! ### Nothing due before a cycle (R54, R71, R96, R112) -/

/-- Before cycle `c` no result of the tile is due, no access is forced and no queued matrix operation reaches the engine. -/
structure Tile.NothingDue (c : Nat) (t : Tile) : Prop where
  pend : ∀ p ∈ t.pend, c ≤ p.due
  mats : ∀ m ∈ t.mats, c < m.first
  delayed : ∀ h ∈ t.delayed, c ≤ h.cyc + 8

/-- An operation on a tile that puts nothing into it that is due before cycle `c`. -/
def KeepsNothingDue (c : Nat) (f : Tile → Tile) : Prop := ∀ t, t.NothingDue c → (f t).NothingDue c

theorem Tile.nothingDue_of_quiet {t : Tile} (h : t.quiet = true) (c : Nat) : t.NothingDue c := by
  obtain ⟨hpend, hmats, hdelayed, -, -⟩ := t.quiet_iff.mp h
  constructor
  · rw [hpend]; exact List.forall_mem_nil _
  · rw [hmats]; exact List.forall_mem_nil _
  · rw [hdelayed]; exact List.forall_mem_nil _

theorem applyPends_of_due {c : Nat} {ps : List Pend} (h : ∀ p ∈ ps, c ≤ p.due) (t : Tile) : applyPends c ps t = t := by
  induction ps with
  | nil => rfl
  | cons p ps ih =>
    rw [applyPends, if_neg (Nat.not_lt.mpr (h p (List.mem_cons_self ..)))]
    exact ih fun q hq => h q (List.mem_cons_of_mem _ hq)

theorem retireGo_of_first {c : Nat} {ms : List MatOp} (h : ∀ m ∈ ms, c < m.first) (t : Tile) : retireGo c ms t = t := by
  cases ms with
  | nil => rfl
  | cons m ms =>
    have hm := h m (List.mem_cons_self ..)
    rw [retireGo, if_neg (by simp only [MatOp.clear]; omega)]

theorem latchGo_of_first {e : Nat} {m : MatOp} (h : e < m.first) (t : Tile) (fuel : Nat) : latchGo t e fuel m = m := by
  cases fuel with
  | zero => rfl
  | succ n =>
    have hl : ¬ m.latchCycle m.latched.length ≤ e := by simp only [MatOp.latchCycle]; omega
    simp only [latchGo, hl, decide_false, Bool.and_false, Bool.false_eq_true, if_false]

theorem mem_pendInsert {p q : Pend} {ps : List Pend} (h : q ∈ pendInsert p ps) : q = p ∨ q ∈ ps := by
  induction ps with
  | nil => exact .inl (List.mem_singleton.mp h)
  | cons r rs ih =>
    simp only [pendInsert] at h
    split at h
    · rcases List.mem_cons.mp h with rfl | h
      · exact .inr (List.mem_cons_self ..)
      · exact (ih h).imp_right (List.mem_cons_of_mem _)
    · exact List.mem_cons.mp h

theorem forceHeld_of_cyc {c : Nat} {hs : List Held} (h : ∀ x ∈ hs, c ≤ x.cyc + 8) (t : Tile) :
    forceHeld c hs t = { t with delayed := t.delayed ++ hs } := by
  induction hs generalizing t with
  | nil => simp only [forceHeld, List.append_nil]
  | cons x hs ih =>
    rw [forceHeld, if_neg (Nat.not_lt.mpr (h x (List.mem_cons_self ..))), ih fun y hy => h y (List.mem_cons_of_mem _ hy)]
    simp only [List.append_assoc, List.singleton_append]

namespace Tile.NothingDue

variable {c : Nat} {t : Tile}

theorem applyBefore (h : t.NothingDue c) : t.applyBefore c = t := by
  have hf : (t.pend.filter fun p => !decide (p.due < c)) = t.pend :=
    List.filter_eq_self.mpr fun p hp => by simp only [Nat.not_lt.mpr (h.pend p hp), decide_false, Bool.not_false]
  rw [Tile.applyBefore, applyPends_of_due h.pend, hf]

theorem latchUpTo (h : t.NothingDue c) : t.latchUpTo (c - 1) = t := by
  have hm : t.mats.map (latchGo t (c - 1) 128) = t.mats :=
    (List.map_congr_left fun m hm => latchGo_of_first (by have := h.mats m hm; omega) t 128).trans (List.map_id _)
  unfold Tile.latchUpTo
  split
  · rfl
  · show ({ t with mats := t.mats.map (latchGo t (c - 1) 128) } : Tile) = t
    rw [hm]

theorem startMat (h : t.NothingDue c) : t.startMat c = t := by
  have hn : (t.mats.filter fun m => !m.started && decide (m.first < c)) = [] := by
    rw [List.filter_eq_nil_iff]
    intro m hm
    have := h.mats m hm
    simp only [show ¬ m.first < c by omega, decide_false, Bool.and_false, Bool.false_eq_true, not_false_eq_true]
  have hm : (t.mats.map fun m => if m.first < c then { m with started := true } else m) = t.mats := by
    refine (List.map_congr_left fun m hm => ?_).trans (List.map_id _)
    exact if_neg (by have := h.mats m hm; omega)
  simp only [Tile.startMat, hn, List.foldl_nil, hm]

/-- The matrix engine has reached nothing. -/
theorem engine (h : t.NothingDue c) : t.engine c = t := by
  unfold Tile.engine
  split
  · exact h.applyBefore
  · rw [retireGo_of_first h.mats, h.applyBefore, h.latchUpTo, h.startMat]

/-- A tile with nothing due only sees the cycle come. -/
theorem settle (h : t.NothingDue c) :
    t.settle c = { t with now := max t.now c, held := t.held.filter fun x => decide (c < x.2) } := by
  simp only [Tile.settle, forceHeld_of_cyc h.delayed, List.nil_append, h.engine]

theorem settled (h : t.NothingDue c) : (t.settle c).NothingDue c := by
  rw [h.settle]; exact ⟨h.pend, h.mats, h.delayed⟩

/-- Only the results on their way, the matrix operations and the held accesses count. -/
theorem congr {u : Tile} (h : t.NothingDue c) (hp : u.pend = t.pend) (hm : u.mats = t.mats) (hd : u.delayed = t.delayed) :
    u.NothingDue c := ⟨hp ▸ h.pend, hm ▸ h.mats, hd ▸ h.delayed⟩

/-! ### What the slots put into a tile -/

theorem insert (h : t.NothingDue c) {p : Pend} (hp : c ≤ p.due) : ({ t with pend := pendInsert p t.pend } : Tile).NothingDue c :=
  ⟨fun q hq => (mem_pendInsert hq).elim (fun e => e ▸ hp) (h.pend q), h.mats, h.delayed⟩

/-- A result of latency at least 1 is not due before the cycle of its issue. -/
theorem post (h : t.NothingDue c) {l : Nat} (hl : 1 ≤ l) (slot : Nat) (w : Wr) : (t.post c l slot w).NothingDue c :=
  h.insert (by show c ≤ c + l - 1; omega)

theorem postFlags (h : t.NothingDue c) {l : Nat} (hl : 1 ≤ l) (slot : Nat) (f : Flags) : (t.postFlags c l slot f).NothingDue c := by
  unfold Tile.postFlags
  split
  · exact h
  · exact h.post hl slot _

theorem drew (h : t.NothingDue c) (k : Nat) : (t.drew k).NothingDue c := h.congr rfl rfl rfl

theorem readFaults (h : t.NothingDue c) (vector : Bool) (a n : Nat) : (t.readFaults vector a n).NothingDue c := by
  unfold Tile.readFaults
  split <;> exact h.congr rfl rfl rfl

/-- An access performed in its cycle delivers later. -/
theorem perform (h : t.NothingDue c) (x : Held) : (t.perform c x).NothingDue c := by
  cases x with
  | vld y a r m =>
    simp only [Tile.perform]
    split
    · exact (h.insert (p := ⟨c + 4, _, _, _⟩) (Nat.le_add_right c 4)).congr rfl rfl rfl
    · exact ((h.readFaults true a 256).insert (p := ⟨c + 4, _, _, _⟩) (Nat.le_add_right c 4)).congr rfl rfl rfl
  | vst y a m v => exact (h.insert (p := ⟨c + 1, _, _, _⟩) (Nat.le_add_right c 1)).congr rfl rfl rfl
  | cbld y a r => exact (h.readFaults false a 32).insert (p := ⟨c + 4, _, _, _⟩) (Nat.le_add_right c 4)

theorem hold (h : t.NothingDue c) {x : Held} (hx : x.cyc = c) : ({ t with delayed := t.delayed ++ [x] } : Tile).NothingDue c := by
  refine ⟨h.pend, h.mats, fun y hy => ?_⟩
  rcases List.mem_append.mp hy with hy | hy
  · exact h.delayed y hy
  · rw [List.mem_singleton.mp hy]; omega

theorem vecAccess (h : t.NothingDue c) (a : Nat) {x : Held} (hx : x.cyc = c) : (t.vecAccess c a x).NothingDue c := by
  unfold Tile.vecAccess
  split
  · exact h.hold hx
  · exact h.perform x

theorem enqueue (h : t.NothingDue c) (m : MoveCmd) : (t.enqueue c m).NothingDue c := by
  unfold Tile.enqueue
  split
  · exact (h.post (Nat.le_refl 1) slotMove (.done m.k cCAPACITY)).congr rfl rfl rfl
  · exact h.congr rfl rfl rfl

end Tile.NothingDue

section operations
variable {pt : At}

theorem keeps_post {l : Nat} (hl : 1 ≤ l) (slot : Nat) (w : Tile → Wr) :
    KeepsNothingDue pt.cyc fun t => t.post pt.cyc l slot (w t) := fun _ h => h.post hl slot _

theorem keeps_postFlags {l : Nat} (hl : 1 ≤ l) (slot : Nat) (w : Tile → Wr) (f : Tile → Flags) :
    KeepsNothingDue pt.cyc fun t => (t.post pt.cyc l slot (w t)).postFlags pt.cyc l slot (f t) :=
  fun _ h => (h.post hl slot _).postFlags hl slot _

theorem keeps_postFlags_drew {l : Nat} (hl : 1 ≤ l) (slot : Nat) (w : Tile → Wr) (f : Tile → Flags) (k : Tile → Nat) :
    KeepsNothingDue pt.cyc fun t => ((t.post pt.cyc l slot (w t)).postFlags pt.cyc l slot (f t)).drew (k t) :=
  fun t h => (keeps_postFlags hl slot w f t h).drew _

theorem keeps_spreadElem (vd : BitVec 5) (p : W64) (w : Nat) (v : Option Nat) (f : Flags) :
    KeepsNothingDue pt.cyc (spreadElem pt vd p w v f) := by
  intro t h
  cases v with
  | none => exact h
  | some x => exact (h.post (by decide) slotVector _).postFlags (by decide) slotVector f

/-- VLD reports an address outside the tile store, and is performed or held in its turn (R69, R71). -/
theorem keeps_vld (o : VM) : KeepsNothingDue pt.cyc fun t =>
    (if storeSize ≤ vmAddr t o then t.report 0x04 (vmAddr t o) else t).vecAccess pt.cyc (vmAddr t o)
      (.vld pt.cyc (vmAddr t o) o.vd (t.rdP o.pr)) := by
  intro t h
  refine Tile.NothingDue.vecAccess ?_ _ rfl
  split
  · exact h.congr rfl rfl rfl
  · exact h

theorem keeps_vst (o : VM) : KeepsNothingDue pt.cyc fun t =>
    if storeSize ≤ vmAddr t o then t.report 0x04 (vmAddr t o)
    else t.vecAccess pt.cyc (vmAddr t o) (.vst pt.cyc (vmAddr t o) (t.rdP o.pr) (t.rdV o.vd)) := by
  intro t h
  dsimp only
  split
  · exact h.congr rfl rfl rfl
  · exact h.vecAccess _ rfl

/-- VCVTX: elements and scales are two results, and the free value of their overlap is taken (R126). -/
theorem keeps_post_post {l : Nat} (hl : 1 ≤ l) (slot : Nat) (w w' : Tile → Wr) (f : Tile → Flags) (k free : Tile → Nat) :
    KeepsNothingDue pt.cyc fun t =>
      (Tile.postFlags { (t.post pt.cyc l slot (w t)).post pt.cyc l slot (w' t) with free := free t } pt.cyc l slot (f t)).drew (k t) :=
  fun _ h => by
    refine Tile.NothingDue.drew (Tile.NothingDue.postFlags ?_ hl slot _) _
    exact ((h.post hl slot _).post hl slot _).congr rfl rfl rfl

theorem keeps_post_post_flags {l : Nat} (hl : 1 ≤ l) (slot : Nat) (w w' : Tile → Wr) (f : Tile → Flags) :
    KeepsNothingDue pt.cyc fun t => ((t.post pt.cyc l slot (w t)).post pt.cyc l slot (w' t)).postFlags pt.cyc l slot (f t) :=
  fun _ h => ((h.post hl slot _).post hl slot _).postFlags hl slot _

theorem keeps_issueMat (rowW : Bool) (o : MA) : KeepsNothingDue pt.cyc (issueMat rowW pt o) := by
  intro t h
  unfold issueMat
  split
  · exact h
  · refine ⟨h.pend, fun m hm => ?_, h.delayed⟩
    rcases List.mem_append.mp hm with hm | hm
    · exact h.mats m hm
    · rw [List.mem_singleton.mp hm]
      show pt.cyc < max (pt.cyc + 8) t.engineFree
      omega

theorem keeps_mrdRead (o : MR) : KeepsNothingDue pt.cyc (mrdRead pt o) := by
  intro t h
  unfold mrdRead
  split
  · exact h
  · dsimp only
    split
    · exact (h.post (by decide) slotMatrix _).postFlags (by decide) slotMatrix _
    · exact ((h.post (by decide) slotMatrix _).postFlags (by decide) slotMatrix _).drew _

theorem keeps_accWrite {l : Nat} (hl : 1 ≤ l) (ad : BitVec 2) (base : Nat) (vals : Tile → List W32) :
    KeepsNothingDue pt.cyc fun t => accWrite pt l ad base (vals t) t := by
  intro t h
  dsimp only
  unfold accWrite
  split
  · exact h
  · exact (h.post hl slotMatrix _).congr rfl rfl rfl

/-- A CBLD waits, gives NaN entries, or reads its codebook now or when its bank is free. -/
theorem keeps_cbld (o : MB) : KeepsNothingDue pt.cyc fun t =>
    if t.pendingFull pt.cyc then t
    else if storeSize ≤ align32 (t.rdS o.sa).toNat then
      (t.post pt.cyc 5 slotMatrix (.b o.ad (BitVec.ofNat 256 (packN 16 (List.replicate 16 0x7FC0))))).report 0x04
        (align32 (t.rdS o.sa).toNat)
    else if t.cbldHeld pt.cyc (align32 (t.rdS o.sa).toNat) then
      { t with delayed := t.delayed ++ [.cbld pt.cyc (align32 (t.rdS o.sa).toNat) o.ad] }
    else t.perform pt.cyc (.cbld pt.cyc (align32 (t.rdS o.sa).toNat) o.ad) := by
  intro t h
  dsimp only
  split
  · exact h
  split
  · exact (h.post (by decide) slotMatrix _).congr rfl rfl rfl
  split
  · exact h.hold rfl
  · exact h.perform _

theorem keeps_issueMove (kind : MvKind) (o : MV) : KeepsNothingDue pt.cyc (issueMove pt kind o) :=
  fun _ h => h.enqueue _

end operations

/-! ### The operations of the slots -/

/-- In slot `slot`, `i` is an operation on its tile: it issues as a slot operation with the cause of its encoding, in a bundle as on its
own, and puts nothing into the tile that is due before its cycle. -/
structure SlotOperation (pt : At) (slot : Nat) (i : Instr) : Prop where
  exec_eq : ∀ s, ∃ f, exec i s = .next (slotOp pt slot (i.cause s.caps) f s) ∧ KeepsNothingDue pt.cyc f
  run_eq : ∀ s, slotRun i s = exec i s

/-- A slot operation whose result is one value of latency at least 1. -/
theorem SlotOperation.of_post {pt : At} {slot : Nat} {i : Instr} {l : Nat} {w : State → Tile → Wr}
    (he : ∀ s, exec i s = .next (slotOp pt slot (i.cause s.caps) (fun t => t.post pt.cyc l slot (w s t)) s))
    (hr : ∀ s, slotRun i s = exec i s) (hl : 1 ≤ l) : SlotOperation pt slot i :=
  ⟨fun s => ⟨_, he s, keeps_post hl slot (w s)⟩, hr⟩

/-- A slot operation that does the same in every state. -/
theorem SlotOperation.of_keeps {pt : At} {slot : Nat} {i : Instr} {f : Tile → Tile} (hf : KeepsNothingDue pt.cyc f)
    (he : ∀ s, exec i s = .next (slotOp pt slot (i.cause s.caps) f s)) (hr : ∀ s, slotRun i s = exec i s) : SlotOperation pt slot i :=
  ⟨fun s => ⟨f, he s, hf⟩, hr⟩

/-- What the scalar slot decodes to (Table 6-1). -/
theorem slotOperation_of_decodeScalar {pt : At} {w : BitVec 48} {i : Instr} {rsv : Bool} (h : decodeScalar pt w = some (i, rsv)) :
    i = .nop pt ∨ SlotOperation pt slotScalar i := by
  unfold decodeScalar at h
  split at h
  case h_1 => cases h; exact .inl rfl
  case h_37 => cases h
  -- every result is one value, of latency 1 to 20
  all_goals
    cases h
    exact .inr (.of_post (fun _ => rfl) (fun _ => rfl) (by decide))

/-- VRMAX and VRMIN put nothing into the tile, or one value into every enabled element (R128). -/
theorem slotOperation_vecBest {pt : At} {i : Instr} {isMax : Bool} {o : VR} (he : ∀ s, exec i s = .next (vecBest pt isMax o s))
    (hc : ∀ caps, i.cause caps = causeVrmax o) (hr : ∀ s, slotRun i s = exec i s) : SlotOperation pt slotVector i := by
  refine ⟨fun s => ⟨_, by rw [he, hc]; rfl, fun t h => ?_⟩, hr⟩
  dsimp only
  split
  · exact h
  · split <;> exact keeps_spreadElem _ _ _ _ _ t h

/-- What the vector slot decodes to (Table 5-6). -/
theorem slotOperation_of_decodeVector {pt : At} {w : BitVec 64} {i : Instr} {rsv : Bool} (h : decodeVector pt w = some (i, rsv)) :
    i = .nop pt ∨ SlotOperation pt slotVector i := by
  unfold decodeVector at h
  split at h
  case h_1 => cases h; exact .inl rfl
  -- VLD and VST
  case h_2 => cases h; exact .inr (.of_keeps (keeps_vld _) (fun _ => rfl) fun _ => rfl)
  case h_3 => cases h; exact .inr (.of_keeps (keeps_vst _) (fun _ => rfl) fun _ => rfl)
  -- VCVTX
  case h_41 => cases h; exact .inr (.of_keeps (keeps_post_post (by decide) slotVector _ _ _ _ _) (fun _ => rfl) fun _ => rfl)
  -- VRSUM
  case h_42 => cases h; exact .inr (.of_keeps (fun t h => keeps_spreadElem _ _ _ _ _ t h) (fun _ => rfl) fun _ => rfl)
  -- VRMAX and VRMIN
  case h_43 | h_44 => cases h; exact .inr (slotOperation_vecBest (fun _ => rfl) (fun _ => rfl) fun _ => rfl)
  -- VBMRG
  case h_45 => cases h; exact .inr (.of_keeps (keeps_post_post_flags (by decide) slotVector _ _ _) (fun _ => rfl) fun _ => rfl)
  -- VCMP
  case h_46 => cases h; exact .inr (.of_keeps (keeps_postFlags (by decide) slotVector _ _) (fun _ => rfl) fun _ => rfl)
  case h_50 => cases h
  -- the floating-point operations, with a register or a broadcast scalar, and VCVT
  case h_6 | h_7 | h_8 | h_9 | h_10 | h_11 | h_12 | h_13 | h_14 | h_15 | h_16 | h_17 | h_18 | h_19 | h_20 | h_21 | h_22 | h_23 | h_40 =>
    cases h
    exact .inr (.of_keeps (keeps_postFlags_drew (by decide) slotVector _ _ _) (fun _ => rfl) fun _ => rfl)
  -- the lane, permutation and predicate operations: one value
  all_goals
    cases h
    exact .inr (.of_post (fun _ => rfl) (fun _ => rfl) (by decide))

/-- What the matrix slot decodes to (Table 5-1). -/
theorem slotOperation_of_decodeMatrix {pt : At} {w : BitVec 48} {i : Instr} {rsv : Bool} (h : decodeMatrix pt w = some (i, rsv)) :
    i = .nop pt ∨ SlotOperation pt slotMatrix i := by
  unfold decodeMatrix at h
  split at h
  case h_1 => cases h; exact .inl rfl
  -- MMA and MMAR
  case h_2 | h_3 => cases h; exact .inr (.of_keeps (keeps_issueMat _ _) (fun _ => rfl) fun _ => rfl)
  -- MRD
  case h_4 => cases h; exact .inr (.of_keeps (keeps_mrdRead _) (fun _ => rfl) fun _ => rfl)
  -- MWR and MSET
  case h_5 | h_6 => cases h; exact .inr (.of_keeps (keeps_accWrite (by decide) _ _ _) (fun _ => rfl) fun _ => rfl)
  -- CBLD
  case h_7 => cases h; exact .inr (.of_keeps (keeps_cbld _) (fun _ => rfl) fun _ => rfl)
  case h_8 => cases h

end Sys2Proof.Machine
end

section
/-! SUPPORT. The bundle fault (R104 to R106): what an encoding meets, what the log holds, and the operations that fault. -/
namespace Sys2Proof.Machine

/-! ### The causes of an encoding (Table 4-12) -/

/-- An encoding alone meets no cause, or one of causes 0x3 to 0x8. -/
theorem Instr.cause_range (i : Instr) : Laws.Row.Statement i := by
  intro caps
  unfold Instr.cause
  split
  case h_74 => exact .inl rfl
  all_goals exact Laws.firstCause_range _ rfl

theorem Instr.cause_le (caps : Nat) (i : Instr) : i.cause caps ≤ 8 := by
  rcases Instr.cause_range i caps with h | h
  · omega
  · exact h.2

theorem slotCause_le {caps n op : Nat} (w : BitVec n) (d : Option (Instr × Bool)) : slotCause caps op w d ≤ 8 := by
  unfold slotCause
  split
  · split <;> decide
  · cases d with
    | none => exact Nat.le_of_ble_eq_true rfl
    | some x =>
      obtain ⟨i, rsv⟩ := x
      cases rsv with
      | true => exact Nat.le_of_ble_eq_true rfl
      | false => exact Instr.cause_le caps i

/-- A LOOP that does not fit the stack meets one of causes 0x9 to 0xB. -/
theorem loopCause_le (t : Tile) (fin : BitVec 12) : loopCause t fin ≤ 11 := by
  rcases Laws.firstCause_mem [(9, decide (fin.toNat < t.pc.toNat + 1)),
      (10, decide (4 ≤ t.loops.length) || t.loops.any fun e => decide (e.fin < fin.toNat)),
      (11, t.loops.any fun e => decide (e.fin = t.pc.toNat))] with h | h
  · exact Nat.le_trans (Nat.le_of_eq h) (Nat.zero_le _)
  · have hle : ∀ c ∈ [9, 10, 11], c ≤ 11 := by decide
    exact hle _ h

theorem controlLoopCause_le (t : Tile) (i : Instr) : controlLoopCause t i ≤ 11 := by
  unfold controlLoopCause
  split
  · exact loopCause_le t _
  · exact loopCause_le t _
  · exact Nat.zero_le _

/-! ### The log (R106) -/

/-- HDL_BFAULT_LOG of die `d` holds this fault. -/
structure BundleFaultLogged (d tile pc slot cause : Nat) (t : State) : Prop where
  valid : t.rd HDL_BFAULT_LOG_VALID d = 1
  tile : t.rd HDL_BFAULT_LOG_TILE d = tile
  pc : t.rd HDL_BFAULT_LOG_PC d = pc
  slot : t.rd HDL_BFAULT_LOG_SLOT d = slot
  cause : t.rd HDL_BFAULT_LOG_CAUSE d = cause

/-- The log is in the registers and the die's tick. -/
theorem State.logBundleFault_frame (s : State) (d t pc slot cause tick : Nat) :
    (s.logBundleFault d t pc slot cause tick).tiles = s.tiles ∧ (s.logBundleFault d t pc slot cause tick).raised = s.raised := by
  unfold State.logBundleFault
  dsimp only
  split
  · split <;> exact ⟨rfl, rfl⟩
  · exact ⟨rfl, rfl⟩

/-- The first fault is recorded as it is, and counted. -/
theorem State.logBundleFault_first (s : State) {d tile pc slot cause : Nat} (tick : Nat) (hv : s.rd HDL_BFAULT_LOG_VALID d = 0)
    (htile : tile < 256) (hpc : pc < 4096) (hslot : slot < 8) (hcause : cause < 16) :
    BundleFaultLogged d tile pc slot cause (s.logBundleFault d tile pc slot cause tick) ∧
      (s.rd HDL_BFAULT_LOG_COUNT d < 65535 →
        (s.logBundleFault d tile pc slot cause tick).rd HDL_BFAULT_LOG_COUNT d = s.rd HDL_BFAULT_LOG_COUNT d + 1) := by
  have hon : s.on HDL_BFAULT_LOG_VALID d = false := by rw [State.on, hv]; rfl
  refine ⟨⟨?_, ?_, ?_, ?_, ?_⟩, fun hcount => ?_⟩ <;>
    simp (disch := decide) only [State.logBundleFault, hon, Bool.false_eq_true, if_false, State.bump, State.rd_wr_same,
      State.rd_wr_apart, State.setDie_rd]
  · rfl
  · exact Nat.mod_eq_of_lt htile
  · exact Nat.mod_eq_of_lt hpc
  · exact Nat.mod_eq_of_lt hslot
  · exact Nat.mod_eq_of_lt hcause
  · have hlt : s.rd HDL_BFAULT_LOG_COUNT d + 1 < 2 ^ HDL_BFAULT_LOG_COUNT.wd := Nat.succ_lt_succ hcount
    rw [satAdd, if_pos hlt, Nat.mod_eq_of_lt hlt]

/-! ### A bundle fault -/

/-- The fault that a bundle with this cause raises: a double-bit error at fetch is kind 0x02, any other kind 0x03 (log 86). -/
def bundleFaultEvt (pt : At) (pc cause : Nat) : FaultEvt :=
  if cause = 12 then ⟨0x02, pt.die.val, pt.tile.val, none, 32 * pc, 0⟩ else ⟨0x03, pt.die.val, pt.tile.val, none, 0, 0⟩

/-- The tile that a bundle fault leaves, with its report. -/
def Tile.faulted (t : Tile) (cause : Nat) : Tile :=
  if cause = 12 then { t with issue := .stopped }.report 0x02 (32 * t.pc.toNat) else { t with issue := .stopped }.report 0x03 0

theorem Tile.faulted_silent (t : Tile) (cause : Nat) : { t.faulted cause with rep := [] } = { t with issue := .stopped, rep := [] } := by
  unfold Tile.faulted
  split <;> rfl

theorem Tile.faulted_rep {t : Tile} (h : t.rep = []) (pt : At) (cause : Nat) :
    ((t.faulted cause).rep.map fun e => { e with station := pt.die.val, unit := pt.tile.val }) = [bundleFaultEvt pt t.pc.toNat cause] := by
  unfold Tile.faulted bundleFaultEvt
  split <;> simp only [Tile.report, h, faultOf, List.nil_append, List.map_cons, List.map_nil]

/-- A bundle fault stores the stopped tile and writes the log. -/
theorem State.bundleFault_eq (s : State) (pt : At) (slot cause : Nat) : s.bundleFault pt slot cause =
    (s.putTile pt.die.val pt.tile.val (((s.here pt).settle pt.cyc).faulted cause)).logBundleFault pt.die.val pt.tile.val
      ((s.here pt).settle pt.cyc).pc.toNat slot cause
      ((s.putTile pt.die.val pt.tile.val (((s.here pt).settle pt.cyc).faulted cause)).tick pt) := rfl

theorem State.here_logBundleFault (s : State) (pt : At) (d t pc slot cause tick : Nat) :
    (s.logBundleFault d t pc slot cause tick).here pt = s.here pt := by
  simp only [State.here, State.tile, (s.logBundleFault_frame d t pc slot cause tick).1]

/-- The tile that a bundle fault leaves. -/
theorem State.here_bundleFault (s : State) (pt : At) (slot cause : Nat) :
    (s.bundleFault pt slot cause).here pt = { (s.here pt).settle pt.cyc with issue := .stopped, rep := [] } := by
  rw [State.bundleFault_eq, State.here_logBundleFault, State.here_putTile, Tile.faulted_silent]

/-- A bundle fault stops its tile, raises its fault and is logged. -/
theorem State.bundleFault_spec {s : State} {pt : At} {t : Tile} (ht : (s.here pt).settle pt.cyc = t) (hrep : t.rep = [])
    {slot cause : Nat} (hslot : slot < 8) (hcause : cause < 16) (hv : s.rd HDL_BFAULT_LOG_VALID pt.die.val = 0) :
    (s.bundleFault pt slot cause).here pt = { t with issue := .stopped } ∧
      (s.bundleFault pt slot cause).raised = s.raised ++ [bundleFaultEvt pt t.pc.toNat cause] ∧
      BundleFaultLogged pt.die.val pt.tile.val t.pc.toNat slot cause (s.bundleFault pt slot cause) ∧
      (s.rd HDL_BFAULT_LOG_COUNT pt.die.val < 65535 →
        (s.bundleFault pt slot cause).rd HDL_BFAULT_LOG_COUNT pt.die.val = s.rd HDL_BFAULT_LOG_COUNT pt.die.val + 1) := by
  have hraised : (s.putTile pt.die.val pt.tile.val (t.faulted cause)).raised = s.raised ++ [bundleFaultEvt pt t.pc.toNat cause] := by
    rw [← Tile.faulted_rep hrep]; rfl
  have hrd : ∀ f i, (s.putTile pt.die.val pt.tile.val (t.faulted cause)).rd f i = s.rd f i := fun _ _ => rfl
  refine ⟨by rw [State.here_bundleFault, ht, hrep, ← hrep], ?_⟩
  rw [State.bundleFault_eq, ht]
  generalize s.putTile pt.die.val pt.tile.val (t.faulted cause) = u at hraised hrd
  obtain ⟨hlog, hcount⟩ := u.logBundleFault_first (u.tick pt) ((hrd _ _).trans hv) pt.tile.isLt t.pc.isLt hslot hcause
  refine ⟨by rw [(u.logBundleFault_frame _ _ _ _ _ _).2, hraised], hlog, ?_⟩
  rwa [hrd] at hcount

/-! ### The operations that fault -/

/-- In slot `slot`, an encoding of `i` that meets a cause makes `i` a bundle fault. -/
def FaultsOnCause (pt : At) (slot : Nat) (i : Instr) : Prop :=
  ∀ s, i.cause s.caps ≠ 0 → exec i s = .next (s.bundleFault pt slot (i.cause s.caps))

theorem FaultsOnCause.of_causeless {pt : At} {slot : Nat} {i : Instr} (h : ∀ caps, i.cause caps = 0) : FaultsOnCause pt slot i :=
  fun s hc => absurd (h s.caps) hc

theorem FaultsOnCause.of_slotOp {pt : At} {slot : Nat} {i : Instr}
    (h : ∀ s, ∃ f, exec i s = .next (slotOp pt slot (i.cause s.caps) f s)) : FaultsOnCause pt slot i := by
  intro s hc
  obtain ⟨f, hf⟩ := h s
  rw [hf, slotOp_cause _ _ _ _ _ hc]

theorem SlotOperation.faultsOnCause {pt : At} {slot : Nat} {i : Instr} (h : i = .nop pt ∨ SlotOperation pt slot i) :
    FaultsOnCause pt slot i := by
  rcases h with rfl | h
  · exact .of_causeless fun _ => rfl
  · exact .of_slotOp fun s => (h.exec_eq s).imp fun _ hf => hf.1

theorem faultsOnCause_of_decodeControl {pt : At} {w : BitVec 32} {i : Instr} {rsv : Bool} (h : decodeControl pt w = some (i, rsv)) :
    FaultsOnCause pt 0 i := by
  unfold decodeControl at h
  split at h
  -- BRC, WAITC and FENCE
  case h_2 | h_5 | h_7 => cases h; exact .of_slotOp fun _ => ⟨_, rfl⟩
  case h_11 => cases h
  all_goals
    cases h
    exact .of_causeless fun _ => rfl

/-- What the move slot decodes to (Table 6-2). -/
theorem moveSlot_of_decodeMove {pt : At} {w : BitVec 64} {i : Instr} {rsv : Bool} (h : decodeMove pt w = some (i, rsv)) :
    i = .nop pt ∨ ∃ x ∈ moveSlot, ∃ o, i = x.1 pt o := by
  unfold decodeMove at h
  split at h
  case h_1 => cases h; exact .inl rfl
  case h_17 => cases h
  all_goals
    cases h
    exact .inr (by simp [moveSlot])

/-- A command of the move slot on its own, and in a bundle. -/
theorem exec_moveSlot {x : (At → MV → Instr) × MvKind} (hx : x ∈ moveSlot) (pt : At) (o : MV) (s : State) :
    exec (x.1 pt o) s = .next (moveOp pt ((x.1 pt o).cause s.caps) x.2 o s) ∧
      slotRun (x.1 pt o) s = .next (s.onTile pt (issueMove pt x.2 o)) := by
  revert x
  simp only [moveSlot, List.forall_mem_cons]
  refine ⟨⟨rfl, rfl⟩, ⟨rfl, rfl⟩, ⟨rfl, rfl⟩, ⟨rfl, rfl⟩, ⟨rfl, rfl⟩, ⟨rfl, rfl⟩, ⟨rfl, rfl⟩, ⟨rfl, rfl⟩, ⟨rfl, rfl⟩, ⟨rfl, rfl⟩,
    ⟨rfl, rfl⟩, ⟨rfl, rfl⟩, ⟨rfl, rfl⟩, ⟨rfl, rfl⟩, ⟨rfl, rfl⟩, ?_⟩
  exact List.forall_mem_nil _

theorem moveOp_cause {pt : At} {cause : Nat} (h : cause ≠ 0) (kind : MvKind) (o : MV) (s : State) :
    moveOp pt cause kind o s = s.bundleFault pt slotMove cause := by
  simp only [moveOp, h, false_and, if_false, slotOp_cause _ _ _ _ _ h]

theorem faultsOnCause_of_decodeMove {pt : At} {w : BitVec 64} {i : Instr} {rsv : Bool} (h : decodeMove pt w = some (i, rsv)) :
    FaultsOnCause pt slotMove i := by
  rcases moveSlot_of_decodeMove h with rfl | ⟨x, hx, o, rfl⟩
  · exact .of_causeless fun _ => rfl
  · intro s hc
    rw [(exec_moveSlot hx pt o s).1, moveOp_cause hc]

theorem bundleFaultEffect : Says.BundleFaultEffect := by
  intro pt slot i rsv s hdec hq hcause hv hcount d
  have hfault : slot < 8 ∧ FaultsOnCause pt slot i := by
    rcases hdec with ⟨rfl, w, hw⟩ | ⟨rfl, w, hw⟩ | ⟨rfl, w, hw⟩ | ⟨rfl, w, hw⟩ | ⟨rfl, w, hw⟩
    · exact ⟨by decide, faultsOnCause_of_decodeControl hw⟩
    · exact ⟨by decide, SlotOperation.faultsOnCause (slotOperation_of_decodeScalar hw)⟩
    · exact ⟨by decide, SlotOperation.faultsOnCause (slotOperation_of_decodeVector hw)⟩
    · exact ⟨by decide, SlotOperation.faultsOnCause (slotOperation_of_decodeMatrix hw)⟩
    · exact ⟨by decide, faultsOnCause_of_decodeMove hw⟩
  obtain ⟨hslot, hexec⟩ := hfault
  have hle := Instr.cause_le s.caps i
  have hsettle := Tile.settle_quiet hq pt.cyc
  obtain ⟨-, -, -, -, hrep⟩ := (Tile.quiet_iff _).mp (Tile.quiet_settle hq pt.cyc)
  obtain ⟨hhere, hraised, hlog, hcnt⟩ := State.bundleFault_spec rfl hrep hslot (Nat.lt_of_le_of_lt hle (by decide)) hv
  have hevt : bundleFaultEvt pt ((s.here pt).settle pt.cyc).pc.toNat (i.cause s.caps) = ⟨0x03, d, pt.tile.val, none, 0, 0⟩ :=
    if_neg (by omega)
  have hpc : ((s.here pt).settle pt.cyc).pc = (s.here pt).pc := by rw [hsettle]
  rw [hevt] at hraised
  rw [hpc] at hlog
  exact ⟨_, hexec s hcause, hhere, hraised, hlog.valid, hlog.tile, hlog.pc, hlog.slot, hlog.cause, hcnt hcount⟩

end Sys2Proof.Machine
end

section
/-! SUPPORT. Bundle issue (R82, R95, R97, R99, R103 to R105): the bundle that a tile takes, what it meets, and its five slots together. -/
namespace Sys2Proof.Machine

/-! ### A command on a tile that reports nothing -/

/-- A command whose tile reports nothing changes its tile only. -/
theorem State.onTile_silent (s : State) (pt : At) {f : Tile → Tile} (hf : (f ((s.here pt).settle pt.cyc)).rep = []) :
    OnlyTile pt s (s.onTile pt f) ∧ (s.onTile pt f).here pt = f ((s.here pt).settle pt.cyc) := by
  rw [State.onTile_eq]
  refine ⟨State.onlyTile_putTile s pt _ hf, ?_⟩
  rw [State.here_putTile, ← hf]

/-- The tile of `pt` is in its cycle: nothing in it is due before, and nothing waits for the collector. -/
def State.InCycle (pt : At) (s : State) : Prop := (s.here pt).NothingDue pt.cyc ∧ (s.here pt).rep = []

theorem State.inCycle_putTile {pt : At} {t : Tile} (s : State) (h : t.NothingDue pt.cyc) :
    (s.putTile pt.die.val pt.tile.val t).InCycle pt := by
  rw [State.InCycle, State.here_putTile]
  exact ⟨h.congr rfl rfl rfl, rfl⟩

theorem State.InCycle.onTile {pt : At} {s : State} {f : Tile → Tile} (h : s.InCycle pt) (hf : KeepsNothingDue pt.cyc f) :
    (s.onTile pt f).InCycle pt := s.inCycle_putTile (hf _ h.1.settled)

theorem State.InCycle.settle_rep {pt : At} {s : State} (h : s.InCycle pt) : ((s.here pt).settle pt.cyc).rep = [] := by
  rw [h.1.settle]; exact h.2

/-! ### One slot of a bundle -/

/-- On its own and in a bundle `i` answers one state, in which the tile stays in its cycle. -/
def Issues (pt : At) (i : Instr) : Prop :=
  ∀ s : State, s.InCycle pt → ∃ t, exec i s = .next t ∧ slotRun i s = .next t ∧ t.InCycle pt

theorem issues_nop (pt : At) : Issues pt (.nop pt) := fun s h => ⟨s, rfl, rfl, h⟩

theorem State.InCycle.slotOp {pt : At} {s : State} {f : Tile → Tile} (h : s.InCycle pt) (slot cause : Nat)
    (hf : KeepsNothingDue pt.cyc f) : (slotOp pt slot cause f s).InCycle pt := by
  unfold Machine.slotOp
  split
  · exact h.onTile hf
  · rw [State.InCycle, State.here_bundleFault]
    exact ⟨h.1.settled.congr rfl rfl rfl, rfl⟩

theorem SlotOperation.issues {pt : At} {slot : Nat} {i : Instr} (h : i = .nop pt ∨ SlotOperation pt slot i) : Issues pt i := by
  rcases h with rfl | h
  · exact issues_nop pt
  · intro s hs
    obtain ⟨f, hf, hkeeps⟩ := h.exec_eq s
    exact ⟨_, hf, (h.run_eq s).trans hf, hs.slotOp slot _ hkeeps⟩

/-- A slot that decodes to no operation is a no-op. -/
theorem slotInstr_cases {pt : At} {d : Option (Instr × Bool)} {p : Instr → Prop} (hn : p (.nop pt))
    (hs : ∀ i rsv, d = some (i, rsv) → p i) : p (slotInstr pt d) := by
  cases d with
  | none => exact hn
  | some x => exact hs x.1 x.2 rfl

/-- The control slot as it comes last: a no-op goes on to the next bundle, any other operation means what it means on its own. -/
theorem controlRun_of_decodeControl {pt : At} {w : BitVec 32} {i : Instr} {rsv : Bool} (h : decodeControl pt w = some (i, rsv)) :
    i = .nop pt ∨ ∀ s, ∃ t, exec i s = .next t ∧ controlRun pt i s = .next t := by
  unfold decodeControl at h
  split at h
  case h_1 => cases h; exact .inl rfl
  case h_11 => cases h
  all_goals
    cases h
    exact .inr fun s => ⟨_, rfl, rfl⟩

/-! ### The five slots together -/

theorem issueSlots_eq {pt : At} {ds : Slots} {s s1 s2 s3 s4 : State} (h1 : slotRun ds.scalar s = .next s1)
    (h2 : slotRun ds.vector s1 = .next s2) (h3 : slotRun ds.matrix s2 = .next s3) (h4 : slotRun ds.move s3 = .next s4) :
    issueSlots pt ds s = controlRun pt ds.control s4 := by
  simp only [issueSlots, h1, Res.andThen, h2, h3, h4]

/-- The scalar, vector and matrix slots of a bundle issue. -/
theorem decodeSlots_issues (pt : At) (caps : Nat) (w : W256) : Issues pt (decodeSlots pt caps w).scalar ∧
    Issues pt (decodeSlots pt caps w).vector ∧ Issues pt (decodeSlots pt caps w).matrix :=
  ⟨slotInstr_cases (issues_nop pt) fun _ _ hd => SlotOperation.issues (slotOperation_of_decodeScalar hd),
    slotInstr_cases (issues_nop pt) fun _ _ hd => SlotOperation.issues (slotOperation_of_decodeVector hd),
    slotInstr_cases (issues_nop pt) fun _ _ hd => SlotOperation.issues (slotOperation_of_decodeMatrix hd)⟩

/-- The move slot of a bundle is a no-op, or its command enters the queue (R95). -/
theorem decodeSlots_move (pt : At) (caps : Nat) (w : W256) {s : State} (h : s.InCycle pt) :
    ∃ t, (((decodeSlots pt caps w).move = .nop pt ∧ t = s) ∨
        ∃ x ∈ moveSlot, ∃ o, (decodeSlots pt caps w).move = x.1 pt o ∧ t = s.onTile pt (issueMove pt x.2 o)) ∧
      slotRun (decodeSlots pt caps w).move s = .next t ∧ t.InCycle pt := by
  have hmove : (decodeSlots pt caps w).move = .nop pt ∨ ∃ x ∈ moveSlot, ∃ o, (decodeSlots pt caps w).move = x.1 pt o :=
    slotInstr_cases (p := fun i => i = .nop pt ∨ ∃ x ∈ moveSlot, ∃ o, i = x.1 pt o) (.inl rfl) fun _ _ hd => moveSlot_of_decodeMove hd
  rcases hmove with hn | ⟨x, hx, o, ho⟩
  · exact ⟨s, .inl ⟨hn, rfl⟩, by rw [hn]; rfl, h⟩
  · exact ⟨_, .inr ⟨x, hx, o, ho, rfl⟩, by rw [ho]; exact (exec_moveSlot hx pt o s).2, h.onTile (keeps_issueMove x.2 o)⟩

theorem decodeSlots_control (pt : At) (caps : Nat) (w : W256) : (decodeSlots pt caps w).control = .nop pt ∨
    ∀ s, ∃ t, exec (decodeSlots pt caps w).control s = .next t ∧ controlRun pt (decodeSlots pt caps w).control s = .next t :=
  slotInstr_cases (p := fun i => i = .nop pt ∨ ∀ s, ∃ t, exec i s = .next t ∧ controlRun pt i s = .next t) (.inl rfl)
    fun _ _ hd => controlRun_of_decodeControl hd

/-! ### The fault a bundle meets (R104, R105) -/

/-- The first slot with a cause is the fault. -/
theorem firstFault_eq {cs : List Nat} {slot : Nat} (h : cs.getD slot 0 ≠ 0) (hlow : ∀ i, i < slot → cs.getD i 0 = 0) (n : Nat) :
    firstFault n cs = some (n + slot, cs.getD slot 0) := by
  induction cs generalizing n slot with
  | nil => exact absurd rfl h
  | cons c cs ih =>
    cases slot with
    | zero =>
      cases c with
      | zero => exact absurd rfl h
      | succ c => rfl
    | succ k =>
      have hc : c = 0 := hlow 0 (Nat.succ_pos k)
      subst hc
      rw [firstFault, ih h (fun i hi => hlow (i + 1) (Nat.succ_lt_succ hi)) (n + 1)]
      simp only [List.getD_cons_succ, Option.some.injEq, Prod.mk.injEq, and_true]
      omega

/-- The cause of the control slot: its encoding's, the loop stack's, or the double-bit error at fetch. -/
def controlCause (t : Tile) (ds : Slots) : Nat :=
  if ds.causes.headD 0 ≠ 0 then ds.causes.headD 0 else if controlLoopCause t ds.control ≠ 0 then controlLoopCause t ds.control
    else if eccIn t.ieccs 2 (32 * t.pc.toNat) 32 then 0xC else 0

theorem bundleCause_eq {t : Tile} {ds : Slots} (h : ds.causes ≠ []) :
    bundleCause t ds = firstFault 0 (controlCause t ds :: ds.causes.drop 1) := by
  unfold bundleCause controlCause
  cases hcs : ds.causes with
  | nil => exact absurd hcs h
  | cons c cs =>
    by_cases hc : c = 0
    · by_cases hl : controlLoopCause t ds.control = 0 <;> simp [hc, hl]
    · simp [hc]

/-- A bundle with no cause in any slot, free of errors at fetch, meets no fault. -/
theorem bundleCause_none {t : Tile} {ds : Slots} (he : t.ieccs = []) (hc : ds.causes = [0, 0, 0, 0, 0])
    (hl : controlLoopCause t ds.control = 0) : bundleCause t ds = none := by
  have hcontrol : controlCause t ds = 0 := by simp [controlCause, hc, hl, he, eccIn]
  rw [bundleCause_eq (by rw [hc]; exact List.cons_ne_nil _ _), hcontrol, hc]
  rfl

theorem controlCause_le (pt : At) (caps : Nat) (w : W256) (t : Tile) : controlCause t (decodeSlots pt caps w) ≤ 12 := by
  unfold controlCause
  split
  · exact Nat.le_trans (slotCause_le _ _) (by decide)
  split
  · exact Nat.le_trans (controlLoopCause_le t _) (by decide)
  split <;> decide

/-- Every cause fits the log. -/
theorem cause_lt (pt : At) (caps : Nat) (w : W256) (t : Tile) (slot : Nat) :
    (controlCause t (decodeSlots pt caps w) :: (decodeSlots pt caps w).causes.drop 1).getD slot 0 < 16 := by
  have hslot : ∀ {n op : Nat} (w : BitVec n) d, slotCause caps op w d < 16 :=
    fun w d => Nat.lt_of_le_of_lt (slotCause_le w d) (by decide)
  match slot with
  | 0 => exact Nat.lt_of_le_of_lt (controlCause_le pt caps w t) (by decide)
  | 1 | 2 | 3 | 4 => exact hslot _ _
  | _ + 5 => exact Nat.zero_lt_succ 15

/-! ### The bundle a tile takes (R97, R99, R201) -/

/-- The tile as it takes its bundle; a load into its instruction buffer leaves open which bundle was read (R73). -/
def Tile.takes (t : Tile) : Tile :=
  { t with issue := .issuing, free := if t.active.any fun a => a.cmd.kind == .ibld then t.free + 1 else t.free }
/-- The tile with the single-bit error of its bundle reported (R72). -/
def Tile.fetched (t : Tile) : Tile :=
  if eccIn t.ieccs 1 (32 * t.pc.toNat) 32 then t.report 0x01 (32 * t.pc.toNat) else t
/-- What the tile `t` does with the bundle it has taken: it faults, issues or waits. -/
def issueBundle (pt : At) (s : State) (t : Tile) (ds : Slots) : Res :=
  match bundleCause t ds with
  | some (slot, cause) => .next ((s.putTile pt.die.val pt.tile.val t.fetched).bundleFault pt slot cause)
  | none =>
    if controlReady t (s.region (regionKey pt.die.val pt.tile.val)) pt.cyc ds.control && matrixReady t pt.cyc ds.matrix then
      issueSlots pt ds (s.putTile pt.die.val pt.tile.val t.fetched)
    else .next (s.putTile pt.die.val pt.tile.val t)

/-- BUNDLE_ISSUE does nothing with a tile that may not issue. -/
theorem execBundleIssue_eq (pt : At) (s : State) : execBundleIssue pt s =
    if s.safe || s.idle || !mayIssue ((s.here pt).settle pt.cyc) (s.region (regionKey pt.die.val pt.tile.val)) pt.cyc then .next s
    else issueBundle pt s ((s.here pt).settle pt.cyc).takes
      (decodeSlots pt s.caps (fetchBundle ((s.here pt).settle pt.cyc) ((s.here pt).settle pt.cyc).pc.toNat)) := by
  rfl

theorem Tile.takes_of_idle {t : Tile} (h : t.active = []) : t.takes = { t with issue := .issuing } := by
  have hfree : (if t.active.any fun a => a.cmd.kind == .ibld then t.free + 1 else t.free) = t.free := by rw [h]; rfl
  rw [Tile.takes, hfree]

theorem Tile.fetched_of_clean {t : Tile} (h : t.ieccs = []) : t.fetched = t := by
  rw [Tile.fetched, h]; rfl

theorem Tile.fetched_silent {t : Tile} (h : t.rep = []) : { t.fetched with rep := [] } = t := by
  unfold Tile.fetched
  split
  · rw [← h]; rfl
  · rw [← h]

section answers
variable {pt : At} {s : State} {t : Tile} {ds : Slots}

theorem issueBundle_of_cause {slot cause : Nat} (h : bundleCause t ds = some (slot, cause)) :
    issueBundle pt s t ds = .next ((s.putTile pt.die.val pt.tile.val t.fetched).bundleFault pt slot cause) := by
  simp only [issueBundle, h]

theorem issueBundle_of_ready (h : bundleCause t ds = none)
    (hr : (controlReady t (s.region (regionKey pt.die.val pt.tile.val)) pt.cyc ds.control && matrixReady t pt.cyc ds.matrix) = true) :
    issueBundle pt s t ds = issueSlots pt ds (s.putTile pt.die.val pt.tile.val t.fetched) := by
  simp only [issueBundle, h, hr, if_true]

theorem issueBundle_of_waiting (h : bundleCause t ds = none)
    (hr : (controlReady t (s.region (regionKey pt.die.val pt.tile.val)) pt.cyc ds.control && matrixReady t pt.cyc ds.matrix) = false) :
    issueBundle pt s t ds = .next (s.putTile pt.die.val pt.tile.val t) := by
  simp only [issueBundle, h, hr, Bool.false_eq_true, if_false]

end answers

/-! ### A tile that takes its bundle -/

/-- The tile may issue in the cycle: it issues, or its launch tick is reached (R201). -/
def Tile.onTurn (t : Tile) (r : Region) (c : Nat) : Prop :=
  t.issue = .issuing ∨ ∃ n, t.issue = .waiting n ∧ (n < r.tick ∨ (n = r.tick ∧ r.tick0 ≤ c))

/-- A quiet tile takes its bundle in this cycle, with no load into its instruction buffer under way. -/
structure TakesBundle (pt : At) (s : State) : Prop where
  quiet : (s.here pt).quiet = true
  safe : s.safe = false
  idle : s.idle = false
  turn : (s.here pt).onTurn (s.region (regionKey pt.die.val pt.tile.val)) pt.cyc
  due : (s.here pt).nextCyc ≤ pt.cyc
  active : (s.here pt).active = []

/-- The tile as it takes its bundle, with no load under way. -/
def State.taking (s : State) (pt : At) : Tile := { (s.here pt).settle pt.cyc with issue := .issuing }
/-- The slots of the bundle it takes. -/
def State.slotsAt (s : State) (pt : At) : Slots :=
  decodeSlots pt s.caps (smGet (fun _ => 0) (s.taking pt).ibuf (s.taking pt).pc.toNat)
/-- Its issue conditions hold. -/
def State.bundleReady (s : State) (pt : At) : Bool :=
  controlReady (s.taking pt) (s.region (regionKey pt.die.val pt.tile.val)) pt.cyc (s.slotsAt pt).control
    && matrixReady (s.taking pt) pt.cyc (s.slotsAt pt).matrix

namespace TakesBundle
variable {pt : At} {s : State}

theorem mayIssue (h : TakesBundle pt s) :
    mayIssue ((s.here pt).settle pt.cyc) (s.region (regionKey pt.die.val pt.tile.val)) pt.cyc = true := by
  rw [Tile.settle_quiet h.quiet]
  simp only [Machine.mayIssue, h.due, decide_true, Bool.and_true]
  rcases h.turn with hi | ⟨n, hi, hn⟩
  · rw [hi]
  · rw [hi]
    simp only [Bool.or_eq_true, Bool.and_eq_true, decide_eq_true_eq]
    exact hn

theorem taking_quiet (h : TakesBundle pt s) : (s.taking pt).quiet = true := Tile.quiet_settle h.quiet pt.cyc
theorem taking_rep (h : TakesBundle pt s) : (s.taking pt).rep = [] := by
  obtain ⟨-, -, -, -, hrep⟩ := (Tile.quiet_iff _).mp h.taking_quiet
  exact hrep

/-- The tile that takes its bundle has seen the cycle come. -/
theorem taking_settle (h : TakesBundle pt s) : (s.taking pt).settle pt.cyc = s.taking pt := by
  rw [Tile.settle_quiet h.taking_quiet, State.taking, Tile.settle_quiet h.quiet]
  simp only [Nat.max_assoc, Nat.max_self]

/-- With no load under way the tile takes the bundle that its instruction buffer holds (R73). -/
theorem exec_eq (h : TakesBundle pt s) : exec (.bundleIssue pt) s = issueBundle pt s (s.taking pt) (s.slotsAt pt) := by
  have hactive : ((s.here pt).settle pt.cyc).active = [] := by rw [Tile.settle_quiet h.quiet]; exact h.active
  have htakes : ((s.here pt).settle pt.cyc).takes = s.taking pt := Tile.takes_of_idle hactive
  have hfetch : fetchBundle ((s.here pt).settle pt.cyc) ((s.here pt).settle pt.cyc).pc.toNat =
      smGet (fun _ => 0) (s.taking pt).ibuf (s.taking pt).pc.toNat := by
    simp only [fetchBundle, hactive, List.find?_nil]; rfl
  have hmay : ¬(s.safe || s.idle || !Machine.mayIssue ((s.here pt).settle pt.cyc)
      (s.region (regionKey pt.die.val pt.tile.val)) pt.cyc) = true := by
    rw [h.safe, h.idle, h.mayIssue]; decide
  exact (execBundleIssue_eq pt s).trans (by rw [if_neg hmay, htakes, hfetch, State.slotsAt])

/-- A tile whose issue condition fails waits as it is (R97). -/
theorem waits (h : TakesBundle pt s) (hc : bundleCause (s.taking pt) (s.slotsAt pt) = none) (hr : s.bundleReady pt = false) :
    Yields (.bundleIssue pt) s fun t => OnlyTile pt s t ∧ t.here pt = s.taking pt := by
  refine ⟨_, h.exec_eq.trans (issueBundle_of_waiting hc hr), s.onlyTile_putTile pt _ h.taking_rep, ?_⟩
  rw [State.here_putTile, ← h.taking_rep]

/-- A bundle with a cause stops its tile, with the lowest slot and its cause in the log (R104 to R106). -/
theorem faults (h : TakesBundle pt s) {slot cause : Nat} (hc : bundleCause (s.taking pt) (s.slotsAt pt) = some (slot, cause))
    (hslot : slot < 8) (hcause : cause < 16) (hv : s.rd HDL_BFAULT_LOG_VALID pt.die.val = 0) :
    Yields (.bundleIssue pt) s fun t => t.here pt = { s.taking pt with issue := .stopped } ∧
      bundleFaultEvt pt (s.taking pt).pc.toNat cause ∈ t.raised ∧
      BundleFaultLogged pt.die.val pt.tile.val (s.taking pt).pc.toNat slot cause t := by
  have hsettle : ((s.putTile pt.die.val pt.tile.val (s.taking pt).fetched).here pt).settle pt.cyc = s.taking pt := by
    rw [State.here_putTile, Tile.fetched_silent h.taking_rep, h.taking_settle]
  obtain ⟨hhere, hraised, hlog, -⟩ := State.bundleFault_spec hsettle h.taking_rep hslot hcause hv
  exact ⟨_, h.exec_eq.trans (issueBundle_of_cause hc), hhere, hraised ▸ List.mem_append_right _ (List.mem_singleton_self _), hlog⟩

/-- The all-zero bundle only goes on to the next one (R82, R84). -/
theorem issues_zero (h : TakesBundle pt s) (he : (s.taking pt).ieccs = [])
    (hw : smGet (fun _ => 0) (s.taking pt).ibuf (s.taking pt).pc.toNat = 0) :
    Yields (.bundleIssue pt) s fun t => OnlyTile pt s t ∧ t.here pt = (s.taking pt).advance pt.cyc := by
  have hds : s.slotsAt pt = ⟨.nop pt, .nop pt, .nop pt, .nop pt, .nop pt, [0, 0, 0, 0, 0]⟩ := by rw [State.slotsAt, hw]; rfl
  have hc : bundleCause (s.taking pt) (s.slotsAt pt) = none := by rw [hds]; exact bundleCause_none he rfl rfl
  have hexec : exec (.bundleIssue pt) s =
      .next ((s.putTile pt.die.val pt.tile.val (s.taking pt)).onTile pt fun t => t.advance pt.cyc) := by
    rw [h.exec_eq, issueBundle_of_ready hc (by rw [hds]; rfl), hds, Tile.fetched_of_clean he]; rfl
  have hput : (s.putTile pt.die.val pt.tile.val (s.taking pt)).here pt = s.taking pt := by
    rw [State.here_putTile, ← h.taking_rep]
  have hsilent := State.onTile_silent (s.putTile pt.die.val pt.tile.val (s.taking pt)) pt (f := fun t => t.advance pt.cyc)
    (by rw [hput, h.taking_settle]; exact h.taking_rep)
  rw [hput, h.taking_settle] at hsilent
  exact ⟨_, hexec, (s.onlyTile_putTile pt _ h.taking_rep).trans hsilent.1, hsilent.2⟩

/-- The five slots run their own meanings, one on the state that the other leaves, the control slot last (R82, R95). -/
theorem issues (h : TakesBundle pt s) (he : (s.taking pt).ieccs = [])
    (hc : bundleCause (s.taking pt) (s.slotsAt pt) = none) (hr : s.bundleReady pt = true) :
    ∃ s1 s2 s3 s4, exec (s.slotsAt pt).scalar (s.putTile pt.die.val pt.tile.val (s.taking pt)) = .next s1 ∧
      exec (s.slotsAt pt).vector s1 = .next s2 ∧ exec (s.slotsAt pt).matrix s2 = .next s3 ∧
      (((s.slotsAt pt).move = .nop pt ∧ s4 = s3) ∨
        ∃ x ∈ moveSlot, ∃ o, (s.slotsAt pt).move = x.1 pt o ∧ s4 = s3.onTile pt (issueMove pt x.2 o)) ∧
      ((s.slotsAt pt).control = .nop pt →
        Yields (.bundleIssue pt) s fun t => OnlyTile pt s4 t ∧ t.here pt = ((s4.here pt).settle pt.cyc).advance pt.cyc) ∧
      ((s.slotsAt pt).control ≠ .nop pt → Yields (.bundleIssue pt) s fun t => exec (s.slotsAt pt).control s4 = .next t) := by
  have hslots : Issues pt (s.slotsAt pt).scalar ∧ Issues pt (s.slotsAt pt).vector ∧ Issues pt (s.slotsAt pt).matrix :=
    decodeSlots_issues pt s.caps _
  obtain ⟨hscalar, hvector, hmatrix⟩ := hslots
  obtain ⟨s1, hexec1, hrun1, hin1⟩ := hscalar _ (s.inCycle_putTile (Tile.nothingDue_of_quiet h.taking_quiet _))
  obtain ⟨s2, hexec2, hrun2, hin2⟩ := hvector _ hin1
  obtain ⟨s3, hexec3, hrun3, hin3⟩ := hmatrix _ hin2
  obtain ⟨s4, hmove, hrun4, hin4⟩ := decodeSlots_move pt s.caps (smGet (fun _ => 0) (s.taking pt).ibuf (s.taking pt).pc.toNat) hin3
  have hexec : exec (.bundleIssue pt) s = controlRun pt (s.slotsAt pt).control s4 := by
    rw [h.exec_eq, issueBundle_of_ready hc hr, Tile.fetched_of_clean he]
    exact issueSlots_eq hrun1 hrun2 hrun3 hrun4
  refine ⟨s1, s2, s3, s4, hexec1, hexec2, hexec3, hmove, fun hn => ?_, fun hn => ?_⟩
  · rw [hn] at hexec
    exact ⟨_, hexec, State.onTile_silent s4 pt hin4.settle_rep⟩
  · rcases decodeSlots_control pt s.caps (smGet (fun _ => 0) (s.taking pt).ibuf (s.taking pt).pc.toNat) with hnop | hctl
    · exact absurd hnop hn
    · obtain ⟨t, ht, hrun⟩ := hctl s4
      exact ⟨t, hexec.trans hrun, ht⟩

end TakesBundle

/-! ### The statement -/

theorem bundleIssueEffect : Says.BundleIssueEffect := by
  intro pt s hq hsafe hidle R hturn hdue hactive T ds ready go
  have h : TakesBundle pt s := ⟨hq, hsafe, hidle, hturn, hdue, hactive⟩
  refine ⟨fun he hcauses hloop => ?_, fun he hw => h.issues_zero he hw, ?_⟩
  · have hc : bundleCause (s.taking pt) (s.slotsAt pt) = none := bundleCause_none he hcauses hloop
    exact ⟨fun hr => h.issues he hc hr, fun hr => h.waits hc hr⟩
  · intro control causes slot hslot hcause hlow hv
    have hc : bundleCause (s.taking pt) (s.slotsAt pt) = some (slot, causes.getD slot 0) := by
      rw [bundleCause_eq (List.cons_ne_nil _ _)]
      exact (firstFault_eq hcause hlow 0).trans (by rw [Nat.zero_add])
    obtain ⟨t, hexec, hhere, hraised, hlog⟩ := h.faults hc (by omega) (cause_lt pt s.caps _ _ slot) hv
    exact ⟨t, hexec, hhere, hraised, hlog.valid, hlog.tile, hlog.pc, hlog.slot, hlog.cause⟩

/-- Settles O12: an operation whose encoding meets a cause is a slot operation with that cause, so it stops its tile; a bundle without one
leaves nothing due in its tile before its cycle, so its slots run one after the other on what they find in that cycle. -/
theorem bundleIssueAndFault : Obligations.BundleIssueAndFault := ⟨bundleFaultEffect, bundleIssueEffect⟩

end Sys2Proof.Machine
end
